-- ==== Sys2Proof/Word.lean ====
section
/-!
DEFINITION. Sys2Proof/Word.lean: the word types of the model and their plainest arithmetic
(spec 00, *Notation*: bit 0 is the least significant bit; memory is little-endian, spec 03 R148).
-/

namespace Sys2Proof

/-- A 64-bit register or docket word. -/
abbrev Word := BitVec 64

/-- One byte of memory. -/
abbrev Byte := BitVec 8

/-- A 32-bit word. -/
abbrev W32 := BitVec 32

/-- A tile instruction (spec 04, R252: every instruction is 128 bits). -/
abbrev W128 := BitVec 128

/-- Bits `[lo + w - 1 : lo]` of a natural number, as a number (spec 00, R9). -/
def bitsOf (v lo w : Nat) : Nat := (v >>> lo) % 2 ^ w

/-- Is bit `i` of `v` set? -/
def bitAt (v i : Nat) : Bool := (v >>> i) % 2 == 1

/-- The number 1 for `true` and 0 for `false`: how a flag stands in a register. -/
def bit (b : Bool) : Nat := if b then 1 else 0

end Sys2Proof
end

