-- ==== Sys2Proof/Config.lean ====
section
/-!
DEFINITION. Sys2Proof/Config.lean: what one implementation fixes and the spec leaves open, as constants
without a body: nothing in Lean can evaluate them, so a claim that mentions one holds whatever its value is.
Each is named in the assumption log. A free value that is new each time is a constant applied to the counter
`fresh` of State; a value that one part always gives the same is a constant applied to what it depends on.
-/

namespace Sys2Proof

/-- UNIT_ID.VERSION of the unit at a path (spec 02: "per unit"); log entry 9. -/
opaque Config.unitVersion : Nat → BitVec 8

/-- UNIT_ID.LEVEL of a unit that R24 gives no row of its own; log entry 9. -/
opaque Config.besideLevel : Nat → BitVec 3

/-- UNIT_CAP.REG_BYTES of the unit at a path (spec 02: "per unit"); log entry 9. -/
opaque Config.regBytes : Nat → BitVec 16

/-- UNIT_CHILD.TABLE_OFFSET of the unit at a path, in words of 8 B (spec 02: "per unit"); log entry 9. -/
opaque Config.childTable : Nat → BitVec 9

/-- UNIT_ID.ES: is the module an engineering sample; log entry 9. -/
opaque Config.engineeringSample : Bool

/-- Which of the FP32 values within its error limit a special function gives (R552): function code and operand code;
log entry 20. -/
opaque Config.sfError : Nat → W32 → Nat

/-- A byte whose value the spec leaves undefined after the n-th event that leaves one open; log entry 5. -/
opaque Config.freeByte : Nat → Byte

/-- A word whose value the spec leaves open after the n-th event that leaves one open; log entry 5. -/
opaque Config.freeWord : Nat → Word

/-- A choice of one out of a number of possibilities that the spec leaves open; log entry 5. -/
opaque Config.freeChoice : Nat → Nat

/-- SHA-384 of a byte string as a number (R912 to R942, R984; FIPS 180 is a published standard); log entry 30. -/
opaque Config.sha384 : List Byte → BitVec 384

/-- SHA-384 of the boot ROM (R1009, measurement 1); log entry 30. -/
opaque Config.romDigest : BitVec 384

/-- SHA-384 of the header and body of an image (R1009, measurement 2), by its letter and the bytes of its area written
since manufacture; log entry 30. -/
opaque Config.imageDigest : Nat → List (Nat × Byte) → BitVec 384

/-- The digest of the public key in a key slot (R983); log entry 30. -/
opaque Config.keyDigest : Nat → BitVec 384

/-- The ECDSA P-384 signature of a private key over a byte string (R984, R1004, R1006, R1007; FIPS 186 is a published standard); log
entry 30. -/
opaque Config.ecdsaSign : Nat → List Byte → List Byte

/-- The P-384 public key of a private key, 97 B as in R982; log entry 30. -/
opaque Config.p384Public : Nat → List Byte

/-- The unique device secret in the fuses (R1002); log entry 101. -/
opaque Config.uniqueSecret : BitVec 384

/-- How many bytes the derivations of R1002 and R1003 take from HKDF; log entry 101. -/
opaque Config.derivedBytes : Nat

/-- Bolken's PCI vendor ID and the device ID of the TZ9 member (R953); log entry 102. -/
opaque Config.vendorId : BitVec 16
opaque Config.deviceId : BitVec 16

/-- The result of a clerk vector or floating-point operation that the model leaves to the RISC-V standard:
the instruction word and the operands it reads; log entry 24. -/
opaque Config.clerkResult : Nat → List Word → Word

/-- The identification CSRs of a clerk (mvendorid, marchid, mimpid, mhartid, mconfigptr): its path and the CSR's number;
log entry 24. -/
opaque Config.clerkId : Nat → Nat → Word

end Sys2Proof
end

