-- ==== Sys2Proof/Syntax.lean ====
section
/-!
DEFINITION. Sys2Proof/Syntax.lean: the commands of the block, one constructor per row of
spec/opcode_table.json, in the table's order.

Operands. A unit is named by its 16-bit path (R57, R58), a ring by its number, 4 × span + r, the device ring 32 (R102), a span,
port, window or entry by its number. What only the physical world decides (how many bits of a stored word
are in error, whether a lane trained, what a sensor reads, whether a memory request came back) is an
operand of the command that reports it. A tile or clerk instruction is named by the unit that issues it:
the unit takes the instruction at its own program counter. Notes: notes/assumptions/2.md and 3.md.
-/

namespace Sys2Proof

/-- Who makes a register access: the host over CXL (BAR0), a clerk of the device (R499) or the management
path (R1014). -/
inductive Src where
  | host
  | clerk (path : Nat)
  | mgmt
  deriving DecidableEq, Repr

/-- How a request to memory came back: with its data, with one of the failure causes of R682, or not yet (it is late, R676). -/
inductive ReqOutcome where
  | ok
  | failed (cause : Nat)
  | late
  deriving DecidableEq, Repr

/-- How one access to a device address came back: its outcome, bits in error in a cached word, and symbols in error in the code
sector read (R472, R599). -/
structure AccessErr where
  res : ReqOutcome := .ok
  bits : Nat := 0
  symErrs : Nat := 0
  deriving DecidableEq, Repr

/-- A Kyino frame header (R737), with the LSEQ and VC of its link word (R736) and its payload bytes. -/
structure Frame where
  dst : Nat := 0
  src : Nat := 0
  op : Nat := 0
  hops : Nat := 0
  key : Nat := 0
  win : Nat := 0
  strand : Nat := 0
  tag : Nat := 0
  offset : Nat := 0
  group : Nat := 0
  vc : Nat := 0
  payload : List Byte := []
  /-- the reserved bits of the frame: of the header from bit 0 on, of the link word from bit 18, of the trailer from bit 64 -/
  reserved : Nat := 0
  deriving DecidableEq, Repr

/-- How one boot step went for one resource of R987: the boot unit detected a failure of it, or not. -/
structure BootFacts where
  /-- the signatures of image A and of image B verify (check 5 of R984) -/
  sigA : Bool := true
  sigB : Bool := true
  /-- resource indices (R987) whose step fails on its first attempts, with the number of attempts that fail -/
  fails : List (Nat × Nat) := []
  /-- units whose boot-time full pass finds them unrepairable (R976 BIST, R896) -/
  badUnits : List Nat := []
  /-- stacks of which a maintenance boot repairs and tests a DRAM row whose granules are all retired (R893, R999) -/
  ppr : List Nat := []
  /-- straps as sampled (R1071): SLOT_ID, MGMT_SEL, DBG_EN, FEED_ID -/
  slotId : Nat := 63
  mgmtSel : Bool := true
  dbgEn : Bool := true
  feedId : Nat := 255
  deriving DecidableEq, Repr

/-- How a message of the management path or an SPDM request reaches the device: DOE, the sideband bus at a 7-bit address, the
sideband bus at the dynamic address that an I3C controller assigned, or PCIe VDM (R1007, R1012, R1072). -/
inductive MgmtVia where
  | doe
  | address (a : Nat)
  | dynamic
  | vdm
  deriving DecidableEq, Repr

/-- The transport, whose SPDM connection is its own (R1008): 0 DOE, 1 the sideband bus, 2 PCIe VDM. -/
def MgmtVia.transport : MgmtVia → Nat
  | .doe => 0
  | .address _ => 1
  | .dynamic => 1
  | .vdm => 2

/-- The commands of the block: one constructor per row of the opcode table. An operand `ctl` says how the reads of control
structures that the command makes come back (R1104), in order, and `acc` how its accesses to device addresses do; what a list
does not name comes back well. -/
inductive Instr where
  -- registers and units (02)
  /-- REGISTER_WRITE: `size` bytes at byte `off` of page `path` -/
  | registerWrite (src : Src) (path off size : Nat) (v : Word)
  | unitEnable (path : Nat)
  | unitDisable (path : Nat)
  /-- BLOCK_RESET of a unit: `ok` = its reset succeeds; one that fails leaves the unit FAILED (R78) -/
  | blockReset (path : Nat) (ok : Bool := true)
  | fence (path : Nat)
  | release (path : Nat)
  | startSequenceDone (path : Nat)
  | unitDrainComplete (path : Nat)
  | unitDrainTimeout (path : Nat)
  /-- GROUP_PAGE_WRITE: the host writes the 8 B register at `off` of page 0xFF00 -/
  | groupPageWrite (off : Nat) (v : Word)
  /-- VGW: the frame from device `src` forwards a write of the register at `off` -/
  | vgw (src off : Nat) (v : Word)
  | vgc (src : Nat) (words : List Word)
  | vga (src : Nat) (words : List Word)
  | vgcPeriod
  -- docket rings (02)
  | doorbell (ring : Nat) (tail : W32)
  /-- DOCKET_FETCH: `res` how the read of the ring came back, `sramBits` bits in error in the base-die SRAM
  word that takes the docket (R835) -/
  | docketFetch (ring : Nat) (res : ReqOutcome) (sramBits : Nat)
  | docketBegin (ring : Nat) (ctl : List ReqOutcome := [])
  | completionWrite (ring : Nat)
  | cplHeadWrite (ring : Nat) (head : W32)
  | restart (ring : Nat)
  | nop (ring : Nat)
  | barrier (ring : Nat)
  | kill
  -- amax/scale table and traps (03)
  | amaxRead
  /-- AMAX_COMMIT: the write of CH_AMAX_DATA3 carries word 3 -/
  | amaxCommit (w3 : Word)
  | amaxRoll (first last : Nat)
  | amaxRollDone
  | trapClear (path : Nat)
  -- matrix engines and tile programs (04)
  | meGo (path : Nat)
  | meStop (path : Nat)
  | meProgRead (path : Nat)
  | meProgWrite (path : Nat) (hi : Word)
  /-- MMA: `amBits` bits in error in the AM or weight-buffer word read (R835) -/
  | mma (path amBits : Nat)
  | bankFull (path : Nat) (bankB : Bool)
  | shadowMove (path : Nat)
  | drain (path : Nat)
  /-- DRAIN_START: `amBits` bits in error in an AM word that the drain reads (R835) -/
  | drainStart (path : Nat) (amBits : Nat := 0)
  | drainComplete (path : Nat)
  | mcfg (path : Nat)
  | ldw (path amBits : Nat)
  | lda (path : Nat)
  | wait (path : Nat)
  | setb (path : Nat)
  | loop (path : Nat)
  | endl (path : Nat)
  | endp (path : Nat)
  | tileNop (path : Nat)
  /-- HOST_SUB on the spare page of `span`, with TGT_BAY and TGT_ENG -/
  | hostSub (span bay eng : Nat)
  | hostRel (span : Nat)
  | meSpare (span : Nat)
  -- Trestle (05)
  /-- FLIT_ARRIVE: the oldest flit in flight of circuit `circ` (owner × 4096 + number) reaches its queue -/
  | flitArrive (circ : Nat)
  | creditReturn (circ : Nat)
  | grainStart (io gate : Nat)
  | grainFlitMove (io gate : Nat)
  /-- TR_STALL: the port's watchdog count reaches TR_WATCHDOG: `pos` R326, `port`, `out` an out-port -/
  | trStall (pos port : Nat) (out : Bool)
  /-- TR_WATCHDOG_WRITE: `seal` = the write is of TR_SEAL_TIMEOUT -/
  | trWatchdogWrite (span : Nat) (isSeal : Bool) (limit : Nat)
  /-- LOAD_PLAN: `res` how the read of the image came back -/
  | loadPlan (res : ReqOutcome)
  | quiesceTimeout
  | unseal
  /-- DESCRIPTOR_WRITE by I/O tile `io`: `res` how the tier request came back -/
  | descriptorWrite (io : Nat) (res : ReqOutcome) (ctl : List ReqOutcome := [])
  -- scratchpads, windows, caches, Ledger (06)
  /-- ROW_REQUEST: a 16-bit request word arrives on the reverse lane of `circ` (R417) -/
  | rowRequest (circ : Nat) (word : BitVec 16)
  /-- ROW_READ at tile `path`: `bits` bits in error in the word read -/
  | rowRead (path bits : Nat)
  | rowWrite (path : Nat)
  | spEccWriteback (path : Nat)
  | spCheckWrite (path : Nat) (v : Word)
  /-- APERTURE_READ and APERTURE_WRITE: `size` bytes at BAR2 offset `off`; `bits` bits in error in the word of the row read -/
  | apertureRead (off size : Nat) (bits : Nat := 0)
  | apertureWrite (off size : Nat) (v : BitVec 512) (bits : Nat := 0)
  /-- WINDOW_OPEN / WINDOW_CLOSE: the value written to KY_WIN_CTL of the selected window -/
  | windowOpen (v : Word) (ctl : List ReqOutcome := [])
  | windowClose (v : Word)
  /-- WINDOW_WRITE_COUNTED: the oldest accepted write of window `win` ends, counted (`ok`) or failed at the tier -/
  | windowWriteCounted (win : Nat) (res : ReqOutcome) (ctl : List ReqOutcome := []) (acc : List AccessErr := [])
  /-- SC_READ of the 512 B sector that holds striped near address `addr`; `bits` in error in the cached word -/
  | scRead (span addr bits : Nat)
  /-- SC_WRITE of `data` at striped near address `addr` -/
  | scWrite (span addr : Nat) (data : List Byte)
  | scFlush (span : Nat)
  | scInvalidate (span : Nat)
  | scOpDone (span : Nat)
  /-- FADD of `n` on a counter of the Ledger of `span` -/
  | fadd (span counter n : Nat)
  | fread (span counter : Nat)
  | fset (span counter : Nat) (value limit : W32)
  -- clerks (07)
  | clerkInstruction (path : Nat) (acc : List AccessErr := []) (ctl : List ReqOutcome := [])
  | tzRld (path : Nat)
  | tzRst (path : Nat)
  | rowMoveDone (path slot : Nat)
  | tzRfence (path : Nat)
  | tzLfadd (path : Nat)
  | tzLfread (path : Nat)
  | tzLfset (path : Nat)
  | tzCwait (path : Nat)
  | cwaitTimeout (path : Nat)
  | tzDpost (path : Nat)
  | subDocketBegin (span entry : Nat) (ctl : List ReqOutcome := [])
  | tzDpoll (path : Nat)
  | tzEfence (path : Nat)
  | tzDone (path : Nat)
  | gcGo (path : Nat)
  | gcStop (path : Nat)
  -- SF tiles (07)
  | sfop (path : Nat)
  | sfcfg (path : Nat)
  | sfPregWrite (path : Nat) (v : W32)
  -- memory tiers (08)
  | ftPtInvAll
  /-- FT_PT_INV_PAGE: the 2 MiB page at device-address bits [47:21] = `page` -/
  | ftPtInvPage (page : Nat)
  | invalidationDone
  /-- NEAR_READ of `bytes` bytes at device address `addr` by the unit `path`, with `symErrs` symbols in error in
  its code sector, `crcFails` link-CRC failures in a row (R587), `scBits` bits in error in a cached word, and `fillErrs` symbols in
error in the first further code sector that a span-cache fill reads (R608) -/
  | nearRead (path : Nat) (addr : Word) (bytes symErrs crcFails : Nat) (scBits : Nat := 0) (fillErrs : Nat := 0) (ctl : List ReqOutcome := [])
  | nearWrite (path : Nat) (addr : Word) (data : List Byte) (symErrs crcFails : Nat) (ctl : List ReqOutcome := [])
  /-- NM_TIMEOUT of the outstanding tier request `id` -/
  | nmTimeout (id : Nat)
  /-- PATROL_SCRUB of DRAM row `row` of `stack`: symbols in error in each of its 15 sectors -/
  | patrolScrub (stack row : Nat) (symErrs : List Nat)
  | retWindowStart
  | migrationStart (stack : Nat)
  /-- NM_RETIRE: `bad` are the code sectors of the granule that the migration found uncorrectable (R618) -/
  | nmRetire (stack : Nat) (bad : List Nat := [])
  | nmRetGo (granule stack : Nat)
  | nmScrub (ctl : List ReqOutcome := [])
  | nmCfgWrite (v : Word)
  /-- FAR_REPLY to the outstanding request `id` -/
  | farReply (id : Nat) (res : ReqOutcome)
  | farTimeout (id : Nat)
  /-- EXPANDER_PROBE of entry `e`: did the 8 B read succeed? -/
  | expanderProbe (e : Nat) (ok : Bool)
  | stream (ring : Nat) (ctl : List ReqOutcome := [])
  | fetch (ring : Nat) (ctl : List ReqOutcome := [])
  | offload (ring : Nat) (ctl : List ReqOutcome := [])
  | fillBegin (win : Nat) (ctl : List ReqOutcome := [])
  | fillCounted (win : Nat)
  | leadAdapt (span : Nat)
  | stallStart (span tier cause : Nat) (addr : Word)
  | caStall (span tier cause : Nat)
  -- training steps (09)
  | runStep (ring : Nat)
  | partStart (path : Nat)
  | dkStepWrite (step : W32)
  | clear
  -- Kyino (10)
  | trainingDone (port : Nat)
  | trainingTimeout (port : Nat)
  | trainingRetry (port : Nat)
  | hello (port src : Nat)
  | kyDevIdWrite (id : Nat)
  /-- FRAME_RECEIVE on `port`: the link sequence number and the CRC-32C that the frame carries (R736, R738) -/
  | frameReceive (port lseq crc : Nat) (f : Frame)
  | put (f : Frame)
  | cwrite (f : Frame)
  | wack (f : Frame) (acc : List AccessErr := [])
  | wref (f : Frame)
  | cready (f : Frame)
  | cabort (f : Frame)
  | ack (port lseq : Nat)
  | nak (port lseq : Nat)
  | credit (port vc count : Nat)
  | creditReport (port : Nat)
  | replayTimeout (port : Nat)
  /-- KY_RETRAIN: the partner advertises its next expected LSEQ and its free space by VC (R755) -/
  | kyRetrain (port lseq : Nat) (free : List Nat)
  | kyLaneSpare (port lane lseq : Nat) (free : List Nat)
  | retrainTimeout (port : Nat)
  | kySlow (port vc : Nat)
  | slowClear (port : Nat)
  /-- SELECTIVE_ACK from device `dev` for `vc`: the lowest missing ESEQ and the map after it -/
  | selectiveAck (dev vc low : Nat) (map : BitVec 256)
  | selectiveAckSend (dev vc : Nat)
  | e2eResend (dev vc : Nat)
  | kyRtDataWrite (v : Word)
  | tsyncPeriod
  /-- TSYNC on `port` from `src` with payload t1 -/
  | tsync (port src : Nat) (t1 : Word)
  | tdreq (port src : Nat)
  | tdrsp (port src : Nat) (t4 : Word)
  | allReduce (ctl : List ReqOutcome := []) (acc : List AccessErr := [])
  | reduceScatter (ctl : List ReqOutcome := []) (acc : List AccessErr := [])
  | allGather (ctl : List ReqOutcome := []) (acc : List AccessErr := [])
  | amaxMax (ctl : List ReqOutcome := []) (acc : List AccessErr := [])
  | reducePut (ctl : List ReqOutcome := []) (acc : List AccessErr := [])
  /-- CH_REMOTE: the REDUCE on `group` has waited TIMEOUT_MS on rank `rank` (or cannot reach it) -/
  | chRemote (group rank : Nat)
  -- faults and self-test (11)
  /-- TOLLHOUSE_MESSAGE: the `k`-th message waiting at the units reaches Tollhouse -/
  | tollhouseMessage (k : Nat)
  | fcAck (slot : Nat)
  | graceTimerExpiry (slot : Nat)
  /-- LADDER_STEP_DONE: the step of the ladder that `slot` started completed (`ok`) or failed -/
  | ladderStepDone (slot : Nat) (ok : Bool)
  | recurEnd (slot : Nat)
  | errPulseEnd
  | errPinCtlWrite (v : Word)
  | fcPhaseWrite (v : Word)
  | fcReactWrite (v : Word)
  | fcLogRead
  | sliceStart (path : Nat)
  /-- SLICE_DONE: did the slice pass, can a spare row or column cover the fault, were the contents readable? -/
  | sliceDone (path : Nat) (pass repairable readable : Bool)
  | sliceBudgetExpiry (path : Nat)
  | biOverdue (path : Nat)
  | bistWindow
  | bistWindowEnd
  | biAutoOff
  -- risk, snapshots, restore (12)
  | assayerEval
  | snapshot (ctl : List ReqOutcome := []) (acc : List AccessErr := [])
  | captureStart (ctl : List ReqOutcome := []) (acc : List AccessErr := [])
  | captureEnd (ctl : List ReqOutcome := []) (acc : List AccessErr := [])
  /-- SNAPSHOT_STAGE to the buddy or to the far tier; every write of the stage came back `ok` or failed -/
  | snapshotStage (far : Bool) (res : ReqOutcome) (ctl : List ReqOutcome := []) (acc : List AccessErr := [])
  | snapshotComplete
  | snPair
  | snUnpair
  | snAutoOff
  | restore (res : ReqOutcome) (ctl : List ReqOutcome := []) (acc : List AccessErr := [])
  -- host interface and boot (13)
  /-- HDM_READ by the host: `excl` = it asks for the line in an exclusive state -/
  | hdmRead (addr : Word) (symErrs : Nat) (excl : Bool)
  | hdmWrite (addr : Word) (data : List Byte) (poison : Bool)
  | bisnpResponse (line : Nat)
  | hostSnoop (addr : Word)
  | uioRequest (addr : Word)
  /-- PERST_N low for `us` microseconds (hot and secondary bus reset: 100) -/
  | perstN (us : Nat)
  | cxlLinkDown (link : Nat)
  | cxlLinkUp (link : Nat)
  | ideFail (link : Nat)
  | aerUncorr (link : Nat)
  | boot (facts : BootFacts)
  | bootStepTimeout (step : Nat)
  | clearLevels
  | maintNext
  | svnCommit
  | revoke (v : Nat)
  | nextImage (imageB : Bool)
  | btJrnlRead
  /-- FIRMWARE_UPDATE: PLDM writes `data` at byte `off` of the image area -/
  | firmwareUpdate (off : Nat) (data : List Byte)
  | activateFirmware
  /-- SPDM_REQUEST `code`; `slot` is the certificate slot that it names -/
  | spdmRequest (via : MgmtVia) (code : Nat) (slot : Nat := 0)
  | getMeasurements (via : MgmtVia) (index : Nat) (slot : Nat := 0)
  /-- MCTP_REGISTER_ACCESS: a vendor-defined message with vendor ID `vendor`, the device's own unless another is named -/
  | mctpRegisterAccess (write : Bool) (path off : Nat) (v : Word) (via : MgmtVia := .vdm) (vendor : Nat := Config.vendorId.toNat)
  | mctpPacketRead (via : MgmtVia := .vdm)
  | pldmSensorUpdate
  -- clocks, power, thermal (14)
  | ckUnlock
  /-- PHY_PLL_UNLOCK: `kind` 0 GDDR7 channel, 1 Kyino port, 2 CXL link; its number -/
  | phyPllUnlock (kind n : Nat)
  /-- GOVERNOR_PERIOD: mean module input power of the period, W -/
  | governorPeriod (watts : Nat)
  | voltageRampDone
  | powerUp
  | powerUpComplete
  | inputUndervoltage
  | railUv (rail : Nat)
  | pwDroop (span : Nat)
  /-- SENSOR_READ: the readings in °C of sensors 0, 1, … -/
  | sensorRead (temps : List Nat)
  | thermalClear
  -- rows added at the end of the table
  | registerRead (src : Src) (path off size : Nat)
  | nmLinkRetrainDone (stack : Nat)
  | voltageLowerDone
  | hdmDecoderCommit (commit : Bool)
  deriving DecidableEq, Repr

end Sys2Proof
end

