-- ==== Sys2Proof/Decode.lean ====
section
/-!
DEFINITION. Sys2Proof/Decode.lean: what command a word spells. The opcode table gives no row any bits (the block is
commanded, it fetches nothing), so no word spells a command.
-/

namespace Sys2Proof

/-- The command that the word `w` of `nbits` bits spells by the table's bits: no row gives bits. -/
def decodeTableWord (_nbits _w : Nat) : Option Instr := none

end Sys2Proof
end

