-- ==== Sys2Proof/Machine/Tbl.lean ====
section
/-!
DEFINITION. Sys2Proof/Machine/Tbl.lean: a table of values by number, as plain data in one canonical form:
keys strictly rising, and no entry equal to what an unlisted key reads as. Every memory, register file and
per-unit store of the block is one of these.
-/

namespace Sys2Proof.Machine

/-- A table from numbers to values: the entries that differ from the table's default. -/
abbrev Tbl (α : Type) := List (Nat × α)

/-- The value at key `k`; `dflt k` where no entry is listed. -/
def Tbl.get {α : Type} (dflt : Nat → α) (t : Tbl α) (k : Nat) : α :=
  match t with
  | [] => dflt k
  | (k', v) :: rest => if k = k' then v else Tbl.get dflt rest k

/-- The table without an entry for `k`. -/
def Tbl.erase {α : Type} (t : Tbl α) (k : Nat) : Tbl α :=
  match t with
  | [] => []
  | (k', v) :: rest => if k' = k then Tbl.erase rest k else (k', v) :: Tbl.erase rest k

/-- The table with the entry `(k, v)` in its place by key. -/
def Tbl.insert {α : Type} (t : Tbl α) (k : Nat) (v : α) : Tbl α :=
  match t with
  | [] => [(k, v)]
  | (k', v') :: rest =>
    if k < k' then (k, v) :: (k', v') :: rest
    else if k = k' then (k, v) :: rest
    else (k', v') :: Tbl.insert rest k v

/-- The table after a write of `v` at `k`: the value an unlisted key reads as removes the entry. -/
def Tbl.set {α : Type} [DecidableEq α] (dflt : Nat → α) (t : Tbl α) (k : Nat) (v : α) : Tbl α :=
  if v = dflt k then t.erase k else t.insert k v

/-- The canonical form: keys strictly rising and no entry equal to the default. -/
def Tbl.wf {α : Type} [DecidableEq α] (dflt : Nat → α) : Tbl α → Bool
  | [] => true
  | (k, v) :: rest => decide (v ≠ dflt k) && rest.all (fun c => decide (k < c.1)) && Tbl.wf dflt rest

/-- Write the values of a list at consecutive keys from `k`. -/
def Tbl.setAll {α : Type} [DecidableEq α] (dflt : Nat → α) (t : Tbl α) (k : Nat) : List α → Tbl α
  | [] => t
  | v :: vs => Tbl.setAll dflt (Tbl.set dflt t k v) (k + 1) vs

/-- The `n` values from key `k` on. -/
def Tbl.getN {α : Type} (dflt : Nat → α) (t : Tbl α) (k : Nat) : Nat → List α
  | 0 => []
  | n + 1 => Tbl.get dflt t k :: Tbl.getN dflt t (k + 1) n

end Sys2Proof.Machine
end

