-- ==== Sys2Proof/Machine/Operands.lean ====
section
/-!
DEFINITION. Sys2Proof/Machine/Operands.lean: number formats, rounding and conversion (spec 03), and the operand
forms of tile instructions: the fields of every instruction of the two tile programs (spec 04 and 07) and the
packing of elements in rows.
-/

namespace Sys2Proof.Machine

/-! ### Exact values -/

/-- An exact value: a NaN, an infinity, or `(-1)^neg * num / den` with a sign kept for zero (R144, R146). -/
inductive Num where
  | nan
  | inf (neg : Bool)
  | fin (neg : Bool) (num den : Nat)
  deriving DecidableEq, Repr

/-- `2^e` as a fraction. -/
def pow2Num (e : Int) : Nat := if e ≥ 0 then 2 ^ e.toNat else 1
def pow2Den (e : Int) : Nat := if e ≥ 0 then 1 else 2 ^ (-e).toNat

/-- The exact value `(-1)^neg * m * 2^e`. -/
def Num.dyadic (neg : Bool) (m : Nat) (e : Int) : Num := .fin neg (m * pow2Num e) (pow2Den e)

def Num.zero : Num := .fin false 0 1

def Num.ofInt (i : Int) : Num := .fin (decide (i < 0)) i.natAbs 1

def Num.isZero : Num → Bool
  | .fin _ n _ => n == 0
  | _ => false

def Num.isFinite : Num → Bool
  | .fin _ _ _ => true
  | _ => false

def Num.isInf : Num → Bool
  | .inf _ => true
  | _ => false

def Num.isNeg : Num → Bool
  | .nan => false
  | .inf s => s
  | .fin s _ _ => s

def Num.negate : Num → Num
  | .nan => .nan
  | .inf s => .inf (!s)
  | .fin s n d => .fin (!s) n d

def Num.abs : Num → Num
  | .nan => .nan
  | .inf _ => .inf false
  | .fin _ n d => .fin false n d

/-- The exact product (R286: an Inf times zero is NaN). -/
def Num.mul : Num → Num → Num
  | .nan, _ => .nan
  | _, .nan => .nan
  | .inf s, y => if y.isZero then .nan else .inf (s != y.isNeg)
  | x, .inf t => if x.isZero then .nan else .inf (x.isNeg != t)
  | .fin s n d, .fin t m e => .fin (s != t) (n * m) (d * e)

/-- The exact sum; Infs of both signs give NaN (R287); a zero sum of values of both signs is +0. -/
def Num.add : Num → Num → Num
  | .nan, _ => .nan
  | _, .nan => .nan
  | .inf s, .inf t => if s = t then .inf s else .nan
  | .inf s, _ => .inf s
  | _, .inf t => .inf t
  | .fin s n d, .fin t m e =>
    if s = t then .fin s (n * e + m * d) (d * e)
    else if n * e = m * d then .fin false 0 1
    else if n * e > m * d then .fin s (n * e - m * d) (d * e)
    else .fin t (m * d - n * e) (d * e)

/-- The exact quotient (IEEE 754 at zero and infinity). -/
def Num.div : Num → Num → Num
  | .nan, _ => .nan
  | _, .nan => .nan
  | .inf _, .inf _ => .nan
  | .inf s, y => .inf (s != y.isNeg)
  | .fin s _ _, .inf t => .fin (s != t) 0 1
  | .fin s n d, .fin t m e =>
    if m = 0 then (if n = 0 then .nan else .inf (s != t)) else .fin (s != t) (n * e) (d * m)

/-- Numeric order of two values that are not NaN: is `x < y`? -/
def Num.lt (x y : Num) : Bool :=
  match x, y with
  | .nan, _ => false
  | _, .nan => false
  | .inf s, .inf t => s && !t
  | .inf s, _ => s
  | _, .inf t => !t
  | .fin s n d, .fin t m e =>
    let a : Int := n * e
    let b : Int := m * d
    decide ((if s then -a else a) < (if t then -b else b))

/-- floor(log2(n / d)) for a non-zero fraction. -/
def floorLog2 (n d : Nat) : Int :=
  let e0 : Int := (Nat.log2 n : Int) - (Nat.log2 d : Int)
  if n * pow2Den e0 ≥ d * pow2Num e0 then e0 else e0 - 1

/-- The integer square root, by bits from the top. -/
def isqrtGo (n : Nat) : Nat → Nat → Nat
  | 0, r => r
  | k + 1, r => if (r + 2 ^ k) * (r + 2 ^ k) ≤ n then isqrtGo n k (r + 2 ^ k) else isqrtGo n k r
def isqrt (n : Nat) : Nat := isqrtGo n (Nat.log2 n / 2 + 1) 0

/-- A fraction that rounds to FP32 as the exact square root does: 64 fraction bits beyond the top and a sticky
bit below them (R552, R563: SQRT is correctly rounded; SQRT of a negative value is NaN, of -0 is -0). -/
def Num.sqrt : Num → Num
  | .nan => .nan
  | .inf s => if s then .nan else .inf false
  | .fin s n d =>
    if n = 0 then .fin s 0 1
    else if s then .nan
    else
      let k := 64 + Nat.log2 d
      let r := isqrt (n * 2 ^ (2 * k) / d)
      if r * r * d = n * 2 ^ (2 * k) then .fin false r (2 ^ k) else .fin false (2 * r + 1) (2 ^ (k + 1))

/-! ### Rounding (R160 to R172) -/

/-- The rounding modes of R161: 0 RNE, 1 SR, 2 RZ. The magnitude `n / d` over the quantum `2^q`, rounded to a
whole number of quanta with the 16-bit draw `u`, and whether it was exact. -/
def roundQuanta (mode u n d : Nat) (q : Int) : Nat × Bool :=
  let num := n * pow2Den q
  let den := d * pow2Num q
  let k := num / den
  let rem := num % den
  if rem = 0 then (k, true)
  else if mode = 2 then (k, false)
  else if mode = 1 then (if u < 65536 * rem / den then k + 1 else k, false)
  else if 2 * rem < den then (k, false)
  else if 2 * rem > den then (k + 1, false)
  else (if k % 2 = 0 then k else k + 1, false)

/-- What a format encodes beside finite values (R142). -/
inductive Specials where
  | ieee   -- exponent all ones: Inf and NaN
  | e4m3   -- only exponent and mantissa all ones: NaN
  | none
  deriving DecidableEq, Repr

/-- A floating-point format: exponent and mantissa bits, bias, special codes (R142). -/
structure FFmt where
  eb : Nat
  mb : Nat
  bias : Nat
  sp : Specials
  deriving DecidableEq, Repr

def fmtE4M3 : FFmt := ⟨4, 3, 7, .e4m3⟩
def fmtE5M2 : FFmt := ⟨5, 2, 15, .ieee⟩
def fmtFP16 : FFmt := ⟨5, 10, 15, .ieee⟩
def fmtBF16 : FFmt := ⟨8, 7, 127, .ieee⟩
def fmtFP32 : FFmt := ⟨8, 23, 127, .ieee⟩
def fmtE3M2 : FFmt := ⟨3, 2, 3, .none⟩
def fmtE2M3 : FFmt := ⟨2, 3, 1, .none⟩
def fmtE2M1 : FFmt := ⟨2, 1, 1, .none⟩

/-- Bits of a code without its sign. -/
def FFmt.magBits (f : FFmt) : Nat := f.eb + f.mb

/-- The code of the largest finite value (R142). -/
def FFmt.maxCode (f : FFmt) : Nat :=
  match f.sp with
  | .ieee => (2 ^ f.eb - 1) * 2 ^ f.mb - 1
  | .e4m3 => 2 ^ f.magBits - 2
  | .none => 2 ^ f.magBits - 1

/-- The code of +Inf, where the format has one. -/
def FFmt.infCode (f : FFmt) : Nat := (2 ^ f.eb - 1) * 2 ^ f.mb

/-- The canonical NaN (R143). -/
def FFmt.nanCode (f : FFmt) : Nat :=
  match f.sp with
  | .ieee => f.infCode + 2 ^ (f.mb - 1)
  | .e4m3 => 2 ^ f.magBits - 1
  | .none => 0

/-- The value of a code (R142). -/
def FFmt.decode (f : FFmt) (code : Nat) : Num :=
  let neg := bitAt code f.magBits
  let mag := code % 2 ^ f.magBits
  let e := mag / 2 ^ f.mb
  let m := mag % 2 ^ f.mb
  if mag > f.maxCode then (if f.sp = .ieee ∧ m = 0 then .inf neg else .nan)
  else if e = 0 then .dyadic neg m (1 - (f.bias : Int) - f.mb)
  else .dyadic neg (2 ^ f.mb + m) ((e : Int) - f.bias - f.mb)

/-- The outcome of one conversion: the code, and whether the element overflowed or underflowed (R173, R180). -/
structure Conv where
  code : Nat
  ovf : Bool
  unf : Bool
  deriving DecidableEq, Repr

/-- The code of a magnitude of `k` quanta of the exponent range that begins at quantum `q` (R164, R165: the
destination's values extended without limit to larger exponents). -/
def FFmt.codeOf (f : FFmt) (k : Nat) (q : Int) : Nat :=
  (q - (1 - (f.bias : Int) - f.mb)).toNat * 2 ^ f.mb + k

/-- The quantum that a magnitude `n / d` rounds to (R164, R165). -/
def FFmt.quantum (f : FFmt) (n d : Nat) : Int :=
  max (floorLog2 n d) (1 - (f.bias : Int)) - f.mb

/-- Conversion into a floating-point format (R160 to R182): `satmode` true is SAT. -/
def FFmt.conv (f : FFmt) (satmode : Bool) (mode u : Nat) (x : Num) : Conv :=
  let sgn (b : Bool) : Nat := if b then 2 ^ f.magBits else 0
  match x with
  | .nan => ⟨f.nanCode, false, false⟩
  | .inf s =>
    if satmode ∨ f.sp = .none then ⟨sgn s + f.maxCode, true, false⟩
    else if f.sp = .e4m3 then ⟨f.nanCode, true, false⟩
    else ⟨sgn s + f.infCode, false, false⟩
  | .fin s n d =>
    if n = 0 then ⟨sgn s, false, false⟩
    else
      let q := f.quantum n d
      let r := roundQuanta mode u n d q
      let code := f.codeOf r.1 q
      if code > f.maxCode then
        if satmode ∨ f.sp = .none then ⟨sgn s + f.maxCode, true, false⟩
        else if f.sp = .e4m3 then ⟨f.nanCode, true, false⟩
        else ⟨sgn s + f.infCode, true, false⟩
      else ⟨sgn s + code, false, !r.2 && decide (floorLog2 n d < 1 - (f.bias : Int))⟩

/-- Conversion into a two's-complement integer of `w` bits (R166, R176, R181). -/
def convInt (w mode u : Nat) (x : Num) : Conv :=
  let hi : Nat := 2 ^ (w - 1) - 1
  match x with
  | .nan => ⟨0, false, false⟩
  | .inf s => ⟨if s then 2 ^ (w - 1) else hi, true, false⟩
  | .fin s n d =>
    let k := (roundQuanta mode u n d 0).1
    if s then (if k > 2 ^ (w - 1) then ⟨2 ^ (w - 1), true, false⟩ else ⟨(2 ^ w - k) % 2 ^ w, false, false⟩)
    else (if k > hi then ⟨hi, true, false⟩ else ⟨k, false, false⟩)

/-! ### Format codes (R140) -/

/-- Bits per element of a format code. -/
def fmtWidth (c : Nat) : Nat :=
  match c with
  | 0 => 8 | 1 => 8 | 2 => 16 | 3 => 16 | 4 => 32 | 5 => 8 | 6 => 4 | 7 => 8 | 8 => 8 | 9 => 6 | 10 => 6
  | 11 => 4 | 12 => 32
  | _ => 8

/-- The floating-point format of the elements of a format code; `none` for the integer codes. -/
def fmtFloat (c : Nat) : Option FFmt :=
  match c with
  | 0 => some fmtE4M3 | 1 => some fmtE5M2 | 2 => some fmtBF16 | 3 => some fmtFP16 | 4 => some fmtFP32
  | 7 => some fmtE4M3 | 8 => some fmtE5M2 | 9 => some fmtE3M2 | 10 => some fmtE2M3 | 11 => some fmtE2M1
  | _ => none

def fmtIsMx (c : Nat) : Bool := 7 ≤ c && c ≤ 11
def fmtIsInt (c : Nat) : Bool := c == 5 || c == 6 || c == 12
def fmtIsReserved (c : Nat) : Bool := c > 12
/-- 16-bit operand formats, BF16 and FP16, whose panel is 64 elements and whose partial is P40 (R247, R157). -/
def fmtIs16 (c : Nat) : Bool := c == 2 || c == 3
/-- A DRAIN output format (R140). -/
def fmtIsDrainOut (c : Nat) : Bool := c ≤ 5 || c == 12
/-- The 8-bit float class of R157. -/
def fmtIs8Float (c : Nat) : Bool := c == 0 || c == 1 || fmtIsMx c

/-- The operand pairs of R157. -/
def fmtPairOk (a b : Nat) : Bool :=
  (fmtIs8Float a && fmtIs8Float b) || ((a == 5 || a == 6) && (b == 5 || b == 6)) || (a == 2 && b == 2) || (a == 3 && b == 3)

/-- Elements of a format per 512 B row (R148, R152). -/
def elemsPerRow (c : Nat) : Nat :=
  match fmtWidth c with
  | 8 => 512 | 16 => 256 | 32 => 128 | 4 => 1024 | _ => 672

/-- The two's-complement value of the low `w` bits of `code`. -/
def signed (w code : Nat) : Int :=
  let c := code % 2 ^ w
  if c < 2 ^ (w - 1) then c else (c : Int) - 2 ^ w

/-- The exact value of an element code of a format; the expansions R154 to R156 lose nothing, so the value is
that of the narrow code. -/
def decodeElem (c code : Nat) : Num :=
  match fmtFloat c with
  | some f => f.decode code
  | none => .ofInt (signed (fmtWidth c) code)

/-- Conversion of a value into a storage or output format (R160 to R182; MX elements saturate, R177). -/
def convTo (c : Nat) (satmode : Bool) (mode u : Nat) (x : Num) : Conv :=
  match fmtFloat c with
  | some f => f.conv (satmode || fmtIsMx c) mode u x
  | none => convInt (fmtWidth c) mode u x

/-- The raw code of the most negative finite value of a format (APADSEL, BPADSEL, PADSEL = 1). -/
def mostNegative (c : Nat) : Nat :=
  match fmtFloat c with
  | some f => 2 ^ f.magBits + f.maxCode
  | none => 2 ^ (fmtWidth c - 1)

/-- A number read from bytes, least significant first (R148). -/
def natOfBytes : List Byte → Nat
  | [] => 0
  | b :: bs => b.toNat + 256 * natOfBytes bs

/-- The `n` bytes of a number, least significant first. -/
def bytesOfNat : Nat → Nat → List Byte
  | 0, _ => []
  | n + 1, v => BitVec.ofNat 8 v :: bytesOfNat n (v / 256)

/-- Bits of the first element bit of stream element `i` within a row, for a format of the given width: R148, and
R149 for 6-bit elements, whose groups of four fill 3 bytes. -/
def elemBit (w i : Nat) : Nat := if w = 6 then i / 4 * 24 + i % 4 * 6 else w * i

/-- Element `i` (within one row) of a row read as a number. -/
def elemOf (c rowNat i : Nat) : Nat := bitsOf rowNat (elemBit (fmtWidth c) i) (fmtWidth c)

/-- The codes of consecutive elements packed into bytes from element 0 on (R148, R149). -/
def packNat (w : Nat) : Nat → List Nat → Nat
  | _, [] => 0
  | i, e :: es => (e % 2 ^ w) * 2 ^ elemBit w i + packNat w (i + 1) es

/-- FP32 shorthand: the value of a code, and rounding to nearest even under a saturation mode. -/
def fp32 (w : Nat) : Num := fmtFP32.decode w
def toFp32 (satmode : Bool) (x : Num) : Conv := fmtFP32.conv satmode 0 0 x

/-! ### MX scales (R187 to R199) -/

/-- `2^(code - 127)`, or NaN for 0xFF (R147, R194). -/
def e8m0 (code : Nat) : Num := if code = 255 then .nan else .dyadic false 1 ((code : Int) - 127)

/-- emax of R196. -/
def mxEmax (c : Nat) : Nat :=
  match c with
  | 7 => 8 | 8 => 15 | 9 => 4 | _ => 2

/-- The largest finite magnitude of a block, as a fraction; 0 where there is none. -/
def maxMag : List Num → Num
  | [] => .zero
  | x :: xs => let m := maxMag xs; if x.isFinite && Num.lt m x.abs then x.abs else m

/-- The scale code that packing a block into MX format `c` sets (R196 to R198). -/
def mxScaleCode (c : Nat) (xs : List Num) : Nat :=
  if xs.any (fun x => !x.isFinite) then 255
  else
    match maxMag xs with
    | .fin _ n d => if n = 0 then 0 else (min 254 (max 0 (floorLog2 n d - mxEmax c + 127))).toNat
    | _ => 0

/-! ### The generator (R556 to R559) -/

/-- Ten rounds of Philox4x32 over counter words c0..c3 and key words k0, k1. -/
def philoxGo : Nat → Nat → Nat → Nat → Nat → Nat → Nat → Nat × Nat × Nat × Nat
  | 0, c0, c1, c2, c3, _, _ => (c0, c1, c2, c3)
  | n + 1, c0, c1, c2, c3, k0, k1 =>
    let p0 := 0xD2511F53 * c0
    let p1 := 0xCD9E8D57 * c2
    philoxGo n (Nat.xor (Nat.xor (p1 / 2 ^ 32) c1) k0) (p1 % 2 ^ 32) (Nat.xor (Nat.xor (p0 / 2 ^ 32) c3) k1)
      (p0 % 2 ^ 32) ((k0 + 0x9E3779B9) % 2 ^ 32) ((k1 + 0xBB67AE85) % 2 ^ 32)

/-- Draw `d` of the generator with a seed and a stream (R557). -/
def philoxDraw (seed stream d : Nat) : Nat :=
  let d := d % 2 ^ 64
  let b := d / 4
  let r := philoxGo 10 (b % 2 ^ 32) (b / 2 ^ 32 % 2 ^ 32) (stream % 2 ^ 32) (stream / 2 ^ 32 % 2 ^ 32)
    (seed % 2 ^ 32) (seed / 2 ^ 32 % 2 ^ 32)
  match d % 4 with
  | 0 => r.1
  | 1 => r.2.1
  | 2 => r.2.2.1
  | _ => r.2.2.2

/-- The 16-bit value that stochastic rounding takes from a draw (R559). -/
def drawU (w : Nat) : Nat := bitsOf w 16 16

/-! ### Fields of tile instructions (R252 to R263, R541 to R543) -/

/-- A field of an instruction. -/
def ifld (i : W128) (lo w : Nat) : Nat := bitsOf i.toNat lo w

def opcodeOf (i : W128) : Nat := ifld i 0 5
def gKind (i : W128) : Nat := ifld i 5 2
def gIdx (i : W128) : Nat := ifld i 7 10
def gVal (i : W128) : Nat := ifld i 17 16

/-- R254: is a guard met when the tested counter reads `c`? -/
def guardMet (c gval : Nat) : Bool := (c + 2 ^ 16 - gval % 2 ^ 16) % 2 ^ 16 < 2 ^ 15

/-- A 19-bit span row address: (BASE + OFF) modulo 2^19 (R245). -/
def effAddr (base off : Nat) : Nat := (base + off) % 2 ^ 19

/-- The tile (0 to 31) and the row of a span row address. -/
def tileOfRow (a : Nat) : Nat := a / 2 ^ 14 % 32
def rowInTile (a : Nat) : Nat := a % 2 ^ 14

/-- MMA fields. -/
def mmaM (i : W128) : Nat := ifld i 33 11 + 1
def mmaN (i : W128) : Nat := ifld i 44 7 + 1
def mmaK (i : W128) : Nat := ifld i 51 16 + 1
def mmaABase (i : W128) : Nat := ifld i 67 2
def mmaAOff (i : W128) : Nat := ifld i 69 19
def mmaBBase (i : W128) : Nat := ifld i 88 2
def mmaBOff (i : W128) : Nat := ifld i 90 19
def mmaRes (i : W128) : Bool := bitAt i.toNat 109
def mmaBank (i : W128) : Bool := bitAt i.toNat 110
def mmaAccIn (i : W128) : Bool := bitAt i.toNat 111
def mmaHold (i : W128) : Bool := bitAt i.toNat 112

/-- MCFG fields, read from the tile configuration. -/
def cfgFmtA (i : W128) : Nat := ifld i 5 4
def cfgFmtB (i : W128) : Nat := ifld i 9 4
def cfgPic (i : W128) : Nat := ifld i 13 2
def cfgAPadSel (i : W128) : Nat := ifld i 15 2
def cfgAPadV (i : W128) : Nat := ifld i 17 8
def cfgBPadSel (i : W128) : Nat := ifld i 25 2
def cfgBPadV (i : W128) : Nat := ifld i 27 8
def cfgAEnt (i : W128) : Nat := ifld i 35 12
def cfgBEnt (i : W128) : Nat := ifld i 47 12
def cfgASBase (i : W128) : Nat := ifld i 59 2
def cfgASOff (i : W128) : Nat := ifld i 61 19
def cfgBSBase (i : W128) : Nat := ifld i 80 2
def cfgBSOff (i : W128) : Nat := ifld i 82 19

/-- The promotion interval (MCFG.PIC; R257 for integer-class pairs). -/
def promotionInterval (cfg : W128) : Nat :=
  if fmtIsInt (cfgFmtA cfg) then 16
  else match cfgPic cfg with
    | 0 => 16 | 1 => 4 | 2 => 8 | _ => 32

/-- The panel width P (R247). -/
def panelWidth (fmt : Nat) : Nat := if fmtIs16 fmt then 64 else 128

/-- DRAIN fields. -/
def drSrc (i : W128) : Bool := bitAt i.toNat 33
def drBank (i : W128) : Bool := bitAt i.toNat 34
def drDBase (i : W128) : Nat := ifld i 35 2
def drDOff (i : W128) : Nat := ifld i 37 19
def drDKind (i : W128) : Bool := bitAt i.toNat 56
def drSplit64 (i : W128) : Bool := bitAt i.toNat 57
def drYEnt (i : W128) : Nat := ifld i 58 12
def drFmtO (i : W128) : Nat := ifld i 70 4
def drRnd (i : W128) : Nat := ifld i 74 2
def drPadSel (i : W128) : Nat := ifld i 76 2
def drPadV (i : W128) : Nat := ifld i 78 8

/-- LDW fields. -/
def ldwBBase (i : W128) : Nat := ifld i 33 2
def ldwBOff (i : W128) : Nat := ifld i 35 19
def ldwN (i : W128) : Nat := ifld i 54 7 + 1

/-- LDA fields. -/
def ldaTgt (i : W128) : Bool := bitAt i.toNat 33
def ldaBank (i : W128) : Bool := bitAt i.toNat 34
def ldaM (i : W128) : Nat := ifld i 35 11 + 1
def ldaN (i : W128) : Nat := ifld i 46 7 + 1
def ldaClass (i : W128) : Bool := bitAt i.toNat 53
def ldaSBase (i : W128) : Nat := ifld i 54 2
def ldaSOff (i : W128) : Nat := ifld i 56 19

/-- SETB and LOOP fields. -/
def setbSel (i : W128) : Nat := ifld i 5 2
def setbAdd (i : W128) : Bool := bitAt i.toNat 7
def setbValue (i : W128) : Nat := ifld i 8 19
def loopCount (i : W128) : Nat := ifld i 5 16 + 1

/-- SFOP fields (R542). -/
def sfFunc (i : W128) : Nat := ifld i 33 6
def sfIn0 (i : W128) : Nat := ifld i 39 3
def sfIn1 (i : W128) : Nat := ifld i 42 3
def sfOut (i : W128) : Nat := ifld i 45 2
def sfFmtI (i : W128) : Nat := ifld i 47 4
def sfFmtO (i : W128) : Nat := ifld i 51 4
def sfRnd (i : W128) : Nat := ifld i 55 2
def sfNv (i : W128) : Nat := ifld i 57 16 + 1
def sfEnt (i : W128) : Nat := ifld i 73 12
def sfImm (i : W128) : Nat := ifld i 85 32

/-- SFCFG fields (R543). -/
def sfcfgPreg (i : W128) : Nat := ifld i 5 5
def sfcfgValue (i : W128) : Nat := ifld i 85 32

/-- The rounding mode of a rounding field (R161: 3 is the unit's default NUMCTL.RMODE). -/
def rndMode (fld rmode : Nat) : Nat := if fld = 3 then rmode else fld

/-- The pad code of a PADSEL field: 0 zero, 1 the most negative finite value, 2 the raw code; 3, which R267 refuses, acts as 2
(DESIGN CHOICE, log entry 13). -/
def padCode (sel raw fmt : Nat) : Nat :=
  if sel = 0 then 0 else if sel = 1 then mostNegative fmt else raw % 2 ^ fmtWidth fmt

end Sys2Proof.Machine
end

