-- ==== Sys2Proof/Machine/Funcs.lean ====
section
/-!
DEFINITION. Sys2Proof/Machine/Funcs.lean: the exact values of the special functions 0x10 to 0x19 of R552, as fractions that lie
far closer to them than any error limit reaches, and the FP32 results that the limits allow (log entries 20, 95).
-/

namespace Sys2Proof.Machine

/-! ### Fixed point -/

/-- Fraction bits of the fixed-point values in which series are summed. -/
def fxBits : Nat := 480

def fxOne : Int := 2 ^ fxBits

def fxMul (a b : Int) : Int := a * b / fxOne

/-- A finite value in fixed point, its magnitude cut at 1,024: beyond it every function here is constant, or lies outside
FP32. -/
def fxOf (x : Num) : Int :=
  match x with
  | .fin s n d => let v : Int := if n ≥ 1024 * d then 1024 * fxOne else n * fxOne / d
    if s then -v else v
  | _ => 0

/-- A fixed-point value as a fraction. -/
def Num.ofFx (v : Int) : Num := .fin (decide (v < 0)) v.natAbs (2 ^ fxBits)

/-- The series of the exponential: from its k-th term `t` on. -/
def expSeries (x : Int) : Nat → Nat → Int → Int
  | 0, _, _ => 0
  | fuel + 1, k, t => t + expSeries x fuel (k + 1) (fxMul t x / (k + 1))

/-- The series z + z^3/3 + z^5/5 and so on, with alternating signs if `alt`: atanh or atan. -/
def oddSeries (alt : Bool) (z2 : Int) : Nat → Nat → Int → Int
  | 0, _, _ => 0
  | fuel + 1, k, p => p / (2 * k + 1) + oddSeries alt z2 fuel (k + 1) (if alt then -fxMul p z2 else fxMul p z2)

/-- The series of the error function without its factor 2/√π. -/
def erfSeries (x2 : Int) : Nat → Nat → Int → Int
  | 0, _, _ => 0
  | fuel + 1, k, t => t / (2 * k + 1) + erfSeries x2 fuel (k + 1) (-(fxMul t x2) / (k + 1))

def fxAtanh (z : Int) : Int := oddSeries false (fxMul z z) 170 0 z
def fxAtan (z : Int) : Int := oddSeries true (fxMul z z) 170 0 z
def fxLn2 : Int := 2 * fxAtanh (fxOne / 3)
def fxPi : Int := 16 * fxAtan (fxOne / 5) - 4 * fxAtan (fxOne / 239)

/-! ### The functions -/

/-- e^x of a fixed-point value. -/
def numExp (x : Int) : Num :=
  let ln2 := fxLn2
  let k := (x + ln2 / 2) / ln2
  let e := expSeries (x - k * ln2) 110 0 fxOne
  .fin false (e.toNat * pow2Num k) (2 ^ fxBits * pow2Den k)

/-- 2^x: exact for an integer. -/
def numExp2 (x : Num) : Num :=
  let v := fxOf x
  if v % fxOne = 0 then .dyadic false 1 (v / fxOne) else numExp (fxMul v fxLn2)

/-- ln of a positive value. -/
def numLog (x : Num) : Num :=
  match x with
  | .fin _ n d =>
    let e := floorLog2 n d
    let a : Int := n * pow2Den e
    let b : Int := d * pow2Num e
    Num.ofFx (e * fxLn2 + 2 * fxAtanh ((a - b) * fxOne / (a + b)))
  | y => y

def numOne : Num := .fin false 1 1

/-- 1 / (1 + e^-x), tanh x and erf x of a fixed-point value. -/
def numSigmoid (x : Int) : Num := let e := numExp x; Num.div e (Num.add numOne e)
def numTanh (x : Int) : Num := let e := numExp (2 * x); Num.div (Num.add e (.fin true 1 1)) (Num.add e numOne)
def numErf (x : Int) : Num :=
  if x.natAbs ≥ 6 * 2 ^ fxBits then .fin (decide (x < 0)) (2 ^ 55 - 1) (2 ^ 55)
  else
    let s := 2 * erfSeries (fxMul x x) 360 0 x
    Num.div (Num.ofFx s) (.fin false (isqrt (fxPi.toNat * 2 ^ fxBits)) (2 ^ fxBits))

/-- The value of a function 0x10 to 0x19 at a finite input that is none of its special ones (R552). -/
def sfTrue (fn : Nat) (x : Num) : Num :=
  let v := fxOf x
  match fn with
  | 0x10 => numExp v
  | 0x11 => numExp2 x
  | 0x12 => numLog x
  | 0x13 => Num.div numOne x
  | 0x14 => Num.div numOne x.sqrt
  | 0x15 => numTanh v
  | 0x16 => numSigmoid v
  | 0x17 => numErf v
  | 0x18 =>
    let cube := Num.mul x (Num.mul x x)
    let y := Num.mul (.fin false 7978845608 10000000000) (Num.add x (Num.mul (.fin false 44715 1000000) cube))
    Num.mul x (numSigmoid (fxOf (Num.add y y)))
  | _ => Num.mul x (numSigmoid v)

/-- The error limit of a function in ulp (R552). -/
def sfUlps (fn : Nat) : Nat := match fn with
  | 0x11 => 1
  | 0x13 => 1
  | 0x10 => 2
  | 0x12 => 2
  | 0x14 => 2
  | 0x15 => 3
  | 0x16 => 3
  | 0x17 => 3
  | _ => 4

/-- Does `|x - y| ≤ k · 2^q` hold? -/
def numNear (x y : Num) (k : Nat) (q : Int) : Bool :=
  match Num.add x y.negate with
  | .fin _ n d => decide (n * pow2Den q ≤ k * pow2Num q * d)
  | _ => false

/-- The finite FP32 codes within the error limit of a value, of which `code` is the one that rounds it. -/
def sfWithin (fn : Nat) (v : Num) (code : Nat) : List Nat :=
  let k := sfUlps fn
  let neg := decide (2 ^ 31 ≤ code)
  let at_ : Int := if neg then -((code % 2 ^ 31 : Nat) : Int) else code
  let codeAt (i : Int) : Nat := if i < 0 ∨ (i = 0 ∧ neg) then 2 ^ 31 + i.natAbs else i.natAbs
  let q := match v with
    | .fin _ n d => if n = 0 then -149 else fmtFP32.quantum n d
    | _ => 0
  ((List.range (2 * k + 3)).map (fun j => codeAt (at_ + (j : Int) - (k + 1)))).filter (fun c =>
    decide (c % 2 ^ 31 ≤ fmtFP32.maxCode) && numNear (fp32 c) v k q)

/-- The result at an operand whose value is `v` and rounds to `code`: some code within the limit, which the spec leaves open
(Config.sfError; log entry 20). -/
def sfResult (fn a : Nat) (v : Num) (code : Nat) : Nat :=
  let cs := sfWithin fn v code
  cs.getD ((Config.sfError fn (BitVec.ofNat 32 a)) % cs.length) code

/-- Is the value of a function a fraction that the series do not approximate: RECIP, and EXP2 of an integer? The others take
no value of FP32 below the smallest normal. -/
def sfExact (fn : Nat) (x : Num) : Bool := fn == 0x13 || (fn == 0x11 && fxOf x % fxOne == 0)

/-- Does the value lie below the smallest normal of FP32 (R180)? -/
def numTiny (v : Num) : Bool := match v with
  | .fin _ n d => n != 0 && decide (n * 2 ^ 126 < d)
  | _ => false

end Sys2Proof.Machine
end

