-- ==== Sys2Proof/Machine/State.lean ====
section
/-!
DEFINITION. Sys2Proof/Machine/State.lean: everything the spec gives the block to hold, as plain data, and the
block right after power-on. Registers stand field by field in `Dev.regs`; what no register shows (memories,
queues, work in execution) stands in the other fields. INVENTORY.md lists every piece with its rule.
-/

namespace Sys2Proof.Machine

/-! ### Messages, the log and ladders (11) -/

/-- A Tollhouse message (R827). -/
structure Msg where
  path : Nat
  kind : Nat
  cls : Nat
  addr : Nat
  time : Nat
  aux : Nat
  /-- the first-trap slot that waits for this message's log slot (R709) -/
  first : Option Nat := none
  deriving DecidableEq, Repr

/-- A slot of the fault log: its message and status word (R838 to R845, FC_LOG_DATA2). -/
structure LogSlot where
  msg : Msg := ⟨0, 0, 0, 0, 0, 0, none⟩
  /-- 0 FREE, 1 HELD, 2 ACKED -/
  state : Nat := 0
  step : Nat := 0
  failed : Bool := false
  late : Bool := false
  joined : Bool := false
  direct : Bool := false
  resolved : Nat := 0
  /-- its grace timer has expired: an acknowledgement is late (R857) -/
  expired : Bool := false
  deriving DecidableEq, Repr

/-- A grace timer of a logged message: its slot, the end of its half-open window (R855), and the ladder actions that its
entry held when the message arrived (R849). -/
structure Grace where
  slot : Nat
  expiry : Nat
  acts : List Nat
  deriving DecidableEq, Repr

/-- A ladder in progress or waiting under R860: the slot that started it (none in the log: all ones), its step from 1 and
its actions. `waiting` none: the step runs (or waits its turn, R864);
some t: the recurrence interval ends at t. A direct BLOCK_RESET of R873 is a ladder with `direct` set. -/
structure Ladder where
  kind : Nat
  path : Nat
  slot : Nat
  step : Nat
  acts : List Nat
  waiting : Option Nat := none
  /-- the slot that started the ladder has been acknowledged (R862) -/
  acked : Bool := false
  direct : Bool := false
  /-- the step's work has begun (R864), and when -/
  begun : Bool := false
  since : Nat := 0
  deriving DecidableEq, Repr

/-! ### Docket rings (02) -/

/-- Where a fetched docket stands: fetched, begun (in execution), or ended with a status and DETAIL. -/
inductive DkStage where
  | fetched
  | begun
  | ended (status detail : Nat)
  deriving DecidableEq, Repr

/-- A docket copied at its fetch (R109): its index on the ring counted from 0, its 64 bytes, the tails that all
rings had when it was announced (R111), its stage, and has it begun (R1095). -/
structure Docket where
  n : Nat
  bytes : List Byte
  /-- a docket whose fetch failed carries no bytes of its own: the SEQ its record names -/
  seqOf : Option Nat := none
  snap : List Nat
  stage : DkStage
  began : Bool := false
  /-- the group sums of VALID and ATTEMPTED that a counted REDUCE writes when it completes (R716, R1095) -/
  total : Option (Nat × Nat) := none
  deriving DecidableEq, Repr

/-- A ring: how many dockets have been announced and fetched and how many records written since reset (the
registers show these counts modulo 2^32), each accepted doorbell with the tails at its arrival, the dockets
fetched and not yet recorded in ring order, and the records since the vector was last raised (R122). -/
structure Ring where
  tailN : Nat := 0
  headN : Nat := 0
  recN : Nat := 0
  anns : List (Nat × List Nat) := []
  q : List Docket := []
  coal : Nat := 0
  /-- DISCARDED records are still to be written, after which the ring is STOPPED (R129) -/
  stopping : Bool := false
  deriving DecidableEq, Repr

/-- A phase of KILL that is in progress (R487). -/
structure KillSt where
  ring : Nat
  n : Nat
  phase : Nat
  /-- in phase 2 (R374, R389): the phase of the network, as TR_STAT numbers them; 0: not yet sealed -/
  net : Nat := 0
  /-- the CCLK count at which its quiesce began (R376) -/
  quiesceAt : Nat := 0
  deriving DecidableEq, Repr

/-! ### Matrix engines and SF tiles (04, 07) -/

/-- A tile of 32-bit accumulators: AM bank, cell registers or shadow registers, with the shape and class
recorded with it (R262, R292); word (row, column) is entry 128 × row + column. -/
structure Bank where
  m : Nat := 0
  n : Nat := 0
  isInt : Bool := false
  /-- the amax entries a and b of the MMA that filled it (R211) -/
  aEnt : Nat := 0
  bEnt : Nat := 0
  words : Tbl W32 := []
  deriving DecidableEq, Repr

/-- The docket that a unit serves: ring, index on the ring, SEQ and micro-batch (R237). -/
structure Part where
  ring : Nat
  n : Nat
  seq : Nat
  mb : Nat
  deriving DecidableEq, Repr

/-- The NUMCTL values with which an instruction begins (R186). -/
structure NumCtl where
  rmode : Nat
  sat : Bool
  nanCont : Bool
  trapInf : Bool
  deriving DecidableEq, Repr

/-- Generator state as an instruction finds it (R238, R557). -/
structure Gen where
  seed : Nat := 0
  stream : Nat := 0
  pos : Nat := 0
  deriving DecidableEq, Repr

/-- A region that an instruction reads: its in-port, span row address and rows. -/
structure Region where
  port : Nat
  base : Nat
  rows : Nat
  deriving DecidableEq, Repr

/-- One operand of an MMA: where its elements and scales lie and what pads it. -/
structure Operand where
  port : Nat
  fmt : Nat
  base : Nat
  /-- its scales: their in-port and first row -/
  sport : Nat
  sbase : Nat
  /-- M of operand A or N of operand B -/
  cnt : Nat
  k : Nat
  p : Nat
  pad : Nat
  /-- the block that an LDW loaded stands in for the first panel (R260) -/
  block : Option (List Byte)
  deriving DecidableEq, Repr

/-- A row that an instruction reads: its in-port and span row address. -/
structure RowKey where
  port : Nat
  row : Nat
  deriving DecidableEq, Repr

/-- The rows of an instruction: those that it reads, those still to be requested (R347), and what has come. -/
structure Fetch where
  rows : List RowKey := []
  want : List RowKey := []
  got : List (RowKey × List Byte) := []
  deriving DecidableEq, Repr

/-- An MMA, LDW or LDA that has issued and still reads rows (R269): its instruction and index, the values with which it
began, its operands (operand A of an LDW or LDA: the region it loads), and the bits in error of the AM or weight-buffer word
that it meets. -/
structure EngOp where
  instr : W128
  pc : Nat
  cfg : W128
  ctl : NumCtl
  a : Operand
  b : Operand
  bits : Nat
  part : Option Part
  fetch : Fetch
  deriving DecidableEq, Repr

/-- An SFOP that has begun (R186, R211, R238, R545): its instruction and index, NUMCTL, SCALE(ENT), SF_UPD_CTL.SKIP and
parameter registers of that moment, its generator, and what has come: rows over read circuits, and flits of push circuits by
in-port. -/
structure SfOp where
  instr : W128
  pc : Nat
  ctl : NumCtl
  scale : Nat
  skip : Bool
  pregs : List Nat
  gen : Gen
  part : Option Part
  fetch : Fetch
  staged : List (Nat × List Byte) := []
  /-- cursors that the page has written since it began: they stay as written (R545) -/
  written : List Nat := []
  deriving DecidableEq, Repr

/-- A DRAIN in the drain queue, with what R211, R186, R238 and its issue fixed. -/
structure Drain where
  instr : W128
  pc : Nat
  dest : Nat
  sinvA : Nat
  sinvB : Nat
  scaleY : Nat
  rmode : Nat
  sat : Bool
  nanCont : Bool
  trapInf : Bool
  gen : Gen := {}
  /-- the drain has begun to read its source (R293) -/
  reading : Bool := false
  part : Option Part
  deriving DecidableEq, Repr

/-- A matrix engine beside its registers. -/
structure MeSt where
  bankA : Bank := {}
  bankB : Bank := {}
  cells : Bank := {}
  shadow : Bank := {}
  /-- a finished tile waits in the cell registers to move to the shadow set (R299) -/
  moving : Bool := false
  /-- the idle half of the weight double-buffer: address and columns of an LDW, and its block (R259, R260) -/
  weight : Option (Nat × Nat × List Byte) := none
  /-- the half of the weight double-buffer in use: the last panel of B that entered the array; and the operand stage: the last
  two panels of A that entered in cell mode, the newest first (R240, R277) -/
  inUse : List Byte := []
  opStage : List (List Byte) := []
  /-- the instruction in the issue stage that reads its rows (R269) -/
  op : Option EngOp := none
  drains : List Drain := []
  loops : List (Nat × Nat) := []
  cfg : W128 := 0
  prog : Tbl W128 := []
  /-- the program read buffer (R243) -/
  progBuf : W128 := 0
  /-- END waits for the drain queue (R265) -/
  ending : Bool := false
  part : Option Part := none
  deriving DecidableEq, Repr

/-- An SF tile beside its registers. -/
structure SfSt where
  loops : List (Nat × Nat) := []
  prog : Tbl W128 := []
  progBuf : W128 := 0
  /-- the SFOP that has begun -/
  op : Option SfOp := none
  part : Option Part := none
  deriving DecidableEq, Repr

/-! ### The plan and Trestle (05) -/

/-- A flit with its sideband (R333). -/
structure Flit where
  epoch : Nat
  last : Bool
  kind : Nat
  row : Nat := 0
  desc : Nat := 0
  mask : BitVec 128 := BitVec.allOnes 128
  payload : List Byte
  deriving DecidableEq, Repr

/-- A circuit entry of the plan (R393), with its joint route. -/
structure Circuit where
  num : Nat
  owner : Nat
  srcPos : Nat
  srcPort : Nat
  dstPos : Nat
  dstPort : Nat
  order : Bool
  kind : Nat
  depth : Nat
  slots : Nat
  joints : Option (Nat × Nat) := none
  deriving DecidableEq, Repr

/-- A program entry of plan sections 1 and 2 (R395, R569). -/
structure ProgEntry where
  pos : Nat
  entry : Nat
  code : List W128
  deriving DecidableEq, Repr

/-- A clerk image of plan section 3 (R539). -/
structure ClerkImage where
  pos : Nat
  entry : Nat
  trapHalt : Bool
  itcm : List Byte
  dtcm : List Byte
  deriving DecidableEq, Repr

/-- A Tollgate entry (R396). -/
structure TollgateEntry where
  pos : Nat
  gate : Nat
  op : Nat
  grain : Nat
  deriving DecidableEq, Repr

/-- A write-stream descriptor entry (R397). -/
structure DescEntry where
  pos : Nat
  num : Nat
  pitch : Nat
  addr : Nat
  advance : Int
  deriving DecidableEq, Repr

/-- A STREAM window declaration (R398). -/
structure WinDecl where
  num : Nat
  span : Nat
  first : Nat
  count : Nat
  deriving DecidableEq, Repr

/-- A loaded plan: the parsed image, which the device retains (R401). -/
structure Plan where
  id : Nat
  mask : Nat
  circuits : List Circuit
  mePrograms : List ProgEntry
  sfPrograms : List ProgEntry
  images : List ClerkImage
  tollgates : List TollgateEntry
  descs : List DescEntry
  windows : List WinDecl
  deriving DecidableEq, Repr

/-- A circuit in use: sender credits C, flits on links F, queue Q, credits on the reverse lane B (R348), flits
ready at the out-port. For a read circuit `credits` is DEPTH less the flits that its consumer has requested over it and not
yet removed (R347), and `requests` the row requests on the reverse lane. -/
structure CircSt where
  depth : Nat := 0
  credits : Nat := 0
  inFlight : List Flit := []
  queue : List Flit := []
  back : Nat := 0
  ready : List Flit := []
  requests : List (BitVec 16) := []
  deriving DecidableEq, Repr

/-- A Tollgate at work: tokens held in order, the input of the grain in progress with its output (none for a
drop) and flits still to move, and the output buffers (R353 to R362). -/
structure TgSt where
  op : Nat := 0
  grain : Nat := 0
  stopped : Bool := false
  tokens : List Bool := []
  moving : Option (Nat × Option Nat × Nat) := none
  deriving DecidableEq, Repr

/-- A write-stream descriptor of an I/O tile (R364 to R367). -/
structure DescSt where
  loaded : Bool := false
  pitch : Nat := 0
  addr : Nat := 0
  advance : Int := 0
  deriving DecidableEq, Repr

/-- A drain on its way to an I/O tile (R365, R366): the circuit that carries it, its descriptor, how many vectors it has and
how many the tile has accepted. -/
structure IoDrain where
  io : Nat
  circ : Nat
  desc : Nat
  count : Nat
  part : Option Part
  done : Nat := 0
  deriving DecidableEq, Repr

/-- A reconfiguration in progress: its spans, phase (R374; TR_STAT.PHASE codes) and why: LOAD_PLAN of a docket. -/
structure LoadSt where
  ring : Nat
  n : Nat
  phase : Nat
  image : Option Plan
  /-- the DETAIL of a refusal found during load (R404) -/
  reject : Option Nat := none
  digest : BitVec 384 := 0
  /-- the accepted image, for the plan store (R401) -/
  bytes : List Byte := []
  /-- the CCLK count at which its quiesce began (R376) -/
  quiesceAt : Nat := 0
  deriving DecidableEq, Repr

/-- The watchdog counts of ports in CCLK, by `portKey`, and the ports that have reported since their last progress (R369,
R371). -/
structure Watch where
  counts : Tbl Nat := []
  told : List Nat := []
  deriving DecidableEq, Repr

/-! ### Scratchpads, windows and caches (06) -/

/-- An aperture access that waits for its tile (R447, R448): BAR2 offset and size, the bytes of a write, and once its read
half is served the merged row that its write half stores. -/
structure ApReq where
  off : Nat
  size : Nat
  data : Option (List Byte) := none
  merged : Option (List Byte) := none
  deriving DecidableEq, Repr

/-- A row request at a tile's out-port (R417 to R421). -/
structure RowReq where
  circ : Nat
  row : Nat
  deriving DecidableEq, Repr

/-- An accepted remote write that has not ended (R456): its window with the target it had, source device, TAG and
bytes. -/
structure WinWrite where
  win : Nat
  near : Bool
  span : Nat
  base : Nat
  src : Nat
  strand : Nat
  tag : Nat
  offset : Nat
  data : List Byte
  /-- PUT (1) or CWRITE (2) -/
  op : Nat
  group : Nat := 0
  /-- the epoch under which its requests are sent (R383) -/
  epoch : Nat := 0
  /-- a request of it is held under STALL (R1102) -/
  held : Bool := false
  /-- of a write into scratchpad rows: which of its rows have been written (R427) -/
  rowsDone : List Nat := []
  deriving DecidableEq, Repr

/-- A sector of a span cache (R463 to R474). -/
structure Sector where
  addr : Nat
  dirty : Bool
  data : List Byte
  /-- its way within the set -/
  way : Nat := 0
  deriving DecidableEq, Repr

/-! ### Training steps (09) -/

/-- The first trap recorded for a micro-batch or the update (R709): the message's unit and time, and its log slot
once Tollhouse has taken it. -/
structure FirstTrap where
  path : Nat
  time : Nat
  slot : Option Nat
  deriving DecidableEq, Repr

/-- A RUN_STEP in execution (R690 to R696): its docket, the units whose part has not started, the units that
serve it, and the DETAIL of its first tier error. -/
structure RunEx where
  ring : Nat
  n : Nat
  waiting : List Nat
  active : List Nat
  tierError : Option Nat := none
  deriving DecidableEq, Repr

/-! ### Carter and tier requests (08) -/

/-- Who a command of the memory system belongs to: a ring docket, a sub-docket of a span, or neither. -/
inductive Owner where
  | ring (k n : Nat)
  | sub (span h : Nat)
  | nobody
  deriving DecidableEq, Repr

/-- A reader of a STREAM window (R651 to R653): its hold, its mark, and whether it is idle after END. -/
structure Reader where
  hold : Option Nat := none
  mark : Option Nat := none
  idle : Bool := false
  deriving DecidableEq, Repr

/-- A STREAM or FETCH into a window (R654, R655): its owner, window, source, rows, and whether it writes yet,
how many rows are still to be read, and the first failure of its work (R680). -/
structure Fill where
  owner : Owner
  win : Nat
  restart : Bool
  src : Nat
  rows : Nat
  writing : Bool := false
  /-- rows requested from their tier, from the first on; those of them that were pre-read into the span cache, which the fill
  reads again when it writes; how many rows have come to be written; and what of these is in the staging buffer, by row (R577,
  R665) -/
  asked : Nat := 0
  again : List Nat := []
  came : Nat := 0
  staged : List (Nat × List Byte) := []
  /-- stopped for want of a circuit (R650) -/
  stopped : Bool := false
  failure : Option Nat := none
  deriving DecidableEq, Repr

/-- A copy of Carter in execution: a FETCH with DKIND = 1 or an OFFLOAD (R659, R663): its owner, Carter, the bytes
stored so far and its first failure. A compressed destination takes the whole object at once (R641). -/
structure Copy where
  owner : Owner
  span : Nat
  /-- a FETCH: failed bytes are written as zero (R678) -/
  fetch : Bool := false
  stored : Nat := 0
  /-- its last CXL.io write on each link, which a read is to follow (R636): link, host address, device address, TIER_FAIL_MODE -/
  ioAt : List (Nat × Nat × Nat × Bool) := []
  /-- a destination under COMPRESS: its device address, the object's length, and the bytes read so far by offset -/
  obj : Option (Nat × Nat) := none
  parts : Tbl Byte := []
  /-- scratchpad rows that an OFFLOAD reads (R661), each with its offset in the data and whether it has been requested -/
  rows : List (Nat × Nat × Bool) := []
  stopped : Bool := false
  failure : Option Nat := none
  deriving DecidableEq, Repr

/-- A tier request that has not ended (R635, R673, R676). `kind` is what it is for: 0 a fill row, 1 a device copy
read, 2 a device copy write, 3 a drain vector, 4 a window write, 6 another unit's access, 7 discarded work, 8 a pre-read of
near-tier rows, 9 a stored piece or block of a compressed object, 10 a read that makes CXL.io writes visible (R636). `tier` is the
placement code (R573), 7 where no entry applies. -/
structure Req where
  id : Nat
  /-- the requesting unit -/
  path : Nat
  owner : Owner
  kind : Nat
  tier : Nat
  /-- tier address: a near key for the near tier, the place in BAR2 (R445) for an ONCHIP page -/
  taddr : Nat := 0
  noCache : Bool := false
  /-- HCOH of its page (R633) -/
  hcoh : Bool := false
  addr : Nat
  len : Nat
  write : Bool
  data : List Byte := []
  /-- where the data of a read goes: a span row address with its span, or a device address -/
  dest : Nat := 0
  span : Nat := 0
  epoch : Nat := 0
  sent : Nat := 0
  reissues : Nat := 0
  held : Bool := false
  abort : Bool := false
  /-- it has timed out: while its scope is sealed for LOAD_PLAN (R675), or with its unit still to be told -/
  timedOut : Bool := false
  deriving DecidableEq, Repr

/-- A compressed object being read (R641 to R645): its transfer (as in `Req`), its device address, its decoded length and where
its bytes go; the stored and decoded offset of the next block, the decoded bytes that may be read (R577), the numbers of its 512 B
pieces that have been requested, those that have come and those that failed, and the blocks whose payload is awaited: stored offset,
decoded offset, stored length. -/
structure Decomp where
  owner : Owner
  kind : Nat
  span : Nat
  src : Nat
  len : Nat
  dest : Nat
  off : Nat := 0
  pos : Nat := 0
  limit : Nat := 0
  asked : List Nat := []
  got : List (Nat × List Byte) := []
  lost : List Nat := []
  blocks : List (Nat × Nat × Nat) := []
  deriving DecidableEq, Repr

/-- How the control reads and the device-address accesses of the command in progress come back, and the DETAIL of its first
failed one (R680); empty between commands. -/
structure Env where
  ctl : List ReqOutcome := []
  acc : List AccessErr := []
  err : Option Nat := none
  deriving DecidableEq, Repr

/-- A stall being counted (R683 to R687). -/
structure Stall where
  span : Nat
  tier : Nat
  cause : Nat
  addr : Nat
  since : Nat
  reported : Bool := false
  deriving DecidableEq, Repr

/-- An entry of a translation cache (R578): its cache (span 0 to 7, 8 the base die), the 1 GiB or 2 MiB page number
and the leaf entry that it holds. -/
structure TcEnt where
  dom : Nat
  big : Bool
  page : Nat
  entry : Nat
  deriving DecidableEq, Repr

/-- A retirement candidate or command that waits for its stack (R612, R616); `cause` as in NM_REMAP_DATA. -/
structure Retire where
  stack : Nat
  granule : Nat
  cause : Nat
  deriving DecidableEq, Repr

/-- A migration in progress (R616 to R621). -/
structure Migration where
  stack : Nat
  granule : Nat
  cause : Nat
  spare : Nat
  since : Nat
  deriving DecidableEq, Repr

/-- A completed retirement as the module flash holds it (R623). -/
structure Retired where
  stack : Nat
  granule : Nat
  spare : Nat
  cause : Nat
  time : Nat
  deriving DecidableEq, Repr

/-- Carter's estimates by tier (R666), and what it has counted for the current adaptation period and after, each with its time: rows
of released fills, and stall time (R667). -/
structure CarterSt where
  avg : List Int := [0, 0, 0]
  dev : List Int := [0, 0, 0]
  released : List (Nat × Nat) := []
  stallNs : List (Nat × Nat) := []
  since : Nat := 0
  /-- tier of the fill at the lead's front -/
  tier : Nat := 0
  deriving DecidableEq, Repr

/-! ### Clerks (07) -/

/-- A row move of a clerk that is outstanding (R503 to R507). -/
structure Move where
  slot : Nat
  row : Nat
  port : Nat
  store : Bool
  circ : Nat
  /-- the row request of a TZ.RLD has been sent (R347) -/
  sent : Bool := true
  deriving DecidableEq, Repr

/-- A clerk beside its registers: x, f and v registers, pc, CSRs, its memories, row stage, outstanding row moves,
moves discarded since the last TZ.EFENCE, LR reservation and the part it serves. -/
structure ClerkSt where
  x : Tbl Word := []
  f : Tbl Word := []
  v : Tbl (BitVec 512) := []
  pc : Word := 0
  csr : Tbl Word := []
  itcm : Tbl Byte := []
  dtcm : Tbl Byte := []
  stage : Tbl Byte := []
  moves : List Move := []
  discarded : Nat := 0
  reservation : Option Nat := none
  /-- the kind and index of the counter that a TZ.CWAIT waits on -/
  cwait : Option (Nat × Nat) := none
  /-- the CCLK count at which that wait began -/
  cwaitAt : Nat := 0
  part : Option Part := none
  deriving DecidableEq, Repr

/-- A sub-docket in a span's queue (R520 to R525): its entry, the clerk that posted it, its parent RUN_STEP, its
64 bytes and its stage. -/
structure Sub where
  span : Nat
  entry : Nat
  clerk : Nat
  parent : Part
  bytes : List Byte
  stage : DkStage
  deriving DecidableEq, Repr

/-! ### Kyino (10) -/

/-- A frame that waits for credits at a port, and the port whose receive buffer it still occupies (forwarding). -/
structure SendEnt where
  f : Frame
  from_ : Option Nat := none
  deriving DecidableEq, Repr

/-- A frame held for resending, by its LSEQ or ESEQ, with the times it has been resent (R747, R769). -/
structure HeldFrame where
  seq : Nat
  f : Frame
  resends : Nat := 0
  deriving DecidableEq, Repr

/-- What carries a Kyino frame in routed mode: destination MAC, the prefix of both IPv6 addresses, the device IDs in their low
halves, UDP destination port and DSCP. -/
structure Ether where
  mac : Nat
  prefix_ : Nat
  dst : Nat
  src : Nat
  port : Nat
  dscp : Nat
  deriving DecidableEq, Repr

/-- What a port puts on its link: frames with the CRC of their trailer (R738), in routed mode inside an Ethernet frame, and
link-control frames (R742, R744, R746, R768). -/
inductive Wire where
  | frame (seq : Nat) (f : Frame) (crc : Nat)
  | ether (e : Ether) (seq : Nat) (f : Frame) (crc : Nat)
  | ack (lseq : Nat)
  | nak (lseq : Nat)
  | credit (vc count : Nat)
  | selAck (dev vc low : Nat) (map : BitVec 256)
  | advert (lseq : Nat) (free : List Nat)
  deriving DecidableEq, Repr

/-- A Kyino port beside its registers: has its link ever been UP, has the message of a failed first training been sent,
has training completed, since when the present link state holds, retrain attempts, sequence numbers, the replay buffer,
send and receive queues, cumulative credit counts by VC (freed, reported, last received), frames accepted since the
last ACK, when an ACK last advanced, since when each VC is short of credits, when it was last short, and which VCs have
marked the partner SLOW. -/
structure PortSt where
  everUp : Bool := false
  told : Bool := false
  trained : Bool := false
  since : Nat := 0
  attempts : Nat := 0
  txSeq : Nat := 0
  rxSeq : Nat := 0
  replay : List HeldFrame := []
  sendq : List SendEnt := []
  rxq : List Frame := []
  freed : List Nat := [0, 0, 0, 0]
  reported : List Nat := [0, 0, 0, 0]
  seen : List Nat := [0, 0, 0, 0]
  unacked : Nat := 0
  ackAt : Nat := 0
  short : List (Option Nat) := [none, none, none, none]
  lastShort : List Nat := [0, 0, 0, 0]
  starved : List Bool := [false, false, false, false]
  deriving DecidableEq, Repr

/-- A routed-mode connection of a sender (R766, R769): next ESEQ, frames not acknowledged, last send or acknowledgement. -/
structure Conn where
  next : Nat := 0
  held : List HeldFrame := []
  port : Nat := 0
  at_ : Nat := 0
  deriving DecidableEq, Repr

/-- A routed-mode receiver's record of one source and VC (R767, R768). -/
structure E2eRx where
  low : Nat := 0
  acc : List Nat := []
  since : Nat := 0
  at_ : Nat := 0
  port : Nat := 0
  deriving DecidableEq, Repr

/-- One chunk that a strand sends or receives (R802 to R804): the rank at the other end, the chunk's number, first
element and length, is it added to the receiver's own, and how many receptions of the strand come before it. -/
structure Xfer where
  peer : Nat
  chunk : Nat
  start : Nat
  len : Nat
  add : Bool
  needs : Nat := 0
  deriving DecidableEq, Repr

/-- A strand of a REDUCE in execution: chunks still to be sent and received, receptions done, pieces of the present
chunk already sent and received, pieces sent to, received from and granted to each rank, CREADYs not yet used, the
bytes of the chunk now arriving, and the bytes of arriving pieces by slot. -/
structure StrandSt where
  sends : List Xfer := []
  recvs : List Xfer := []
  recvd : Nat := 0
  sentNow : Nat := 0
  gotNow : Nat := 0
  tx : Tbl Nat := []
  rx : Tbl Nat := []
  granted : Tbl Nat := []
  creadys : List (Nat × Nat) := []
  cur : List Byte := []
  slots : Tbl Byte := []
  got : Tbl Nat := []
  rxAt : Nat := 0
  txAt : Nat := 0
  deriving DecidableEq, Repr

/-- A REDUCE in execution (R798 to R815): its elements as codes, the sums of VALID and ATTEMPTED by chunk (R809), the
frames not yet answered. -/
structure Coll where
  owner : Owner
  op : Nat
  dtype : Nat
  group : Nat
  counted : Bool
  direct : Bool
  addr : Nat
  count : Nat
  peer : Nat
  first : Nat := 0
  seq : Nat := 0
  members : List Nat := []
  rank : Nat := 0
  buf : List Nat := []
  sums : List (Nat × Nat) := []
  strands : List StrandSt := []
  out : List (Nat × Nat × Nat × Nat) := []
  stuck : Bool := false
  failure : Option Nat := none
  deriving DecidableEq, Repr

/-! ### Units, self-test, risk and snapshots (02, 11, 12) -/

/-- A substitution of a spare that has begun and not completed (R312 to R317): the engine fenced, the cause as in
ME_REMAP. -/
structure Subst where
  span : Nat
  target : Nat
  cause : Nat
  deriving DecidableEq, Repr

/-- A BIST slice that runs (R881 to R894): its unit, when it began, which run it is (0 the first, 1 after a failure, 2
after a repair), had the repaired word been readable, and does it run in a BIST_WINDOW. -/
structure Slice where
  path : Nat
  since : Nat
  run : Nat := 0
  readable : Bool := true
  window : Bool := false
  deriving DecidableEq, Repr

/-- A BIST_WINDOW docket in execution (R888 to R891): when its window began (none while it waits), the phase before it,
slices run and confirmed failures. -/
structure BistWin where
  n : Nat
  start : Option Nat := none
  micros : Nat
  spans : List Nat
  base : Bool
  near : Bool
  phase : Nat
  runs : Nat := 0
  fails : Nat := 0
  deriving DecidableEq, Repr

/-- What the Assayer holds beside its registers (R902 to R904): the start of the window not yet evaluated, the smallest margin
in it, and with their times the inputs and the margins of the windows after it. -/
structure AssaySt where
  start : Nat := 0
  margin : Option Nat := none
  later : List (Nat × Nat) := []
  laterMargins : List (Nat × Nat) := []
  deriving DecidableEq, Repr

/-- Where one destination of an image stands: next stage 1 to 3 (R919), complete, failed, or not requested. -/
inductive SnDest where
  /-- stage k begins next -/
  | stage (k : Nat)
  /-- the writes of stage k are on their way to the buddy -/
  | sent (k : Nat)
  | complete
  | failed (status detail : Nat)
  | unused
  deriving DecidableEq, Repr

/-- A SNAPSHOT in execution (R912 to R926): its docket on the device ring (none: requested by the device, R929), the
regions, its arguments, the step boundary that it waits for, when its hold began and its capture ran, the image, and its
destinations. -/
structure Snap where
  n : Option Nat
  regions : List (Nat × Nat)
  /-- kept in the staging area: its device address -/
  stage : Option Nat
  farAddr : Nat
  tag : Nat
  /-- waits until this many step boundaries have passed (R912); none: its capture point is not yet set (R915) -/
  point : Option Nat
  heldAt : Nat := 0
  capturing : Bool := false
  captured : Bool := false
  image : List Byte := []
  step : Nat := 0
  buddy : SnDest := .unused
  far : SnDest := .unused
  /-- writes of the buddy's stage that are not yet answered: device, window, tag, offset (R919) -/
  out : List (Nat × Nat × Nat × Nat) := []
  deriving DecidableEq, Repr

/-! ### Host, boot and management (13) -/

/-- What the device sends on CXL.cache, CXL.mem, CXL.io and UIO: snoop misses, data with poison, Unsupported Request,
back-invalidations, and its own far-tier requests (R633, R634). -/
inductive CxlOut where
  | miss (addr : Nat)
  | poison (addr : Nat)
  | unsupported (addr : Nat)
  | bisnpInv (line : Nat)
  | bisnpData (line : Nat)
  /-- a FAR_HOST request of a page with HCOH = 1: one CXL.cache request to a line of 64 B -/
  | cacheLine (write : Bool) (line : Nat)
  /-- another FAR_HOST request: a CXL.io memory request -/
  | ioMem (write : Bool) (addr bytes : Nat)
  /-- a FAR_EXP request: unordered I/O -/
  | uio (write : Bool) (addr bytes : Nat)
  deriving DecidableEq, Repr

/-- A line that the snoop filter holds (R966 to R969), oldest use first; `asked`: a back-invalidation is outstanding, a
BISnpInv if `inv`, else a BISnpData. -/
structure SfLine where
  line : Nat
  excl : Bool
  asked : Bool := false
  inv : Bool := false
  deriving DecidableEq, Repr

/-- A record of the Scrivener journal (R995). -/
structure JRec where
  boot : Nat
  step : Nat
  event : Nat
  resource : Nat
  level : Nat
  detail : Nat
  time : Nat
  deriving DecidableEq, Repr

/-- An answer that a transport of the management path or DOE sends: SPDM response code and its measurement bytes. -/
structure SpdmAns where
  transport : Nat
  code : Nat
  body : List Byte := []
  deriving DecidableEq, Repr

/-- A transport's SPDM connection (R1007, R1008): negotiated so far (0 none, 1 version, 2 capabilities, 3 algorithms) and
the secured sessions in use. -/
structure SpdmSt where
  agreed : Nat := 0
  sessions : Nat := 0
  deriving DecidableEq, Repr

/-! ### Clocks and power (14) -/

/-- The module's power: off, rising, up, or with rails 3 to 8 lowered after a thermal trip (R1045 to R1054). -/
inductive PowerSt where
  | off
  | rising
  | up
  | tripped
  deriving DecidableEq, Repr

/-- The governor beside its registers (R1030 to R1035, R1051, R1052): quiet periods, the divider that a voltage raise
leads to, is the voltage being lowered, PW_TH_CTL as in effect, and since when the margin has been high enough. -/
structure GovSt where
  quiet : Nat := 0
  ramp : Option Nat := none
  lowering : Bool := false
  warn : Nat := 10
  thDiv : Nat := 2
  thEn : Bool := true
  warned : Bool := false
  above : Option Nat := none
  deriving DecidableEq, Repr

/-- The Scrivener journal, newest first, with its read buffer; levels, skipped resources and boots of their change; a clear of
the levels asked for, and the hold of recovery (13). -/
structure Scriv where
  journal : List JRec := []
  jrnlBuf : Nat := 0
  levels : Tbl Nat := []
  skipped : List Nat := []
  levelBoot : Tbl Nat := []
  clearPend : Bool := false
  recoveryHold : Bool := false
  deriving DecidableEq, Repr

/-- The alias certificate (R1004): the alias public key, the image digest, SVN and KEY_SLOT of its extension, and the signature with
the DeviceID key over them. -/
structure AliasCert where
  key : List Byte
  digest : List Byte
  svn : Nat
  slot : Nat
  signature : List Byte
  deriving DecidableEq, Repr

/-- The layered identity (R1002 to R1006): the DeviceID private key while it is in memory, the DeviceID public key, are reads of the
unique device secret locked, the alias compound device identifier, the alias private key, and the alias certificate. -/
structure Dice where
  deviceKey : Option Nat := none
  devicePub : List Byte := []
  locked : Bool := false
  aliasId : List Byte := []
  aliasKey : Nat := 0
  cert : Option AliasCert := none
  deriving DecidableEq, Repr

/-- What the management path holds: SPDM connections by transport and their answers, MCTP packets for the bus owner, and the
PLDM sensors (13, 15). -/
structure Mgmt where
  spdm : Tbl SpdmSt := []
  spdmOut : List SpdmAns := []
  mctp : List Word := []
  pldm : List Nat := []
  deriving DecidableEq, Repr

/-- Buddy pairing (R933 to R937): has PAIR been written, is the own pairing record acknowledged, the record in the hosted
window, the tag of the record that waits for its answer, and the own record as it was last sent. Besides: the time of the step
boundary that has begun the SNAPSHOT docket held at SN_AUTO_DOCKET (R929). -/
structure Pairing where
  pairAsked : Bool := false
  pairAcked : Bool := false
  pairRec : Option (List Byte) := none
  pairTag : Option Nat := none
  pairSent : List Byte := []
  autoDue : Option Nat := none
  deriving DecidableEq, Repr

/-- Of the MCLK cycle that runs: bits of W1C fields that hardware has set in it (R14), what it has added to counters
(R15), units that leave OFF at its end (R93), units whose UNIT_CTL has taken an ENABLE in it (R94), and rings that have
taken a doorbell in it, with the number of dockets announced before it, plus one (R131), RUN_STEPs that have begun in it, by
ring and index (R693), has a step boundary occurred in it (R701), and the path of the last message that entered the log in
it (R831). -/
structure Cyc where
  newBits : List (Nat × Nat) := []
  newCounts : Tbl Nat := []
  restartNext : List Nat := []
  enabledNow : List Nat := []
  belled : Tbl Nat := []
  begun : List (Nat × Nat) := []
  boundary : Bool := false
  tollPath : Nat := 0
  deriving DecidableEq, Repr

/-! ### The block -/

/-- Everything the block holds but its clock and its queue of waiting commands. -/
structure Dev where
  /-- every register field, by `fldKey`; unlisted: the reset value of its row -/
  regs : Tbl Nat := []
  /-- R1090: the unit a descendant was fenced with, plus one; 0: no mark -/
  marks : Tbl Nat := []
  /-- R46: the minimum service set is not met -/
  noService : Bool := false
  /-- scratchpad tiles that a KILL has found FENCED or FAILED: in reset until they next start (R490) -/
  resetTiles : List Nat := []
  /-- docket rings by number 0 to 32 -/
  rings : Tbl Ring := []
  kill : Option KillSt := none
  /-- the amax/scale table: 64-bit word w of entry e at 4 e + w (R200) -/
  amax : Tbl Nat := []
  /-- a roll in progress: the next entry and the last (R219) -/
  roll : Option (Nat × Nat) := none
  mes : Tbl MeSt := []
  sfs : Tbl SfSt := []
  plan : Option Plan := none
  /-- circuits by owner × 4096 + number -/
  circs : Tbl CircSt := []
  /-- Tollgates by I/O-tile path × 16 + number -/
  tgs : Tbl TgSt := []
  /-- write-stream descriptors by I/O-tile path × 256 + number -/
  descs : Tbl DescSt := []
  ioDrains : List IoDrain := []
  load : Option LoadSt := none
  /-- spans whose first stale discard of the epoch has been reported (R385) -/
  staleSeen : List Nat := []
  watch : Watch := {}
  /-- scratchpad bytes by BAR2 offset (R445); unlisted: zero (R433) -/
  spad : Tbl Byte := []
  /-- check tags by tile path × 2^14 + row, as the difference from the tile's initial tag (R441): bit 0 WRITTEN, bit 1 READ -/
  spTags : Tbl Nat := []
  spTagBase : Tbl Nat := []
  /-- row requests that have arrived at a tile, oldest first, by tile path -/
  spReqs : Tbl (List RowReq) := []
  /-- rows whose corrected contents wait for their write-back (R414), by tile path × 2^14 + row -/
  spFix : List Nat := []
  /-- round-robin pointers (R430): the port last served, by tile path × 4 + 2 × (write port) + (narrow class) -/
  spLast : Tbl Nat := []
  /-- aperture accesses that wait for their tiles, oldest first -/
  apQ : List ApReq := []
  winWrites : List WinWrite := []
  /-- span-cache sectors by span -/
  caches : Tbl (List Sector) := []
  /-- the replacement tree of a set, by span × 2^13 + set: bit j of the entry belongs to node j (R463) -/
  plru : Tbl Nat := []
  /-- near-tier data bytes by stack × 2^37 + data offset; unlisted: zero in generation 0, and open in each later one,
  which a change of the near-tier layout begins (R593) -/
  near : Tbl Byte := []
  nearGen : Nat := 0
  /-- poisoned code sectors of the near tier by stack × 2^30 + sector (R601) -/
  poison : Tbl Bool := []
  /-- host memory bytes; unlisted: zero -/
  hostMem : Tbl Byte := []
  /-- CXL fabric (expander) bytes; unlisted: zero -/
  fabric : Tbl Byte := []
  /-- messages that units hold and Tollhouse has not accepted, oldest first (R833) -/
  outbox : List Msg := []
  log : Tbl LogSlot := []
  graces : List Grace := []
  ladders : List Ladder := []
  /-- the log read buffer: DATA0, DATA1, DATA2 (R899) -/
  logBuf : Nat × Nat × Nat := (0, 0, 0)
  /-- kinds whose reaction entry software has written (R847) -/
  reactWritten : List Nat := []
  /-- MSI-X vectors raised, oldest first -/
  msix : List Nat := []
  /-- first-trap slots by micro-batch; 4096: the update (R709) -/
  firstTraps : Tbl (Option FirstTrap) := []
  /-- RUN_STEPs in execution in the order in which they began (R693) -/
  runs : List RunEx := []
  /-- readers of STREAM windows by unit path × 1024 + window -/
  readers : Tbl Reader := []
  /-- fills in the order in which Carter took their dockets -/
  fills : List Fill := []
  reqs : List Req := []
  nextReq : Nat := 0
  stalls : List Stall := []
  tcache : List TcEnt := []
  /-- the 2 MiB page that FT_PT_INV.PAGE invalidates (R581) -/
  invPage : Option Nat := none
  /-- candidates that wait for their stack, oldest first, and migrations in progress -/
  retires : List Retire := []
  migrations : List Migration := []
  /-- corrected errors per granule in the current window, by stack × 2^16 + granule (R611) -/
  ceCounts : Tbl Nat := []
  /-- granules whose count has reached the threshold in the current window (R612), keyed likewise -/
  ceTold : List Nat := []
  /-- index of the current retirement window (R611) -/
  retWindow : Nat := 0
  /-- stacks whose NM_SPARES_OUT has been sent (R622) -/
  sparesOut : List Nat := []
  /-- the current interval of the patrol scrub, and the rows that it has read in it (R609), by stack × 2^30 + row -/
  patrolAt : Nat := 0
  patrolRows : List Nat := []
  /-- SCRUB_EPOCH and RETIRE_TAG of DRAM rows, by stack × 2^30 + row (R597) -/
  rowMeta : Tbl Nat := []
  /-- completed retirements in the module flash (R623) -/
  flashRetired : List Retired := []
  /-- stacks whose link retrains (R587) -/
  retraining : List Nat := []
  /-- expander entries whose last probe failed, and entries marked unreachable (R637) -/
  probeFailed : List Nat := []
  expDown : List Nat := []
  carters : Tbl CarterSt := []
  /-- the NM_SCRUB docket that waits or executes -/
  nmScrub : Option (Nat × Nat) := none
  copies : List Copy := []
  /-- compressed objects being read -/
  decomps : List Decomp := []
  /-- spans whose fills must carry RESTART since their last discard, and windows (span × 1024 + window) of which a fill
  with RESTART has been accepted since (R656) -/
  needRestart : List Nat := []
  restarted : List Nat := []
  clerks : Tbl ClerkSt := []
  /-- sub-dockets in the order in which they were posted -/
  subs : List Sub := []
  /-- Kyino ports by number, everything put on their links, and frames to this device itself -/
  ports : Tbl PortSt := []
  wire : List (Nat × Wire) := []
  kyLocal : List Frame := []
  /-- routed mode: connections by destination × 4 + VC, and receivers by source × 4 + VC -/
  conns : Tbl Conn := []
  e2eRx : Tbl E2eRx := []
  /-- rate buckets (R776): the bytes taken and not yet refilled, and when that was -/
  buckets : Tbl (Nat × Nat) := []
  /-- a frame has been dropped for its HOPS since KY_HOP_DROP_CNT was read (R760) -/
  hopSeen : Bool := false
  /-- when a TSYNC last came from upstream, when the last TSYNC period ended, and t1, t2, t3 of an exchange (R785) -/
  tsyncAt : Option Nat := none
  tsyncSent : Nat := 0
  exchange : Option (Nat × Nat × Nat) := none
  colls : List Coll := []
  /-- CREADYs of members for the next REDUCE of their group, which has not begun here (R795, R805) -/
  early : List Frame := []
  /-- tag of the next PUT frame made here -/
  nextPutTag : Nat := 0
  /-- latest contribution of each child by rank, and the latest aggregate, with their times (R818 to R820) -/
  vgcs : Tbl (Option (Nat × List Word)) := []
  vga : Option (Nat × List Word) := none
  vgAt : Nat := 0
  /-- step boundaries since reset, those since the last capture, and is the device between steps (12) -/
  boundaries : Nat := 0
  capGap : Nat := 0
  between : Bool := true
  substs : List Subst := []
  slices : List Slice := []
  /-- slices of the current pass by unit, the time of its last completed pass, and units whose BI_OVERDUE is sent -/
  biDone : Tbl Nat := []
  biSince : Tbl Nat := []
  biTold : List Nat := []
  bistWin : Option BistWin := none
  /-- units whose slice ran when the previous boot ended (R992), and the repair journal: unit and kind of repair (R897) -/
  lastSlices : List Nat := []
  repairs : List (Nat × Nat) := []
  /-- units whose scope is discarded once their BI_REPAIR has its slot (R895) -/
  repairDiscards : List Nat := []
  assay : AssaySt := {}
  snaps : List Snap := []
  /-- the device ring's RESTORE in execution (R942) -/
  restoring : Option Nat := none
  pr : Pairing := {}
  cxl : List CxlOut := []
  snoop : List SfLine := []
  hdmSize : Nat := 0
  /-- the MSI-X table by 8 B word, and the pending-bit array (R957) -/
  msixTbl : Tbl Nat := []
  msixPend : Tbl Bool := []
  /-- links whose IDE stream is insecure -/
  ideBad : List Nat := []
  bt : Scriv := {}
  dice : Dice := {}
  flash : Tbl Byte := []
  /-- the image that a firmware update has written since the reset: 0 A, 1 B (R997, R1017) -/
  updated : Option Nat := none
  /-- the digest of the loaded plan's image (R1009) -/
  planDigest : BitVec 384 := 0
  mg : Mgmt := {}
  power : PowerSt := .up
  gov : GovSt := {}
  droopAt : Tbl Nat := []
  /-- THERM_TRIP_N is low; the end of an ERR_N pulse -/
  thermTrip : Bool := false
  pulseUntil : Option Nat := none
  /-- when a program or a part of a RUN_STEP last ran on a unit (R883) -/
  busyAt : Tbl Nat := []
  /-- the value that the last read answered -/
  rdata : BitVec 512 := 0
  /-- CCLK cycles since reset, in 1/15 of one: the device-wide count of R429 and the frame count of R333 -/
  cclk : Nat := 0
  env : Env := {}
  /-- how many free values have been drawn -/
  fresh : Nat := 0
  cyc : Cyc := {}
  deriving DecidableEq, Repr

/-- The block: device time in nanoseconds with the clock's fraction and slew, the queue of waiting commands,
first in, first out, and everything else. -/
structure State where
  now : Nat
  /-- fraction of a nanosecond, in units of 1/270000 ns (an MCLK cycle is 40/27 ns, R1026) -/
  frac : Nat
  /-- still to be slewed out, in units of 1/270000 ns: device time is ahead by this much (R788) -/
  slew : Int
  pending : List Instr
  d : Dev
  deriving DecidableEq, Repr

/-- Why the block stops with a fault. No command of this block raises one: the spec gives every command an
effect or says that it changes nothing. -/
inductive Fault where
  /-- raised by no meaning of this model; safe: a stop proves nothing -/
  | noSuchBehaviour
  deriving DecidableEq, Repr

/-- Why a command is refused. -/
inductive Refusal where
  /-- an arm of `exec` without a meaning answers with the command's mnemonic; safe: a stop proves nothing -/
  | notModelled (mnemonic : String)
  deriving DecidableEq, Repr

/-- The block right after power-on: every register at the value of its table, memories listing nothing, no
command waiting, device time 0 (log entry 4). -/
def State.reset : State := { now := 0, frac := 0, slew := 0, pending := [], d := {} }

end Sys2Proof.Machine
end

