-- ==== Sys2Proof/Machine/Regs.lean ====
section
/-!
DEFINITION. Sys2Proof/Machine/Regs.lean: the register pages of spec 02 to 15 as data: one constant per
field under the manual's own names (register, then field), and one table per kind of page with each
field's place, access code (R13), reset value and the range of values its row defines (R18).
-/

namespace Sys2Proof.Machine

/-- The access codes of R13. -/
inductive Acc where
  | ro | rw | w1c | w1s | rc | wo
  deriving DecidableEq, Repr

/-- A field: byte offset of its register in the page, lowest bit, width in bits. -/
structure Fld where
  off : Nat
  lo : Nat
  w : Nat
  deriving DecidableEq, Repr

/-- One row of a register table: the field, its access code, its reset value, and the least and greatest
value that its row defines. -/
structure Row where
  fld : Fld
  acc : Acc
  reset : Nat
  least : Nat
  most : Nat
  deriving DecidableEq, Repr

def F.UNIT_CTL.ENABLE : Fld := ⟨0x010, 0, 1⟩
def F.UNIT_CTL.BLOCK_RESET : Fld := ⟨0x010, 1, 1⟩
def F.UNIT_CTL.FENCE : Fld := ⟨0x010, 2, 1⟩
def F.UNIT_CTL.RELEASE : Fld := ⟨0x010, 3, 1⟩
def F.UNIT_STAT.STATE : Fld := ⟨0x018, 0, 3⟩
def F.UNIT_STAT.PEND_EN : Fld := ⟨0x018, 3, 1⟩
def F.UNIT_STAT.SPARED : Fld := ⟨0x018, 4, 1⟩
def F.UNIT_STAT.ERR : Fld := ⟨0x018, 5, 1⟩
def F.UNIT_STAT.SUB_ERR : Fld := ⟨0x018, 6, 1⟩
def F.UNIT_STAT.STATE_TIME : Fld := ⟨0x018, 32, 32⟩
def F.UNIT_ERR.ILLEGAL_WRITE : Fld := ⟨0x020, 0, 1⟩
def F.UNIT_ERR_EN.ILLEGAL_WRITE : Fld := ⟨0x028, 0, 1⟩
def F.UNIT_ERR.STATE_CMD : Fld := ⟨0x020, 1, 1⟩
def F.UNIT_ERR_EN.STATE_CMD : Fld := ⟨0x028, 1, 1⟩
def F.UNIT_ERR.ACCESS_SIZE : Fld := ⟨0x020, 2, 1⟩
def F.UNIT_ERR_EN.ACCESS_SIZE : Fld := ⟨0x028, 2, 1⟩
def F.UNIT_ERR.DRAIN_TIMEOUT : Fld := ⟨0x020, 3, 1⟩
def F.UNIT_ERR_EN.DRAIN_TIMEOUT : Fld := ⟨0x028, 3, 1⟩
def F.UNIT_ERR.BLOCK_ERR : Fld := ⟨0x020, 16, 32⟩
def F.UNIT_ERR_EN.BLOCK_ERR : Fld := ⟨0x028, 16, 32⟩
def F.UNIT_SCRATCH.SCRATCH : Fld := ⟨0x038, 0, 64⟩
def F.NUMCTL.RMODE : Fld := ⟨0x800, 0, 2⟩
def F.NUMCTL.SATMODE : Fld := ⟨0x800, 2, 1⟩
def F.NUMCTL.NAN_ACTION : Fld := ⟨0x800, 3, 1⟩
def F.NUMCTL.TRAP_INF : Fld := ⟨0x800, 4, 1⟩
def F.OVF_CNT.COUNT : Fld := ⟨0x808, 0, 32⟩
def F.UNF_CNT.COUNT : Fld := ⟨0x810, 0, 32⟩
def F.TRAP0.VALID : Fld := ⟨0x820, 0, 1⟩
def F.TRAP0.HALTED : Fld := ⟨0x820, 1, 1⟩
def F.TRAP0.KIND : Fld := ⟨0x820, 2, 2⟩
def F.TRAP0.FORMAT : Fld := ⟨0x820, 4, 4⟩
def F.TRAP0.OPERAND : Fld := ⟨0x820, 8, 2⟩
def F.TRAP0.UNIT_PATH : Fld := ⟨0x820, 16, 16⟩
def F.TRAP0.SEQ : Fld := ⟨0x820, 32, 32⟩
def F.TRAP1.RING : Fld := ⟨0x828, 0, 8⟩
def F.TRAP1.INSTR : Fld := ⟨0x828, 8, 12⟩
def F.TRAP1.MB : Fld := ⟨0x828, 32, 16⟩
def F.TRAP2.M : Fld := ⟨0x830, 0, 16⟩
def F.TRAP2.N : Fld := ⟨0x830, 16, 16⟩
def F.TRAP2.K : Fld := ⟨0x830, 32, 16⟩
def F.TRAP3.TIME : Fld := ⟨0x838, 0, 32⟩
def F.TRAP3.NONFIN_CNT : Fld := ⟨0x838, 32, 32⟩
def F.RNG_SEED.SEED : Fld := ⟨0x840, 0, 64⟩
def F.RNG_STREAM.STREAM : Fld := ⟨0x848, 0, 64⟩
def F.RNG_POS.POS : Fld := ⟨0x850, 0, 64⟩
def F.ME_REMAP.ACTIVE : Fld := ⟨0x0c0, 0, 1⟩
def F.ME_REMAP.AUTO : Fld := ⟨0x0c0, 1, 1⟩
def F.ME_REMAP.HOST_SUB : Fld := ⟨0x0c0, 2, 1⟩
def F.ME_REMAP.HOST_REL : Fld := ⟨0x0c0, 3, 1⟩
def F.ME_REMAP.TGT_BAY : Fld := ⟨0x0c0, 4, 2⟩
def F.ME_REMAP.TGT_ENG : Fld := ⟨0x0c0, 6, 2⟩
def F.ME_REMAP.SERVED : Fld := ⟨0x0c0, 16, 16⟩
def F.ME_REMAP.CAUSE : Fld := ⟨0x0c0, 32, 2⟩
def F.ME_REMAP_TIME.TIME : Fld := ⟨0x0c8, 0, 64⟩
def F.CH_AMAX_INDEX.INDEX : Fld := ⟨0x040, 0, 12⟩
def F.CH_AMAX_INDEX.AUTO_INC : Fld := ⟨0x040, 16, 1⟩
def F.CH_AMAX_ROLL.FIRST : Fld := ⟨0x048, 0, 12⟩
def F.CH_AMAX_ROLL.LAST : Fld := ⟨0x048, 16, 12⟩
def F.CH_AMAX_ROLL.GO : Fld := ⟨0x048, 32, 1⟩
def F.CH_AMAX_ROLL.BUSY : Fld := ⟨0x048, 33, 1⟩
def F.CH_AMAX_DATA0.WORD0 : Fld := ⟨0x050, 0, 64⟩
def F.CH_AMAX_DATA1.WORD1 : Fld := ⟨0x058, 0, 64⟩
def F.CH_AMAX_DATA2.WORD2 : Fld := ⟨0x060, 0, 64⟩
def F.CH_AMAX_DATA3.WORD3 : Fld := ⟨0x068, 0, 64⟩
def F.AS_CTL.ADV_EN : Fld := ⟨0x040, 0, 1⟩
def F.AS_CTL.SNAP_EN : Fld := ⟨0x040, 1, 1⟩
def F.AS_CTL.EVAC_EN : Fld := ⟨0x040, 2, 1⟩
def F.AS_CTL.DECAY : Fld := ⟨0x040, 8, 4⟩
def F.AS_CTL.WINDOW_MS : Fld := ⟨0x040, 32, 16⟩
def F.AS_WEIGHT0.W_CE : Fld := ⟨0x048, 0, 16⟩
def F.AS_WEIGHT0.W_RETRAIN : Fld := ⟨0x048, 16, 16⟩
def F.AS_WEIGHT0.W_DROOP : Fld := ⟨0x048, 32, 16⟩
def F.AS_WEIGHT0.W_STALL : Fld := ⟨0x048, 48, 16⟩
def F.AS_WEIGHT1.W_BIFAIL : Fld := ⟨0x050, 0, 16⟩
def F.AS_WEIGHT1.W_BIREPAIR : Fld := ⟨0x050, 16, 16⟩
def F.AS_WEIGHT1.W_TEMP : Fld := ⟨0x050, 32, 16⟩
def F.AS_WEIGHT1.FEED_TERM : Fld := ⟨0x050, 48, 16⟩
def F.AS_THRESH.ADVISE : Fld := ⟨0x058, 0, 16⟩
def F.AS_THRESH.SNAPSHOT : Fld := ⟨0x058, 16, 16⟩
def F.AS_THRESH.EVACUATE : Fld := ⟨0x058, 32, 16⟩
def F.AS_THRESH.TEMP_REF : Fld := ⟨0x058, 48, 8⟩
def F.AS_RISK.RISK : Fld := ⟨0x060, 0, 16⟩
def F.AS_RISK.SUM : Fld := ⟨0x060, 16, 16⟩
def F.AS_RISK.ADV_HI : Fld := ⟨0x060, 32, 1⟩
def F.AS_RISK.SNAP_HI : Fld := ⟨0x060, 33, 1⟩
def F.AS_RISK.EVAC_HI : Fld := ⟨0x060, 34, 1⟩
def F.AS_RISK.EVAC_REQ : Fld := ⟨0x060, 35, 1⟩
def F.AS_OVERRIDE.VALUE : Fld := ⟨0x068, 0, 16⟩
def F.AS_OVERRIDE.EN : Fld := ⟨0x068, 16, 1⟩
def F.AS_CNT_SEL.INPUT : Fld := ⟨0x070, 0, 3⟩
def F.AS_CNT_DATA.LAST : Fld := ⟨0x078, 0, 32⟩
def F.AS_CNT_DATA.CUR : Fld := ⟨0x078, 32, 32⟩
def F.AS_TEMP.MARGIN : Fld := ⟨0x080, 0, 8⟩
def F.AS_LOG_SEL.ENTRY : Fld := ⟨0x088, 0, 4⟩
def F.AS_LOG_SEL.TOTAL : Fld := ⟨0x088, 32, 32⟩
def F.AS_LOG_DATA.TIME : Fld := ⟨0x090, 0, 32⟩
def F.AS_LOG_DATA.RISK : Fld := ⟨0x090, 32, 16⟩
def F.AS_LOG_DATA.ACTION : Fld := ⟨0x090, 48, 3⟩
def F.AS_LOG_DATA.SUPPRESSED : Fld := ⟨0x090, 51, 1⟩
def F.AS_LOG_DATA.OVERRIDDEN : Fld := ⟨0x090, 52, 1⟩
def F.BI_CTL.AUTO : Fld := ⟨0x040, 0, 1⟩
def F.BI_CTL.AUTO_REPAIR : Fld := ⟨0x040, 1, 1⟩
def F.BI_SLICE_BUDGET.MICROS : Fld := ⟨0x048, 0, 8⟩
def F.BI_IDLE_MIN.MICROS : Fld := ⟨0x050, 0, 10⟩
def F.BI_COVER.HOURS : Fld := ⟨0x058, 0, 8⟩
def F.BI_RUN_CNT.COUNT : Fld := ⟨0x060, 0, 48⟩
def F.BI_ABANDON_CNT.COUNT : Fld := ⟨0x068, 0, 32⟩
def F.BI_FAIL_CNT.COUNT : Fld := ⟨0x070, 0, 32⟩
def F.BI_UNIT_SEL.PATH : Fld := ⟨0x078, 0, 16⟩
def F.BI_UNIT_DATA.DONE : Fld := ⟨0x080, 0, 16⟩
def F.BI_UNIT_DATA.TOTAL : Fld := ⟨0x080, 16, 16⟩
def F.BI_UNIT_DATA.AGE : Fld := ⟨0x080, 32, 16⟩
def F.BI_FAIL_LAST.VALID : Fld := ⟨0x088, 0, 1⟩
def F.BI_FAIL_LAST.REPAIRED : Fld := ⟨0x088, 1, 1⟩
def F.BI_FAIL_LAST.PATH : Fld := ⟨0x088, 16, 16⟩
def F.BI_FAIL_LAST.TIME : Fld := ⟨0x088, 32, 32⟩
def F.BI_FUSE_PEND.COUNT : Fld := ⟨0x090, 0, 9⟩
def F.BI_FUSE_PEND.FULL : Fld := ⟨0x090, 9, 1⟩
def F.BT_STAT.STEP : Fld := ⟨0x040, 0, 3⟩
def F.BT_STAT.READY : Fld := ⟨0x040, 3, 1⟩
def F.BT_STAT.STOPPED : Fld := ⟨0x040, 4, 1⟩
def F.BT_STAT.IMAGE : Fld := ⟨0x040, 5, 1⟩
def F.BT_STAT.KEY_SLOT : Fld := ⟨0x040, 6, 2⟩
def F.BT_STAT.MAINT : Fld := ⟨0x040, 8, 1⟩
def F.BT_STAT.BOOT : Fld := ⟨0x040, 32, 32⟩
def F.BT_SVN.IMAGE_SVN : Fld := ⟨0x048, 0, 32⟩
def F.BT_SVN.FUSE_SVN : Fld := ⟨0x048, 32, 7⟩
def F.BT_CTL.NEXT_IMAGE : Fld := ⟨0x050, 0, 1⟩
def F.BT_CTL.MAINT_NEXT : Fld := ⟨0x050, 1, 1⟩
def F.BT_CTL.SVN_COMMIT : Fld := ⟨0x050, 2, 1⟩
def F.BT_CTL.CLEAR_LEVELS : Fld := ⟨0x050, 3, 1⟩
def F.BT_CTL.REVOKE : Fld := ⟨0x050, 4, 2⟩
def F.BT_MAX_ATTEMPTS.COUNT : Fld := ⟨0x058, 0, 3⟩
def F.BT_KEY_STAT.PROGRAMMED : Fld := ⟨0x060, 0, 3⟩
def F.BT_KEY_STAT.REVOKED : Fld := ⟨0x060, 3, 3⟩
def F.BT_JRNL_SEL.RECORD : Fld := ⟨0x068, 0, 12⟩
def F.BT_JRNL_DATA0.LO : Fld := ⟨0x070, 0, 64⟩
def F.BT_JRNL_DATA1.HI : Fld := ⟨0x078, 0, 64⟩
def F.BT_LEVEL_SEL.RESOURCE : Fld := ⟨0x080, 0, 6⟩
def F.BT_LEVEL_DATA.LEVEL : Fld := ⟨0x088, 0, 3⟩
def F.BT_LEVEL_DATA.SKIPPED : Fld := ⟨0x088, 3, 1⟩
def F.BT_LEVEL_DATA.BOOT : Fld := ⟨0x088, 32, 32⟩
def F.BT_STRAPS.SLOT_ID : Fld := ⟨0x090, 0, 6⟩
def F.BT_STRAPS.MGMT_SEL : Fld := ⟨0x090, 8, 1⟩
def F.BT_STRAPS.DBG_EN : Fld := ⟨0x090, 9, 1⟩
def F.BT_STRAPS.FEED_ID : Fld := ⟨0x090, 16, 8⟩
def F.CA_LEAD_MIN.ROWS : Fld := ⟨0x040, 0, 17⟩
def F.CA_LEAD_MAX.ROWS : Fld := ⟨0x048, 0, 17⟩
def F.CA_LEAD_FIX.ROWS : Fld := ⟨0x050, 0, 17⟩
def F.CA_LEAD.ROWS : Fld := ⟨0x058, 0, 17⟩
def F.CA_LEAD.LAT_P : Fld := ⟨0x058, 32, 32⟩
def F.CA_ADAPT_PERIOD.MICROS : Fld := ⟨0x060, 0, 14⟩
def F.CA_STALL_LIMIT.MICROS : Fld := ⟨0x068, 0, 20⟩
def F.CA_STALL_SEL.TIER : Fld := ⟨0x070, 0, 2⟩
def F.CA_STALL_SEL.CAUSE : Fld := ⟨0x070, 4, 3⟩
def F.CA_STALL_EVT.COUNT : Fld := ⟨0x078, 0, 32⟩
def F.CA_STALL_NS.COUNT : Fld := ⟨0x080, 0, 48⟩
def F.CA_ADJ_SEL.ENTRY : Fld := ⟨0x088, 0, 6⟩
def F.CA_ADJ_SEL.TOTAL : Fld := ⟨0x088, 32, 32⟩
def F.CA_ADJ_DATA0.TIME : Fld := ⟨0x090, 0, 32⟩
def F.CA_ADJ_DATA0.OLD : Fld := ⟨0x090, 32, 17⟩
def F.CA_ADJ_DATA1.NEW : Fld := ⟨0x098, 0, 17⟩
def F.CA_ADJ_DATA1.REASON : Fld := ⟨0x098, 17, 2⟩
def F.CA_ADJ_DATA1.LAT_P : Fld := ⟨0x098, 32, 32⟩
def F.CA_ADJ_DATA2.RATE : Fld := ⟨0x0a0, 0, 32⟩
def F.CA_WIN_SEL.WIN : Fld := ⟨0x0a8, 0, 10⟩
def F.CA_WIN_STAT.DELIV : Fld := ⟨0x0b0, 0, 32⟩
def F.CA_WIN_STAT.DECLARED : Fld := ⟨0x0b0, 32, 1⟩
def F.CA_WIN_STAT.FILLING : Fld := ⟨0x0b0, 33, 1⟩
def F.CA_WIN_STAT.READERS : Fld := ⟨0x0b0, 34, 6⟩
def F.CA_WIN_STAT.HOLDING : Fld := ⟨0x0b0, 40, 6⟩
def F.GC_CTL.GO : Fld := ⟨0x040, 0, 1⟩
def F.GC_CTL.STOP : Fld := ⟨0x040, 1, 1⟩
def F.GC_CTL.TRAP_HALT : Fld := ⟨0x040, 2, 1⟩
def F.GC_CTL.ENTRY : Fld := ⟨0x040, 32, 32⟩
def F.GC_STAT.RUNNING : Fld := ⟨0x048, 0, 1⟩
def F.GC_STAT.WAITING : Fld := ⟨0x048, 1, 1⟩
def F.GC_STAT.HALTED : Fld := ⟨0x048, 2, 1⟩
def F.GC_STAT.IDLE : Fld := ⟨0x048, 3, 1⟩
def F.GC_STAT.MOVES : Fld := ⟨0x048, 4, 4⟩
def F.GC_STAT.PC : Fld := ⟨0x048, 32, 32⟩
def F.GC_FAULT.VALID : Fld := ⟨0x050, 0, 1⟩
def F.GC_FAULT.CAUSE : Fld := ⟨0x050, 8, 8⟩
def F.GC_FAULT.XCODE : Fld := ⟨0x050, 16, 8⟩
def F.GC_FAULT.PC : Fld := ⟨0x050, 32, 32⟩
def F.GC_NUMCTL.NAN_ACTION : Fld := ⟨0x800, 3, 1⟩
def F.GC_NUMCTL.TRAP_INF : Fld := ⟨0x800, 4, 1⟩
def F.GC_TRAP_PC.PC : Fld := ⟨0x860, 0, 64⟩
def F.CK_STAT.REF_OK : Fld := ⟨0x040, 0, 1⟩
def F.CK_STAT.VCO_LOCK : Fld := ⟨0x040, 1, 1⟩
def F.CK_STAT.FALLBACK : Fld := ⟨0x040, 2, 1⟩
def F.CK_STAT.DIV : Fld := ⟨0x040, 3, 2⟩
def F.CK_PHY_LOCK0.G7 : Fld := ⟨0x048, 0, 32⟩
def F.CK_PHY_LOCK1.KY : Fld := ⟨0x050, 0, 24⟩
def F.CK_PHY_LOCK1.CXL : Fld := ⟨0x050, 24, 2⟩
def F.CK_UNLOCK_CNT.COUNT : Fld := ⟨0x058, 0, 32⟩
def F.CH_CTL.SATMODE : Fld := ⟨0x040, 0, 1⟩
def F.CH_CTL.TIMEOUT_MS : Fld := ⟨0x040, 32, 16⟩
def F.CH_GRP_SEL.GROUP : Fld := ⟨0x048, 0, 6⟩
def F.CH_GRP_CFG.MEMBERS : Fld := ⟨0x050, 0, 18⟩
def F.CH_GRP_CFG.RANK : Fld := ⟨0x050, 18, 17⟩
def F.CH_GRP_CFG.WIN : Fld := ⟨0x050, 35, 10⟩
def F.CH_GRP_CFG.STRANDS : Fld := ⟨0x050, 45, 5⟩
def F.CH_GRP_CFG.VALID : Fld := ⟨0x050, 50, 1⟩
def F.CH_GRP_CFG.VIADUCT : Fld := ⟨0x050, 51, 1⟩
def F.CH_GRP_LIST.LOC : Fld := ⟨0x058, 0, 1⟩
def F.CH_GRP_LIST.BASE : Fld := ⟨0x058, 12, 52⟩
def F.CH_GRP_KEY.KEY : Fld := ⟨0x060, 0, 32⟩
def F.CH_GRP_SEQ.SEQ : Fld := ⟨0x068, 0, 32⟩
def F.CH_ERR.VALID : Fld := ⟨0x070, 0, 1⟩
def F.CH_ERR.CAUSE : Fld := ⟨0x070, 8, 3⟩
def F.CH_ERR.MEMBER : Fld := ⟨0x070, 16, 17⟩
def F.CH_NONFIN_CNT.COUNT : Fld := ⟨0x078, 0, 32⟩
def F.CH_TX_BYTES.COUNT : Fld := ⟨0x080, 0, 48⟩
def F.DK_STEP.STEP : Fld := ⟨0x048, 0, 32⟩
def F.DK_ACC.MB_COUNT : Fld := ⟨0x050, 0, 13⟩
def F.DK_ACC.POISONED : Fld := ⟨0x050, 16, 13⟩
def F.DK_ACC.BROKEN : Fld := ⟨0x050, 32, 1⟩
def F.DK_ACC.UPD_POISON : Fld := ⟨0x050, 33, 1⟩
def F.DK_ACC.REDUCED : Fld := ⟨0x050, 34, 1⟩
def F.DK_ACC.CLEAR : Fld := ⟨0x050, 35, 1⟩
def F.DK_VCOUNT.VALID : Fld := ⟨0x058, 0, 13⟩
def F.DK_VCOUNT.ATTEMPTED : Fld := ⟨0x058, 16, 13⟩
def F.DK_VTOTAL.VALID : Fld := ⟨0x060, 0, 32⟩
def F.DK_VTOTAL.ATTEMPTED : Fld := ⟨0x060, 32, 32⟩
def F.DK_VTOTAL_STEP.STEP : Fld := ⟨0x068, 0, 32⟩
def F.DK_VTOTAL_STEP.SET : Fld := ⟨0x068, 32, 1⟩
def F.DK_MB_SEL.WORD : Fld := ⟨0x070, 0, 6⟩
def F.DK_MB_POISON.BITS : Fld := ⟨0x078, 0, 64⟩
def F.DK_MB_COUNTED.BITS : Fld := ⟨0x080, 0, 64⟩
def F.DK_SKIP_CNT.COUNT : Fld := ⟨0x088, 0, 32⟩
def F.DK_JOB_STAT.JOB_FREE : Fld := ⟨0x040, 0, 1⟩
def F.DK_JOB_STAT.KILL_ACTIVE : Fld := ⟨0x040, 1, 1⟩
def F.FT_CTL.COMP_EN : Fld := ⟨0x040, 0, 1⟩
def F.FT_CTL.REISSUE_MAX : Fld := ⟨0x040, 1, 3⟩
def F.FT_CTL.DFLT_MODE : Fld := ⟨0x040, 4, 1⟩
def F.FT_TIMEOUT.MICROS : Fld := ⟨0x048, 0, 16⟩
def F.FT_EXP_SEL.ENTRY : Fld := ⟨0x050, 0, 4⟩
def F.FT_EXP_BASE.VALID : Fld := ⟨0x058, 0, 1⟩
def F.FT_EXP_BASE.BASE : Fld := ⟨0x058, 21, 43⟩
def F.FT_EXP_LIMIT.LIMIT : Fld := ⟨0x060, 21, 43⟩
def F.FT_EXP_STAT.REACHABLE : Fld := ⟨0x068, 0, 1⟩
def F.FT_EXP_STAT.TIME : Fld := ⟨0x068, 32, 32⟩
def F.FT_RD_BYTES.COUNT : Fld := ⟨0x070, 0, 48⟩
def F.FT_WR_BYTES.COUNT : Fld := ⟨0x078, 0, 48⟩
def F.FT_TIMEOUT_CNT.COUNT : Fld := ⟨0x080, 0, 32⟩
def F.FT_LATE_CNT.COUNT : Fld := ⟨0x088, 0, 32⟩
def F.FT_CODEC_RAW.COUNT : Fld := ⟨0x090, 0, 48⟩
def F.HI_LINK_STAT.MODE : Fld := ⟨0x040, 0, 2⟩
def F.HI_LINK_STAT.UP0 : Fld := ⟨0x040, 2, 1⟩
def F.HI_LINK_STAT.UP1 : Fld := ⟨0x040, 3, 1⟩
def F.HI_LINK_STAT.RATE : Fld := ⟨0x040, 4, 2⟩
def F.HI_LINK_STAT.FLIT256 : Fld := ⟨0x040, 6, 1⟩
def F.HI_LINK_STAT.IDE_IO : Fld := ⟨0x040, 7, 1⟩
def F.HI_LINK_STAT.IDE_CM : Fld := ⟨0x040, 8, 1⟩
def F.HI_LINK_STAT.WIDTH0 : Fld := ⟨0x040, 16, 5⟩
def F.HI_LINK_STAT.WIDTH1 : Fld := ⟨0x040, 21, 5⟩
def F.HI_LINK_CFG.BIFURCATE : Fld := ⟨0x048, 0, 1⟩
def F.HI_HDM_CTL.DB_EN : Fld := ⟨0x050, 0, 1⟩
def F.HI_HDM_CTL.COMMITTED : Fld := ⟨0x050, 1, 1⟩
def F.HI_SF_STAT.HELD : Fld := ⟨0x058, 0, 19⟩
def F.HI_BISNP_CNT.COUNT : Fld := ⟨0x060, 0, 48⟩
def F.HI_POISON_CNT.COUNT : Fld := ⟨0x068, 0, 32⟩
def F.HI_ERR_LAST.VALID : Fld := ⟨0x070, 0, 1⟩
def F.HI_ERR_LAST.CAUSE : Fld := ⟨0x070, 1, 3⟩
def F.HI_ERR_LAST.LINK : Fld := ⟨0x070, 4, 1⟩
def F.HI_ERR_LAST.TIME : Fld := ⟨0x070, 32, 32⟩
def F.TG_SEL.GATE : Fld := ⟨0x040, 0, 4⟩
def F.TG_STAT.OP : Fld := ⟨0x048, 0, 2⟩
def F.TG_STAT.STOPPED : Fld := ⟨0x048, 2, 1⟩
def F.TG_STAT.GRAIN : Fld := ⟨0x048, 3, 7⟩
def F.TG_STAT.TOKENS : Fld := ⟨0x048, 16, 16⟩
def F.TG_STAT.DATA0 : Fld := ⟨0x048, 32, 8⟩
def F.TG_STAT.DATA1 : Fld := ⟨0x048, 40, 8⟩
def F.TG_GRAIN_CNT.COUNT : Fld := ⟨0x050, 0, 32⟩
def F.TG_DROP_CNT.COUNT : Fld := ⟨0x058, 0, 32⟩
def F.IO_DESC_SEL.DESC : Fld := ⟨0x060, 0, 8⟩
def F.IO_DESC_ADDR.ADDR : Fld := ⟨0x068, 0, 64⟩
def F.TR_STAT.EPOCH : Fld := ⟨0x040, 0, 2⟩
def F.TR_STAT.PLAN : Fld := ⟨0x040, 2, 1⟩
def F.TR_STAT.PHASE : Fld := ⟨0x040, 3, 3⟩
def F.TR_STAT.PLAN_ID : Fld := ⟨0x040, 32, 32⟩
def F.TR_FLUSH_CNT.COUNT : Fld := ⟨0x058, 0, 32⟩
def F.TR_STALE_CNT.COUNT : Fld := ⟨0x060, 0, 32⟩
def F.TR_SLOT_SEL.POS : Fld := ⟨0x080, 0, 10⟩
def F.TR_SLOT_SEL.OUTPUT : Fld := ⟨0x080, 10, 4⟩
def F.TR_SLOT_SEL.SLOT : Fld := ⟨0x080, 14, 5⟩
def F.TR_SLOT_DATA.ENTRY : Fld := ⟨0x088, 0, 32⟩
def F.KY_PORT_CTL.MODE : Fld := ⟨0x040, 0, 1⟩
def F.KY_PORT_CTL.RETRY_LIMIT : Fld := ⟨0x040, 8, 5⟩
def F.KY_PORT_CTL.RETRAIN_MAX : Fld := ⟨0x040, 13, 3⟩
def F.KY_PORT_CTL.STARVE_US : Fld := ⟨0x040, 32, 16⟩
def F.KY_PORT_STAT.LINK : Fld := ⟨0x048, 0, 2⟩
def F.KY_PORT_STAT.LANES : Fld := ⟨0x048, 2, 3⟩
def F.KY_PORT_STAT.SLOW : Fld := ⟨0x048, 5, 1⟩
def F.KY_PORT_STAT.LANE_USED : Fld := ⟨0x048, 8, 4⟩
def F.KY_PORT_STAT.PARTNER : Fld := ⟨0x048, 32, 17⟩
def F.KY_FEC_CORR_CNT.COUNT : Fld := ⟨0x050, 0, 48⟩
def F.KY_FEC_UNCORR_CNT.COUNT : Fld := ⟨0x058, 0, 32⟩
def F.KY_REPLAY_CNT.COUNT : Fld := ⟨0x060, 0, 32⟩
def F.KY_RETRAIN_CNT.COUNT : Fld := ⟨0x068, 0, 32⟩
def F.KY_TX_BYTES.COUNT : Fld := ⟨0x070, 0, 48⟩
def F.KY_RX_BYTES.COUNT : Fld := ⟨0x078, 0, 48⟩
def F.KY_VC_SEL.VC : Fld := ⟨0x080, 0, 2⟩
def F.KY_VC_DATA.CREDITS : Fld := ⟨0x088, 0, 16⟩
def F.KY_VC_DATA.DEPTH : Fld := ⟨0x088, 16, 16⟩
def F.KY_VC_DATA.OCC : Fld := ⟨0x088, 32, 16⟩
def F.KY_GW_MAC.MAC : Fld := ⟨0x090, 0, 48⟩
def F.KY_WIN_SEL.WIN : Fld := ⟨0x040, 0, 10⟩
def F.KY_WIN_CTL.OPEN : Fld := ⟨0x048, 0, 1⟩
def F.KY_WIN_CTL.TGT : Fld := ⟨0x048, 1, 1⟩
def F.KY_WIN_CTL.SPAN : Fld := ⟨0x048, 8, 3⟩
def F.KY_WIN_BASE.BASE : Fld := ⟨0x050, 0, 64⟩
def F.KY_WIN_SIZE.BYTES : Fld := ⟨0x058, 0, 48⟩
def F.KY_WIN_KEY.KEY : Fld := ⟨0x060, 0, 32⟩
def F.KY_WIN_COUNT.COUNT : Fld := ⟨0x068, 0, 32⟩
def F.KY_WIN_BYTES.BYTES : Fld := ⟨0x070, 0, 48⟩
def F.KY_WIN_REFUSED.COUNT : Fld := ⟨0x078, 0, 32⟩
def F.KY_DEV_ID.ID : Fld := ⟨0x040, 0, 17⟩
def F.KY_CTL.POLICY_STRIKES : Fld := ⟨0x048, 0, 4⟩
def F.KY_CTL.HOP_LIMIT : Fld := ⟨0x048, 4, 4⟩
def F.KY_RT_INDEX.INDEX : Fld := ⟨0x050, 0, 17⟩
def F.KY_RT_INDEX.AUTO_INC : Fld := ⟨0x050, 32, 1⟩
def F.KY_RT_DATA.ENTRY : Fld := ⟨0x058, 0, 32⟩
def F.KY_RATE.GBPS : Fld := ⟨0x060, 0, 12⟩
def F.KY_RATE.BURST_KIB : Fld := ⟨0x060, 16, 16⟩
def F.KY_REFUSE_LAST.VALID : Fld := ⟨0x068, 0, 1⟩
def F.KY_REFUSE_LAST.REASON : Fld := ⟨0x068, 1, 3⟩
def F.KY_REFUSE_LAST.WIN : Fld := ⟨0x068, 4, 10⟩
def F.KY_REFUSE_LAST.SRC : Fld := ⟨0x068, 14, 17⟩
def F.KY_REFUSE_LAST.TIME : Fld := ⟨0x068, 32, 32⟩
def F.KY_QUAR_DROP_CNT.COUNT : Fld := ⟨0x070, 0, 32⟩
def F.KY_HOP_DROP_CNT.COUNT : Fld := ⟨0x078, 0, 32⟩
def F.KY_BAD_FRAME_CNT.COUNT : Fld := ⟨0x080, 0, 32⟩
def F.KY_IP_PREFIX.PREFIX : Fld := ⟨0x088, 0, 64⟩
def F.KY_UDP.PORT : Fld := ⟨0x090, 0, 16⟩
def F.KY_UDP.DSCP : Fld := ⟨0x090, 16, 6⟩
def F.KY_E2E.RTO_US : Fld := ⟨0x098, 0, 16⟩
def F.KY_E2E.RETRY : Fld := ⟨0x098, 16, 4⟩
def F.KY_TIME_CTL.MASTER : Fld := ⟨0x0a0, 0, 1⟩
def F.KY_TIME_CTL.UPSTREAM : Fld := ⟨0x0a0, 8, 5⟩
def F.KY_TIME_CTL.PERIOD_US : Fld := ⟨0x0a0, 16, 16⟩
def F.KY_TIME_OFFSET.THETA : Fld := ⟨0x0a8, 0, 64⟩
def F.KY_VG_CTL.GROUP : Fld := ⟨0x0b0, 0, 6⟩
def F.KY_VG_CTL.JOIN : Fld := ⟨0x0b0, 8, 1⟩
def F.KY_VG_CTL.PERIOD_US : Fld := ⟨0x0b0, 16, 16⟩
def F.KY_VG_STALE_LIMIT.MICROS : Fld := ⟨0x0b8, 0, 32⟩
def F.LG_SEL.COUNTER : Fld := ⟨0x040, 0, 8⟩
def F.LG_SEL.AUTO_INC : Fld := ⟨0x040, 16, 1⟩
def F.LG_COUNTER.VALUE : Fld := ⟨0x048, 0, 32⟩
def F.LG_COUNTER.LIMIT : Fld := ⟨0x048, 32, 32⟩
def F.LG_START.START : Fld := ⟨0x050, 0, 32⟩
def F.LG_EXH_CNT.COUNT : Fld := ⟨0x058, 0, 32⟩
def F.LG_OP_CNT.COUNT : Fld := ⟨0x060, 0, 48⟩
def F.ME_CTL.GO : Fld := ⟨0x040, 0, 1⟩
def F.ME_CTL.STOP : Fld := ⟨0x040, 1, 1⟩
def F.ME_CTL.ENTRY : Fld := ⟨0x040, 4, 12⟩
def F.ME_STAT.BANK_A : Fld := ⟨0x048, 0, 2⟩
def F.ME_STAT.BANK_B : Fld := ⟨0x048, 2, 2⟩
def F.ME_STAT.SHADOW : Fld := ⟨0x048, 4, 2⟩
def F.ME_STAT.CELLS_HELD : Fld := ⟨0x048, 6, 1⟩
def F.ME_STAT.RUNNING : Fld := ⟨0x048, 7, 1⟩
def F.ME_STAT.GUARD_WAIT : Fld := ⟨0x048, 8, 1⟩
def F.ME_STAT.HALTED : Fld := ⟨0x048, 9, 1⟩
def F.ME_STAT.PC : Fld := ⟨0x048, 16, 12⟩
def F.ME_STAT.LOOP_DEPTH : Fld := ⟨0x048, 28, 3⟩
def F.ME_PROG_ADDR.ADDR : Fld := ⟨0x050, 0, 12⟩
def F.ME_PROG_ADDR.AUTO_INC : Fld := ⟨0x050, 16, 1⟩
def F.ME_PROG_LO.LO : Fld := ⟨0x058, 0, 64⟩
def F.ME_PROG_HI.HI : Fld := ⟨0x060, 0, 64⟩
def F.ME_INSTR_CNT.COUNT : Fld := ⟨0x068, 0, 48⟩
def F.ME_GUARD_CYC.COUNT : Fld := ⟨0x070, 0, 48⟩
def F.ME_BANK_CYC.COUNT : Fld := ⟨0x078, 0, 48⟩
def F.ME_FAULT.VALID : Fld := ⟨0x080, 0, 1⟩
def F.ME_FAULT.CAUSE : Fld := ⟨0x080, 1, 3⟩
def F.ME_FAULT.INSTR : Fld := ⟨0x080, 4, 12⟩
def F.ME_FAULT.SEQ : Fld := ⟨0x080, 32, 32⟩
def F.ME_BASE0.VALUE : Fld := ⟨0x088, 0, 19⟩
def F.ME_BASE1.VALUE : Fld := ⟨0x090, 0, 19⟩
def F.ME_BASE2.VALUE : Fld := ⟨0x098, 0, 19⟩
def F.ME_BASE3.VALUE : Fld := ⟨0x0a0, 0, 19⟩
def F.NM_CFG.ILV : Fld := ⟨0x040, 0, 1⟩
def F.NM_CFG.LOCAL_GRANULES : Fld := ⟨0x040, 16, 16⟩
def F.NM_PRESENT.STACKS : Fld := ⟨0x048, 0, 32⟩
def F.NM_SCRUB_PERIOD.HOURS : Fld := ⟨0x050, 0, 10⟩
def F.NM_SCRUB_PASS.PASS : Fld := ⟨0x058, 0, 16⟩
def F.NM_RET_CTL.AUTO : Fld := ⟨0x060, 0, 1⟩
def F.NM_RET_CTL.THRESH : Fld := ⟨0x060, 8, 8⟩
def F.NM_RET_CTL.WINDOW : Fld := ⟨0x060, 32, 10⟩
def F.NM_RET_CMD.GRANULE : Fld := ⟨0x068, 0, 16⟩
def F.NM_RET_CMD.STACK : Fld := ⟨0x068, 16, 5⟩
def F.NM_RET_CMD.GO : Fld := ⟨0x068, 32, 1⟩
def F.NM_RET_CAND.GRANULE : Fld := ⟨0x070, 0, 16⟩
def F.NM_RET_CAND.STACK : Fld := ⟨0x070, 16, 5⟩
def F.NM_RET_CAND.VALID : Fld := ⟨0x070, 31, 1⟩
def F.NM_RET_CAND.TIME : Fld := ⟨0x070, 32, 32⟩
def F.NM_ZERO_STAT.BUSY : Fld := ⟨0x078, 0, 1⟩
def F.NM_ZERO_STAT.DONE : Fld := ⟨0x078, 32, 32⟩
def F.NM_CH_STAT.PRESENT : Fld := ⟨0x040, 0, 1⟩
def F.NM_CH_STAT.RATE : Fld := ⟨0x040, 1, 2⟩
def F.NM_CH_STAT.MIGRATING : Fld := ⟨0x040, 3, 1⟩
def F.NM_CH_STAT.SPARES_FREE : Fld := ⟨0x040, 4, 6⟩
def F.NM_ECC_CTL.CMODE : Fld := ⟨0x048, 0, 2⟩
def F.NM_CE_CNT.COUNT : Fld := ⟨0x050, 0, 32⟩
def F.NM_UE_CNT.COUNT : Fld := ⟨0x058, 0, 32⟩
def F.NM_POISON_CNT.COUNT : Fld := ⟨0x060, 0, 32⟩
def F.NM_LINK_RETRY_CNT.COUNT : Fld := ⟨0x068, 0, 32⟩
def F.NM_REMAP_SEL.ENTRY : Fld := ⟨0x070, 0, 6⟩
def F.NM_REMAP_DATA.GRANULE : Fld := ⟨0x078, 0, 16⟩
def F.NM_REMAP_DATA.SPARE : Fld := ⟨0x078, 16, 6⟩
def F.NM_REMAP_DATA.VALID : Fld := ⟨0x078, 22, 1⟩
def F.NM_REMAP_DATA.CAUSE : Fld := ⟨0x078, 23, 2⟩
def F.NM_REMAP_DATA.TIME : Fld := ⟨0x078, 32, 32⟩
def F.FT_PT_BASE.LOC : Fld := ⟨0x040, 0, 1⟩
def F.FT_PT_BASE.BASE : Fld := ⟨0x040, 21, 43⟩
def F.FT_PT_INV.ALL : Fld := ⟨0x048, 0, 1⟩
def F.FT_PT_INV.PAGE : Fld := ⟨0x048, 1, 1⟩
def F.FT_PT_INV.BUSY : Fld := ⟨0x048, 2, 1⟩
def F.FT_PT_INV.ADDR : Fld := ⟨0x048, 21, 27⟩
def F.FT_TC_MISS_CNT.COUNT : Fld := ⟨0x050, 0, 48⟩
def F.FT_MAP_ERR.VALID : Fld := ⟨0x058, 0, 1⟩
def F.FT_MAP_ERR.CAUSE : Fld := ⟨0x058, 8, 8⟩
def F.FT_MAP_ERR.ADDR : Fld := ⟨0x058, 16, 48⟩
def F.FT_STORE_BASE.VALID : Fld := ⟨0x060, 0, 1⟩
def F.FT_STORE_BASE.BASE : Fld := ⟨0x060, 21, 43⟩
def F.PW_CAP.WATTS : Fld := ⟨0x040, 0, 12⟩
def F.PW_GOV_CTL.DIV_MIN : Fld := ⟨0x048, 0, 2⟩
def F.PW_GOV_CTL.DIV_MAX : Fld := ⟨0x048, 2, 2⟩
def F.PW_GOV_CTL.FIX : Fld := ⟨0x048, 4, 3⟩
def F.PW_GOV_CTL.PERIOD_US : Fld := ⟨0x048, 16, 16⟩
def F.PW_GOV_STAT.DIV : Fld := ⟨0x050, 0, 2⟩
def F.PW_GOV_STAT.CAP_UNMET : Fld := ⟨0x050, 2, 1⟩
def F.PW_GOV_STAT.THERMAL : Fld := ⟨0x050, 3, 1⟩
def F.PW_GOV_STAT.RAMPING : Fld := ⟨0x050, 4, 1⟩
def F.PW_GOV_STAT.LAST_W : Fld := ⟨0x050, 32, 12⟩
def F.PW_IN.WATTS : Fld := ⟨0x058, 0, 12⟩
def F.PW_IN.DECIVOLTS : Fld := ⟨0x058, 12, 12⟩
def F.PW_IN.DECIAMPS : Fld := ⟨0x058, 24, 12⟩
def F.PW_GOV_LOG_SEL.ENTRY : Fld := ⟨0x060, 0, 4⟩
def F.PW_GOV_LOG_SEL.TOTAL : Fld := ⟨0x060, 32, 32⟩
def F.PW_GOV_LOG_DATA.TIME : Fld := ⟨0x068, 0, 32⟩
def F.PW_GOV_LOG_DATA.OLD : Fld := ⟨0x068, 32, 2⟩
def F.PW_GOV_LOG_DATA.NEW : Fld := ⟨0x068, 34, 2⟩
def F.PW_GOV_LOG_DATA.REASON : Fld := ⟨0x068, 36, 3⟩
def F.PW_GOV_LOG_DATA.WATTS : Fld := ⟨0x068, 39, 12⟩
def F.PW_DROOP_CNT.COUNT : Fld := ⟨0x070, 0, 32⟩
def F.PW_TH_CTL.WARN_MARGIN : Fld := ⟨0x078, 0, 8⟩
def F.PW_TH_CTL.TH_DIV : Fld := ⟨0x078, 8, 2⟩
def F.PW_TH_CTL.TH_EN : Fld := ⟨0x078, 10, 1⟩
def F.PW_TH_SEL.SENSOR : Fld := ⟨0x080, 0, 7⟩
def F.PW_TH_DATA.TEMP : Fld := ⟨0x088, 0, 8⟩
def F.PW_TH_DATA.TRIP : Fld := ⟨0x088, 8, 8⟩
def F.PW_TH_DATA.VALID : Fld := ⟨0x088, 16, 1⟩
def F.PW_TH_MIN.MARGIN : Fld := ⟨0x090, 0, 8⟩
def F.PW_TH_MIN.SENSOR : Fld := ⟨0x090, 8, 7⟩
def F.PW_RESET_CAUSE.CAUSE : Fld := ⟨0x098, 0, 3⟩
def F.DK_RING_BASE.LOC : Fld := ⟨0x040, 0, 1⟩
def F.DK_RING_BASE.BASE : Fld := ⟨0x040, 12, 52⟩
def F.DK_RING_CFG.LOG2_SIZE : Fld := ⟨0x048, 0, 5⟩
def F.DK_RING_CFG.MSIX_VEC : Fld := ⟨0x048, 8, 6⟩
def F.DK_RING_CFG.COALESCE : Fld := ⟨0x048, 16, 8⟩
def F.DK_DOORBELL.TAIL : Fld := ⟨0x050, 0, 32⟩
def F.DK_HEAD.HEAD : Fld := ⟨0x058, 0, 32⟩
def F.DK_CPL_BASE.BASE : Fld := ⟨0x060, 12, 52⟩
def F.DK_CPL_CFG.LOG2_SIZE : Fld := ⟨0x068, 0, 5⟩
def F.DK_CPL_TAIL.TAIL : Fld := ⟨0x070, 0, 32⟩
def F.DK_CPL_HEAD.HEAD : Fld := ⟨0x078, 0, 32⟩
def F.DK_LAST_DONE.SEQ : Fld := ⟨0x080, 0, 32⟩
def F.DK_RING_CTL.EXPECT_SEQ : Fld := ⟨0x088, 0, 32⟩
def F.DK_RING_CTL.RESTART : Fld := ⟨0x088, 32, 1⟩
def F.DK_RING_STAT.STOPPED : Fld := ⟨0x090, 0, 1⟩
def F.DK_RING_STAT.DB_ERR : Fld := ⟨0x090, 1, 1⟩
def F.DK_RING_STAT.CPL_FULL : Fld := ⟨0x090, 2, 1⟩
def F.DK_RING_STAT.SEQ_ERR : Fld := ⟨0x090, 3, 1⟩
def F.SF_STAT.RUNNING : Fld := ⟨0x048, 7, 1⟩
def F.SF_STAT.GUARD_WAIT : Fld := ⟨0x048, 8, 1⟩
def F.SF_STAT.HALTED : Fld := ⟨0x048, 9, 1⟩
def F.SF_STAT.PC : Fld := ⟨0x048, 16, 12⟩
def F.SF_STAT.LOOP_DEPTH : Fld := ⟨0x048, 28, 3⟩
def F.SF_INSTR_CNT.COUNT : Fld := ⟨0x068, 0, 48⟩
def F.SF_GUARD_CYC.COUNT : Fld := ⟨0x070, 0, 48⟩
def F.SF_PREG_SEL.PREG : Fld := ⟨0x088, 0, 5⟩
def F.SF_PREG_DATA.VALUE : Fld := ⟨0x090, 0, 32⟩
def F.SF_UPD_CTL.SKIP : Fld := ⟨0x098, 0, 1⟩
def F.SF_UPD_CTL.SKIP_CNT : Fld := ⟨0x098, 32, 32⟩
def F.SF_CTL.GO : Fld := ⟨0x040, 0, 1⟩
def F.SF_CTL.STOP : Fld := ⟨0x040, 1, 1⟩
def F.SF_CTL.ENTRY : Fld := ⟨0x040, 4, 12⟩
def F.SF_PROG_ADDR.ADDR : Fld := ⟨0x050, 0, 12⟩
def F.SF_PROG_ADDR.AUTO_INC : Fld := ⟨0x050, 16, 1⟩
def F.SF_PROG_LO.LO : Fld := ⟨0x058, 0, 64⟩
def F.SF_PROG_HI.HI : Fld := ⟨0x060, 0, 64⟩
def F.SN_CTL.PAIR : Fld := ⟨0x040, 0, 1⟩
def F.SN_CTL.UNPAIR : Fld := ⟨0x040, 1, 1⟩
def F.SN_CTL.AUTO : Fld := ⟨0x040, 2, 1⟩
def F.SN_CTL.AUTO_GAP : Fld := ⟨0x040, 16, 16⟩
def F.SN_FEED.STRAP : Fld := ⟨0x048, 0, 16⟩
def F.SN_FEED.VALUE : Fld := ⟨0x048, 16, 16⟩
def F.SN_FEED.OVR : Fld := ⟨0x048, 32, 1⟩
def F.SN_BUDDY.ID : Fld := ⟨0x050, 0, 17⟩
def F.SN_BUDDY.WIN : Fld := ⟨0x050, 32, 10⟩
def F.SN_BUDDY_KEY.KEY : Fld := ⟨0x058, 0, 32⟩
def F.SN_HOST_WIN.WIN : Fld := ⟨0x060, 0, 10⟩
def F.SN_SLOT_BYTES.BYTES : Fld := ⟨0x068, 0, 48⟩
def F.SN_PAIR_FORCE.FORCE : Fld := ⟨0x070, 0, 1⟩
def F.SN_STAT.PAIRED : Fld := ⟨0x078, 0, 1⟩
def F.SN_STAT.SAME_FEED : Fld := ⟨0x078, 1, 1⟩
def F.SN_STAT.REFUSED_FEED : Fld := ⟨0x078, 2, 1⟩
def F.SN_STAT.CAPTURING : Fld := ⟨0x078, 3, 1⟩
def F.SN_STAT.SENDING : Fld := ⟨0x078, 4, 1⟩
def F.SN_STAT.NEXT_SLOT : Fld := ⟨0x078, 5, 1⟩
def F.SN_STAT.FAR_NEXT_SLOT : Fld := ⟨0x078, 6, 1⟩
def F.SN_STAT.AUTO_PEND : Fld := ⟨0x078, 7, 1⟩
def F.SN_STAT.BUDDY_OK : Fld := ⟨0x078, 8, 1⟩
def F.SN_STAT.FAR_OK : Fld := ⟨0x078, 9, 1⟩
def F.SN_STAT.PARTNER_FEED : Fld := ⟨0x078, 32, 16⟩
def F.SN_LAST.STEP : Fld := ⟨0x080, 0, 32⟩
def F.SN_LAST.TIME : Fld := ⟨0x080, 32, 32⟩
def F.SN_RATE.GBPS : Fld := ⟨0x088, 0, 12⟩
def F.SN_AUTO_DOCKET.LOC : Fld := ⟨0x090, 0, 1⟩
def F.SN_AUTO_DOCKET.BASE : Fld := ⟨0x090, 6, 58⟩
def F.SN_HOLD_NS.COUNT : Fld := ⟨0x098, 0, 48⟩
def F.SP_CHECK.ENABLE : Fld := ⟨0x040, 0, 1⟩
def F.SP_CHECK.INIT : Fld := ⟨0x040, 1, 1⟩
def F.SP_CHECK_EXEMPT.FIRST : Fld := ⟨0x048, 0, 14⟩
def F.SP_CHECK_EXEMPT.COUNT : Fld := ⟨0x048, 16, 15⟩
def F.SP_ORDER.VALID : Fld := ⟨0x050, 0, 1⟩
def F.SP_ORDER.KIND : Fld := ⟨0x050, 1, 1⟩
def F.SP_ORDER.PORT : Fld := ⟨0x050, 8, 3⟩
def F.SP_ORDER.ROW : Fld := ⟨0x050, 16, 14⟩
def F.SP_ORDER.TIME : Fld := ⟨0x050, 32, 32⟩
def F.SP_ORDER_CNT.COUNT : Fld := ⟨0x058, 0, 32⟩
def F.SP_RD_CNT.COUNT : Fld := ⟨0x060, 0, 48⟩
def F.SP_WR_CNT.COUNT : Fld := ⟨0x068, 0, 48⟩
def F.SP_NARROW_CNT.COUNT : Fld := ⟨0x070, 0, 48⟩
def F.SP_ECC_CNT.COUNT : Fld := ⟨0x078, 0, 32⟩
def F.SC_CTL.ALLOC : Fld := ⟨0x040, 0, 1⟩
def F.SC_CTL.FLUSH : Fld := ⟨0x040, 1, 1⟩
def F.SC_CTL.INVALIDATE : Fld := ⟨0x040, 2, 1⟩
def F.SC_CTL.BUSY : Fld := ⟨0x040, 3, 1⟩
def F.SC_RD_CNT.COUNT : Fld := ⟨0x048, 0, 48⟩
def F.SC_HIT_CNT.COUNT : Fld := ⟨0x050, 0, 48⟩
def F.SC_WB_CNT.COUNT : Fld := ⟨0x058, 0, 48⟩
def F.SC_ECC_CNT.COUNT : Fld := ⟨0x060, 0, 32⟩
def F.FC_PHASE.PHASE : Fld := ⟨0x040, 0, 2⟩
def F.FC_LOG_STAT.WPTR : Fld := ⟨0x048, 0, 9⟩
def F.FC_LOG_STAT.HELD : Fld := ⟨0x048, 10, 10⟩
def F.FC_LOG_STAT.OVERFLOW : Fld := ⟨0x048, 20, 1⟩
def F.FC_LOG_STAT.WARM : Fld := ⟨0x048, 21, 1⟩
def F.FC_OVF_CNT.COUNT : Fld := ⟨0x050, 0, 32⟩
def F.FC_REUSE_CNT.COUNT : Fld := ⟨0x058, 0, 32⟩
def F.FC_WRITE_CNT.COUNT : Fld := ⟨0x060, 0, 64⟩
def F.FC_DROP_CNT.COUNT : Fld := ⟨0x068, 0, 32⟩
def F.FC_LOG_SEL.SLOT : Fld := ⟨0x070, 0, 9⟩
def F.FC_LOG_SEL.AUTO_INC : Fld := ⟨0x070, 16, 1⟩
def F.FC_LOG_DATA0.LO : Fld := ⟨0x078, 0, 64⟩
def F.FC_LOG_DATA1.HI : Fld := ⟨0x080, 0, 64⟩
def F.FC_LOG_DATA2.STATE : Fld := ⟨0x088, 0, 2⟩
def F.FC_LOG_DATA2.STEP : Fld := ⟨0x088, 2, 2⟩
def F.FC_LOG_DATA2.FAILED : Fld := ⟨0x088, 4, 1⟩
def F.FC_LOG_DATA2.LATE : Fld := ⟨0x088, 5, 1⟩
def F.FC_LOG_DATA2.JOINED : Fld := ⟨0x088, 6, 1⟩
def F.FC_LOG_DATA2.DIRECT : Fld := ⟨0x088, 7, 1⟩
def F.FC_LOG_DATA2.RESOLVED : Fld := ⟨0x088, 32, 32⟩
def F.FC_ACK.SLOT : Fld := ⟨0x090, 0, 9⟩
def F.FC_REACT_SEL.KIND : Fld := ⟨0x098, 0, 10⟩
def F.FC_REACT_DATA.ENTRY : Fld := ⟨0x0a0, 0, 64⟩
def F.FC_RECUR.MICROS : Fld := ⟨0x0a8, 0, 16⟩
def F.FC_ERR_PIN_CTL.DRIVE : Fld := ⟨0x0b0, 0, 1⟩
def F.FC_ERR_PIN_CTL.ARMED : Fld := ⟨0x0b0, 1, 1⟩
def F.FC_ERR_PIN_CTL.PULSING : Fld := ⟨0x0b0, 2, 1⟩
def F.FC_ERR_PIN_CTL.LOW : Fld := ⟨0x0b0, 3, 1⟩
def F.FC_ERR_PIN_CTL.ERR_PULSE_MIN : Fld := ⟨0x0b0, 16, 10⟩
def F.FC_LADDER_STAT.ACTIVE : Fld := ⟨0x0b8, 0, 5⟩
def F.TR_WATCHDOG.LIMIT : Fld := ⟨0x048, 0, 24⟩
def F.TR_SEAL_TIMEOUT.LIMIT : Fld := ⟨0x050, 0, 24⟩
def F.TR_STALL_LAST.POS : Fld := ⟨0x068, 0, 10⟩
def F.TR_STALL_LAST.PORT : Fld := ⟨0x068, 10, 6⟩
def F.TR_STALL_LAST.OUT : Fld := ⟨0x068, 16, 1⟩
def F.TR_STALL_LAST.TIME : Fld := ⟨0x068, 32, 32⟩
def F.TR_STALL_CNT.COUNT : Fld := ⟨0x070, 0, 32⟩
def F.TR_CREDIT_CNT.COUNT : Fld := ⟨0x078, 0, 32⟩
def F.TR_QUEUE_SEL.POS : Fld := ⟨0x090, 0, 10⟩
def F.TR_QUEUE_SEL.PORT : Fld := ⟨0x090, 10, 6⟩
def F.TR_QUEUE_DATA.OCC : Fld := ⟨0x098, 0, 8⟩
def F.TR_QUEUE_DATA.DEPTH : Fld := ⟨0x098, 8, 8⟩
def F.TR_QUEUE_DATA.CREDITS : Fld := ⟨0x098, 16, 8⟩
def F.TR_QUEUE_DATA.HELD : Fld := ⟨0x098, 24, 1⟩
def F.TR_QUEUE_DATA.COUNT : Fld := ⟨0x098, 32, 24⟩
def F.VG_STALE.STALE : Fld := ⟨0x040, 0, 18⟩
def F.VG_AGE_NS.AGE : Fld := ⟨0x048, 0, 64⟩
def F.VG_FAULT_CNT.FAULTS : Fld := ⟨0x050, 0, 64⟩

/-- The registers of 02 *The common header*. -/
def rowsHeader : List Row :=
  [⟨F.UNIT_CTL.ENABLE, .rw, 0, 0, 1⟩,
   ⟨F.UNIT_CTL.BLOCK_RESET, .wo, 0, 0, 1⟩,
   ⟨F.UNIT_CTL.FENCE, .wo, 0, 0, 1⟩,
   ⟨F.UNIT_CTL.RELEASE, .wo, 0, 0, 1⟩,
   ⟨F.UNIT_STAT.STATE, .ro, 0, 0, 7⟩,
   ⟨F.UNIT_STAT.PEND_EN, .ro, 0, 0, 1⟩,
   ⟨F.UNIT_STAT.SPARED, .ro, 0, 0, 1⟩,
   ⟨F.UNIT_STAT.ERR, .ro, 0, 0, 1⟩,
   ⟨F.UNIT_STAT.SUB_ERR, .ro, 0, 0, 1⟩,
   ⟨F.UNIT_STAT.STATE_TIME, .ro, 0, 0, 4294967295⟩,
   ⟨F.UNIT_ERR.ILLEGAL_WRITE, .w1c, 0, 0, 1⟩,
   ⟨F.UNIT_ERR_EN.ILLEGAL_WRITE, .rw, 1, 0, 1⟩,
   ⟨F.UNIT_ERR.STATE_CMD, .w1c, 0, 0, 1⟩,
   ⟨F.UNIT_ERR_EN.STATE_CMD, .rw, 1, 0, 1⟩,
   ⟨F.UNIT_ERR.ACCESS_SIZE, .w1c, 0, 0, 1⟩,
   ⟨F.UNIT_ERR_EN.ACCESS_SIZE, .rw, 1, 0, 1⟩,
   ⟨F.UNIT_ERR.DRAIN_TIMEOUT, .w1c, 0, 0, 1⟩,
   ⟨F.UNIT_ERR_EN.DRAIN_TIMEOUT, .rw, 1, 0, 1⟩,
   ⟨F.UNIT_ERR.BLOCK_ERR, .w1c, 0, 0, 4294967295⟩,
   ⟨F.UNIT_ERR_EN.BLOCK_ERR, .rw, 4294967295, 0, 4294967295⟩] ++
  [⟨F.UNIT_SCRATCH.SCRATCH, .rw, 0, 0, 18446744073709551615⟩]

/-- The registers of 03 R183, R237 and 07 R556. -/
def rowsNumeric : List Row :=
  [⟨F.NUMCTL.RMODE, .rw, 0, 0, 2⟩,
   ⟨F.NUMCTL.SATMODE, .rw, 0, 0, 1⟩,
   ⟨F.NUMCTL.NAN_ACTION, .rw, 0, 0, 1⟩,
   ⟨F.NUMCTL.TRAP_INF, .rw, 1, 0, 1⟩,
   ⟨F.OVF_CNT.COUNT, .rc, 0, 0, 4294967295⟩,
   ⟨F.UNF_CNT.COUNT, .rc, 0, 0, 4294967295⟩,
   ⟨F.TRAP0.VALID, .w1c, 0, 0, 1⟩,
   ⟨F.TRAP0.HALTED, .ro, 0, 0, 1⟩,
   ⟨F.TRAP0.KIND, .ro, 0, 0, 3⟩,
   ⟨F.TRAP0.FORMAT, .ro, 0, 0, 15⟩,
   ⟨F.TRAP0.OPERAND, .ro, 0, 0, 3⟩,
   ⟨F.TRAP0.UNIT_PATH, .ro, 0, 0, 65535⟩,
   ⟨F.TRAP0.SEQ, .ro, 0, 0, 4294967295⟩,
   ⟨F.TRAP1.RING, .ro, 0, 0, 255⟩,
   ⟨F.TRAP1.INSTR, .ro, 0, 0, 4095⟩,
   ⟨F.TRAP1.MB, .ro, 0, 0, 65535⟩,
   ⟨F.TRAP2.M, .ro, 0, 0, 65535⟩,
   ⟨F.TRAP2.N, .ro, 0, 0, 65535⟩,
   ⟨F.TRAP2.K, .ro, 0, 0, 65535⟩,
   ⟨F.TRAP3.TIME, .ro, 0, 0, 4294967295⟩] ++
  [⟨F.TRAP3.NONFIN_CNT, .ro, 0, 0, 4294967295⟩,
   ⟨F.RNG_SEED.SEED, .rw, 0, 0, 18446744073709551615⟩,
   ⟨F.RNG_STREAM.STREAM, .rw, 0, 0, 18446744073709551615⟩,
   ⟨F.RNG_POS.POS, .rw, 0, 0, 18446744073709551615⟩]

/-- The registers of 07 R537 with 03 R237. -/
def rowsClerkTrap : List Row :=
  [⟨F.TRAP0.VALID, .w1c, 0, 0, 1⟩,
   ⟨F.TRAP0.HALTED, .ro, 0, 0, 1⟩,
   ⟨F.TRAP0.KIND, .ro, 0, 0, 3⟩,
   ⟨F.TRAP0.FORMAT, .ro, 0, 0, 15⟩,
   ⟨F.TRAP0.OPERAND, .ro, 0, 0, 3⟩,
   ⟨F.TRAP0.UNIT_PATH, .ro, 0, 0, 65535⟩,
   ⟨F.TRAP0.SEQ, .ro, 0, 0, 4294967295⟩,
   ⟨F.TRAP1.RING, .ro, 0, 0, 255⟩,
   ⟨F.TRAP1.INSTR, .ro, 0, 0, 4095⟩,
   ⟨F.TRAP1.MB, .ro, 0, 0, 65535⟩,
   ⟨F.TRAP2.M, .ro, 0, 0, 65535⟩,
   ⟨F.TRAP2.N, .ro, 0, 0, 65535⟩,
   ⟨F.TRAP2.K, .ro, 0, 0, 65535⟩,
   ⟨F.TRAP3.TIME, .ro, 0, 0, 4294967295⟩,
   ⟨F.TRAP3.NONFIN_CNT, .ro, 0, 0, 4294967295⟩]

/-- The registers of 04 R311. -/
def rowsSpare : List Row :=
  [⟨F.ME_REMAP.ACTIVE, .ro, 0, 0, 1⟩,
   ⟨F.ME_REMAP.AUTO, .rw, 1, 0, 1⟩,
   ⟨F.ME_REMAP.HOST_SUB, .wo, 0, 0, 1⟩,
   ⟨F.ME_REMAP.HOST_REL, .wo, 0, 0, 1⟩,
   ⟨F.ME_REMAP.TGT_BAY, .rw, 0, 0, 3⟩,
   ⟨F.ME_REMAP.TGT_ENG, .rw, 0, 0, 2⟩,
   ⟨F.ME_REMAP.SERVED, .ro, 0, 0, 65535⟩,
   ⟨F.ME_REMAP.CAUSE, .ro, 0, 0, 3⟩,
   ⟨F.ME_REMAP_TIME.TIME, .ro, 0, 0, 18446744073709551615⟩]

/-- The registers of 03 R205. -/
def rowsAmaxTable : List Row :=
  [⟨F.CH_AMAX_INDEX.INDEX, .rw, 0, 0, 4095⟩,
   ⟨F.CH_AMAX_INDEX.AUTO_INC, .rw, 0, 0, 1⟩,
   ⟨F.CH_AMAX_ROLL.FIRST, .rw, 0, 0, 4095⟩,
   ⟨F.CH_AMAX_ROLL.LAST, .rw, 0, 0, 4095⟩,
   ⟨F.CH_AMAX_ROLL.GO, .wo, 0, 0, 1⟩,
   ⟨F.CH_AMAX_ROLL.BUSY, .ro, 0, 0, 1⟩,
   ⟨F.CH_AMAX_DATA0.WORD0, .rw, 0, 0, 18446744073709551615⟩,
   ⟨F.CH_AMAX_DATA1.WORD1, .rw, 0, 0, 18446744073709551615⟩,
   ⟨F.CH_AMAX_DATA2.WORD2, .rw, 0, 0, 18446744073709551615⟩,
   ⟨F.CH_AMAX_DATA3.WORD3, .rw, 0, 0, 18446744073709551615⟩]

/-- The registers of 12 R946. -/
def rowsAssayer : List Row :=
  [⟨F.AS_CTL.ADV_EN, .rw, 1, 0, 1⟩,
   ⟨F.AS_CTL.SNAP_EN, .rw, 1, 0, 1⟩,
   ⟨F.AS_CTL.EVAC_EN, .rw, 1, 0, 1⟩,
   ⟨F.AS_CTL.DECAY, .rw, 3, 1, 15⟩,
   ⟨F.AS_CTL.WINDOW_MS, .rw, 1000, 10, 60000⟩,
   ⟨F.AS_WEIGHT0.W_CE, .rw, 16, 0, 65535⟩,
   ⟨F.AS_WEIGHT0.W_RETRAIN, .rw, 1024, 0, 65535⟩,
   ⟨F.AS_WEIGHT0.W_DROOP, .rw, 256, 0, 65535⟩,
   ⟨F.AS_WEIGHT0.W_STALL, .rw, 128, 0, 65535⟩,
   ⟨F.AS_WEIGHT1.W_BIFAIL, .rw, 16384, 0, 65535⟩,
   ⟨F.AS_WEIGHT1.W_BIREPAIR, .rw, 2048, 0, 65535⟩,
   ⟨F.AS_WEIGHT1.W_TEMP, .rw, 512, 0, 65535⟩,
   ⟨F.AS_WEIGHT1.FEED_TERM, .rw, 2048, 0, 65535⟩,
   ⟨F.AS_THRESH.ADVISE, .rw, 8192, 0, 65535⟩,
   ⟨F.AS_THRESH.SNAPSHOT, .rw, 16384, 0, 65535⟩,
   ⟨F.AS_THRESH.EVACUATE, .rw, 32768, 0, 65535⟩,
   ⟨F.AS_THRESH.TEMP_REF, .rw, 20, 0, 255⟩,
   ⟨F.AS_RISK.RISK, .ro, 0, 0, 65535⟩,
   ⟨F.AS_RISK.SUM, .ro, 0, 0, 65535⟩,
   ⟨F.AS_RISK.ADV_HI, .ro, 0, 0, 1⟩] ++
  [⟨F.AS_RISK.SNAP_HI, .ro, 0, 0, 1⟩,
   ⟨F.AS_RISK.EVAC_HI, .ro, 0, 0, 1⟩,
   ⟨F.AS_RISK.EVAC_REQ, .w1c, 0, 0, 1⟩,
   ⟨F.AS_OVERRIDE.VALUE, .rw, 0, 0, 65535⟩,
   ⟨F.AS_OVERRIDE.EN, .rw, 0, 0, 1⟩,
   ⟨F.AS_CNT_SEL.INPUT, .rw, 0, 0, 5⟩,
   ⟨F.AS_CNT_DATA.LAST, .ro, 0, 0, 4294967295⟩,
   ⟨F.AS_CNT_DATA.CUR, .ro, 0, 0, 4294967295⟩,
   ⟨F.AS_TEMP.MARGIN, .ro, 0, 0, 255⟩,
   ⟨F.AS_LOG_SEL.ENTRY, .rw, 0, 0, 15⟩,
   ⟨F.AS_LOG_SEL.TOTAL, .ro, 0, 0, 4294967295⟩,
   ⟨F.AS_LOG_DATA.TIME, .ro, 0, 0, 4294967295⟩,
   ⟨F.AS_LOG_DATA.RISK, .ro, 0, 0, 65535⟩,
   ⟨F.AS_LOG_DATA.ACTION, .ro, 0, 0, 7⟩,
   ⟨F.AS_LOG_DATA.SUPPRESSED, .ro, 0, 0, 1⟩,
   ⟨F.AS_LOG_DATA.OVERRIDDEN, .ro, 0, 0, 1⟩]

/-- The registers of 11 R900. -/
def rowsBist : List Row :=
  [⟨F.BI_CTL.AUTO, .rw, 1, 0, 1⟩,
   ⟨F.BI_CTL.AUTO_REPAIR, .rw, 1, 0, 1⟩,
   ⟨F.BI_SLICE_BUDGET.MICROS, .rw, 50, 5, 200⟩,
   ⟨F.BI_IDLE_MIN.MICROS, .rw, 10, 1, 1000⟩,
   ⟨F.BI_COVER.HOURS, .rw, 6, 1, 168⟩,
   ⟨F.BI_RUN_CNT.COUNT, .rc, 0, 0, 281474976710655⟩,
   ⟨F.BI_ABANDON_CNT.COUNT, .rc, 0, 0, 4294967295⟩,
   ⟨F.BI_FAIL_CNT.COUNT, .rc, 0, 0, 4294967295⟩,
   ⟨F.BI_UNIT_SEL.PATH, .rw, 0, 0, 65535⟩,
   ⟨F.BI_UNIT_DATA.DONE, .ro, 0, 0, 65535⟩,
   ⟨F.BI_UNIT_DATA.TOTAL, .ro, 0, 0, 65535⟩,
   ⟨F.BI_UNIT_DATA.AGE, .ro, 0, 0, 65535⟩,
   ⟨F.BI_FAIL_LAST.VALID, .w1c, 0, 0, 1⟩,
   ⟨F.BI_FAIL_LAST.REPAIRED, .ro, 0, 0, 1⟩,
   ⟨F.BI_FAIL_LAST.PATH, .ro, 0, 0, 65535⟩,
   ⟨F.BI_FAIL_LAST.TIME, .ro, 0, 0, 4294967295⟩,
   ⟨F.BI_FUSE_PEND.COUNT, .ro, 0, 0, 511⟩,
   ⟨F.BI_FUSE_PEND.FULL, .ro, 0, 0, 1⟩]

/-- The registers of 13 R1018 and 15 R1078. -/
def rowsBootUnit : List Row :=
  [⟨F.BT_STAT.STEP, .ro, 0, 0, 7⟩,
   ⟨F.BT_STAT.READY, .ro, 0, 0, 1⟩,
   ⟨F.BT_STAT.STOPPED, .ro, 0, 0, 1⟩,
   ⟨F.BT_STAT.IMAGE, .ro, 0, 0, 1⟩,
   ⟨F.BT_STAT.KEY_SLOT, .ro, 0, 0, 3⟩,
   ⟨F.BT_STAT.MAINT, .ro, 0, 0, 1⟩,
   ⟨F.BT_STAT.BOOT, .ro, 0, 0, 4294967295⟩,
   ⟨F.BT_SVN.IMAGE_SVN, .ro, 0, 0, 4294967295⟩,
   ⟨F.BT_SVN.FUSE_SVN, .ro, 0, 0, 127⟩,
   ⟨F.BT_CTL.NEXT_IMAGE, .rw, 0, 0, 1⟩,
   ⟨F.BT_CTL.MAINT_NEXT, .w1s, 0, 0, 1⟩,
   ⟨F.BT_CTL.SVN_COMMIT, .w1s, 0, 0, 1⟩,
   ⟨F.BT_CTL.CLEAR_LEVELS, .wo, 0, 0, 1⟩,
   ⟨F.BT_CTL.REVOKE, .rw, 0, 0, 3⟩,
   ⟨F.BT_MAX_ATTEMPTS.COUNT, .rw, 3, 1, 7⟩,
   ⟨F.BT_KEY_STAT.PROGRAMMED, .ro, 7, 0, 7⟩,
   ⟨F.BT_KEY_STAT.REVOKED, .ro, 0, 0, 7⟩,
   ⟨F.BT_JRNL_SEL.RECORD, .rw, 0, 0, 4095⟩,
   ⟨F.BT_JRNL_DATA0.LO, .ro, 0, 0, 18446744073709551615⟩,
   ⟨F.BT_JRNL_DATA1.HI, .ro, 0, 0, 18446744073709551615⟩] ++
  [⟨F.BT_LEVEL_SEL.RESOURCE, .rw, 0, 0, 59⟩,
   ⟨F.BT_LEVEL_DATA.LEVEL, .ro, 0, 0, 7⟩,
   ⟨F.BT_LEVEL_DATA.SKIPPED, .ro, 0, 0, 1⟩,
   ⟨F.BT_LEVEL_DATA.BOOT, .ro, 0, 0, 4294967295⟩,
   ⟨F.BT_STRAPS.SLOT_ID, .ro, 0, 0, 63⟩,
   ⟨F.BT_STRAPS.MGMT_SEL, .ro, 0, 0, 1⟩,
   ⟨F.BT_STRAPS.DBG_EN, .ro, 0, 0, 1⟩,
   ⟨F.BT_STRAPS.FEED_ID, .ro, 0, 0, 255⟩]

/-- The registers of 08 R672. -/
def rowsCarter : List Row :=
  [⟨F.CA_LEAD_MIN.ROWS, .rw, 1024, 256, 65536⟩,
   ⟨F.CA_LEAD_MAX.ROWS, .rw, 32768, 256, 65536⟩,
   ⟨F.CA_LEAD_FIX.ROWS, .rw, 0, 0, 65536⟩,
   ⟨F.CA_LEAD.ROWS, .ro, 1024, 0, 131071⟩,
   ⟨F.CA_LEAD.LAT_P, .ro, 0, 0, 4294967295⟩,
   ⟨F.CA_ADAPT_PERIOD.MICROS, .rw, 100, 10, 10000⟩,
   ⟨F.CA_STALL_LIMIT.MICROS, .rw, 200, 1, 1000000⟩,
   ⟨F.CA_STALL_SEL.TIER, .rw, 0, 0, 2⟩,
   ⟨F.CA_STALL_SEL.CAUSE, .rw, 0, 0, 6⟩,
   ⟨F.CA_STALL_EVT.COUNT, .rc, 0, 0, 4294967295⟩,
   ⟨F.CA_STALL_NS.COUNT, .rc, 0, 0, 281474976710655⟩,
   ⟨F.CA_ADJ_SEL.ENTRY, .rw, 0, 0, 63⟩,
   ⟨F.CA_ADJ_SEL.TOTAL, .ro, 0, 0, 4294967295⟩,
   ⟨F.CA_ADJ_DATA0.TIME, .ro, 0, 0, 4294967295⟩,
   ⟨F.CA_ADJ_DATA0.OLD, .ro, 0, 0, 131071⟩,
   ⟨F.CA_ADJ_DATA1.NEW, .ro, 0, 0, 131071⟩,
   ⟨F.CA_ADJ_DATA1.REASON, .ro, 0, 0, 3⟩,
   ⟨F.CA_ADJ_DATA1.LAT_P, .ro, 0, 0, 4294967295⟩,
   ⟨F.CA_ADJ_DATA2.RATE, .ro, 0, 0, 4294967295⟩,
   ⟨F.CA_WIN_SEL.WIN, .rw, 0, 0, 1023⟩] ++
  [⟨F.CA_WIN_STAT.DELIV, .ro, 0, 0, 4294967295⟩,
   ⟨F.CA_WIN_STAT.DECLARED, .ro, 0, 0, 1⟩,
   ⟨F.CA_WIN_STAT.FILLING, .ro, 0, 0, 1⟩,
   ⟨F.CA_WIN_STAT.READERS, .ro, 0, 0, 63⟩,
   ⟨F.CA_WIN_STAT.HOLDING, .ro, 0, 0, 63⟩]

/-- The registers of 07 R537. -/
def rowsClerk : List Row :=
  [⟨F.GC_CTL.GO, .wo, 0, 0, 1⟩,
   ⟨F.GC_CTL.STOP, .wo, 0, 0, 1⟩,
   ⟨F.GC_CTL.TRAP_HALT, .rw, 1, 0, 1⟩,
   ⟨F.GC_CTL.ENTRY, .rw, 0, 0, 4294967295⟩,
   ⟨F.GC_STAT.RUNNING, .ro, 0, 0, 1⟩,
   ⟨F.GC_STAT.WAITING, .ro, 0, 0, 1⟩,
   ⟨F.GC_STAT.HALTED, .ro, 0, 0, 1⟩,
   ⟨F.GC_STAT.IDLE, .ro, 1, 0, 1⟩,
   ⟨F.GC_STAT.MOVES, .ro, 0, 0, 15⟩,
   ⟨F.GC_STAT.PC, .ro, 0, 0, 4294967295⟩,
   ⟨F.GC_FAULT.VALID, .w1c, 0, 0, 1⟩,
   ⟨F.GC_FAULT.CAUSE, .ro, 0, 0, 255⟩,
   ⟨F.GC_FAULT.XCODE, .ro, 0, 0, 255⟩,
   ⟨F.GC_FAULT.PC, .ro, 0, 0, 4294967295⟩,
   ⟨F.GC_NUMCTL.NAN_ACTION, .rw, 0, 0, 1⟩,
   ⟨F.GC_NUMCTL.TRAP_INF, .rw, 1, 0, 1⟩,
   ⟨F.GC_TRAP_PC.PC, .ro, 0, 0, 18446744073709551615⟩]

/-- The registers of 14 R1057. -/
def rowsClocks : List Row :=
  [⟨F.CK_STAT.REF_OK, .ro, 0, 0, 1⟩,
   ⟨F.CK_STAT.VCO_LOCK, .ro, 0, 0, 1⟩,
   ⟨F.CK_STAT.FALLBACK, .ro, 0, 0, 1⟩,
   ⟨F.CK_STAT.DIV, .ro, 0, 0, 3⟩,
   ⟨F.CK_PHY_LOCK0.G7, .ro, 0, 0, 4294967295⟩,
   ⟨F.CK_PHY_LOCK1.KY, .ro, 0, 0, 16777215⟩,
   ⟨F.CK_PHY_LOCK1.CXL, .ro, 0, 0, 3⟩,
   ⟨F.CK_UNLOCK_CNT.COUNT, .rc, 0, 0, 4294967295⟩]

/-- The registers of 10 R816. -/
def rowsCountingHouse : List Row :=
  [⟨F.CH_CTL.SATMODE, .rw, 0, 0, 1⟩,
   ⟨F.CH_CTL.TIMEOUT_MS, .rw, 100, 1, 60000⟩,
   ⟨F.CH_GRP_SEL.GROUP, .rw, 0, 0, 63⟩,
   ⟨F.CH_GRP_CFG.MEMBERS, .rw, 0, 1, 131072⟩,
   ⟨F.CH_GRP_CFG.RANK, .rw, 0, 0, 131071⟩,
   ⟨F.CH_GRP_CFG.WIN, .rw, 0, 0, 1023⟩,
   ⟨F.CH_GRP_CFG.STRANDS, .rw, 24, 1, 24⟩,
   ⟨F.CH_GRP_CFG.VALID, .rw, 0, 0, 1⟩,
   ⟨F.CH_GRP_CFG.VIADUCT, .ro, 0, 0, 1⟩,
   ⟨F.CH_GRP_LIST.LOC, .rw, 0, 0, 1⟩,
   ⟨F.CH_GRP_LIST.BASE, .rw, 0, 0, 4503599627370495⟩,
   ⟨F.CH_GRP_KEY.KEY, .wo, 0, 0, 4294967295⟩,
   ⟨F.CH_GRP_SEQ.SEQ, .ro, 0, 0, 4294967295⟩,
   ⟨F.CH_ERR.VALID, .w1c, 0, 0, 1⟩,
   ⟨F.CH_ERR.CAUSE, .ro, 0, 0, 7⟩,
   ⟨F.CH_ERR.MEMBER, .ro, 0, 0, 131071⟩,
   ⟨F.CH_NONFIN_CNT.COUNT, .rc, 0, 0, 4294967295⟩,
   ⟨F.CH_TX_BYTES.COUNT, .rc, 0, 0, 281474976710655⟩]

/-- The registers of 02 DK_JOB_STAT and 09 R719. -/
def rowsDkCtl : List Row :=
  [⟨F.DK_STEP.STEP, .rw, 0, 0, 4294967295⟩,
   ⟨F.DK_ACC.MB_COUNT, .ro, 0, 0, 8191⟩,
   ⟨F.DK_ACC.POISONED, .ro, 0, 0, 8191⟩,
   ⟨F.DK_ACC.BROKEN, .ro, 0, 0, 1⟩,
   ⟨F.DK_ACC.UPD_POISON, .ro, 0, 0, 1⟩,
   ⟨F.DK_ACC.REDUCED, .ro, 0, 0, 1⟩,
   ⟨F.DK_ACC.CLEAR, .wo, 0, 0, 1⟩,
   ⟨F.DK_VCOUNT.VALID, .ro, 0, 0, 8191⟩,
   ⟨F.DK_VCOUNT.ATTEMPTED, .ro, 0, 0, 8191⟩,
   ⟨F.DK_VTOTAL.VALID, .ro, 0, 0, 4294967295⟩,
   ⟨F.DK_VTOTAL.ATTEMPTED, .ro, 0, 0, 4294967295⟩,
   ⟨F.DK_VTOTAL_STEP.STEP, .ro, 0, 0, 4294967295⟩,
   ⟨F.DK_VTOTAL_STEP.SET, .ro, 0, 0, 1⟩,
   ⟨F.DK_MB_SEL.WORD, .rw, 0, 0, 63⟩,
   ⟨F.DK_MB_POISON.BITS, .ro, 0, 0, 18446744073709551615⟩,
   ⟨F.DK_MB_COUNTED.BITS, .ro, 0, 0, 18446744073709551615⟩,
   ⟨F.DK_SKIP_CNT.COUNT, .rc, 0, 0, 4294967295⟩,
   ⟨F.DK_JOB_STAT.JOB_FREE, .ro, 1, 0, 1⟩,
   ⟨F.DK_JOB_STAT.KILL_ACTIVE, .ro, 0, 0, 1⟩]

/-- The registers of 08 R640. -/
def rowsFarTier : List Row :=
  [⟨F.FT_CTL.COMP_EN, .rw, 0, 0, 1⟩,
   ⟨F.FT_CTL.REISSUE_MAX, .rw, 3, 0, 7⟩,
   ⟨F.FT_CTL.DFLT_MODE, .rw, 0, 0, 1⟩,
   ⟨F.FT_TIMEOUT.MICROS, .rw, 1000, 50, 50000⟩,
   ⟨F.FT_EXP_SEL.ENTRY, .rw, 0, 0, 15⟩,
   ⟨F.FT_EXP_BASE.VALID, .rw, 0, 0, 1⟩,
   ⟨F.FT_EXP_BASE.BASE, .rw, 0, 0, 8796093022207⟩,
   ⟨F.FT_EXP_LIMIT.LIMIT, .rw, 0, 0, 8796093022207⟩,
   ⟨F.FT_EXP_STAT.REACHABLE, .ro, 0, 0, 1⟩,
   ⟨F.FT_EXP_STAT.TIME, .ro, 0, 0, 4294967295⟩,
   ⟨F.FT_RD_BYTES.COUNT, .rc, 0, 0, 281474976710655⟩,
   ⟨F.FT_WR_BYTES.COUNT, .rc, 0, 0, 281474976710655⟩,
   ⟨F.FT_TIMEOUT_CNT.COUNT, .rc, 0, 0, 4294967295⟩,
   ⟨F.FT_LATE_CNT.COUNT, .rc, 0, 0, 4294967295⟩,
   ⟨F.FT_CODEC_RAW.COUNT, .rc, 0, 0, 281474976710655⟩]

/-- The registers of 13 R974. -/
def rowsHostIf : List Row :=
  [⟨F.HI_LINK_STAT.MODE, .ro, 0, 0, 3⟩,
   ⟨F.HI_LINK_STAT.UP0, .ro, 0, 0, 1⟩,
   ⟨F.HI_LINK_STAT.UP1, .ro, 0, 0, 1⟩,
   ⟨F.HI_LINK_STAT.RATE, .ro, 0, 0, 3⟩,
   ⟨F.HI_LINK_STAT.FLIT256, .ro, 0, 0, 1⟩,
   ⟨F.HI_LINK_STAT.IDE_IO, .ro, 0, 0, 1⟩,
   ⟨F.HI_LINK_STAT.IDE_CM, .ro, 0, 0, 1⟩,
   ⟨F.HI_LINK_STAT.WIDTH0, .ro, 0, 0, 31⟩,
   ⟨F.HI_LINK_STAT.WIDTH1, .ro, 0, 0, 31⟩,
   ⟨F.HI_LINK_CFG.BIFURCATE, .rw, 0, 0, 1⟩,
   ⟨F.HI_HDM_CTL.DB_EN, .rw, 1, 0, 1⟩,
   ⟨F.HI_HDM_CTL.COMMITTED, .ro, 0, 0, 1⟩,
   ⟨F.HI_SF_STAT.HELD, .ro, 0, 0, 524287⟩,
   ⟨F.HI_BISNP_CNT.COUNT, .rc, 0, 0, 281474976710655⟩,
   ⟨F.HI_POISON_CNT.COUNT, .rc, 0, 0, 4294967295⟩,
   ⟨F.HI_ERR_LAST.VALID, .w1c, 0, 0, 1⟩,
   ⟨F.HI_ERR_LAST.CAUSE, .ro, 0, 0, 7⟩,
   ⟨F.HI_ERR_LAST.LINK, .ro, 0, 0, 1⟩,
   ⟨F.HI_ERR_LAST.TIME, .ro, 0, 0, 4294967295⟩]

/-- The registers of 05 R363, R367. -/
def rowsIo : List Row :=
  [⟨F.TG_SEL.GATE, .rw, 0, 0, 15⟩,
   ⟨F.TG_STAT.OP, .ro, 0, 0, 3⟩,
   ⟨F.TG_STAT.STOPPED, .ro, 0, 0, 1⟩,
   ⟨F.TG_STAT.GRAIN, .ro, 0, 0, 127⟩,
   ⟨F.TG_STAT.TOKENS, .ro, 0, 0, 65535⟩,
   ⟨F.TG_STAT.DATA0, .ro, 0, 0, 255⟩,
   ⟨F.TG_STAT.DATA1, .ro, 0, 0, 255⟩,
   ⟨F.TG_GRAIN_CNT.COUNT, .rc, 0, 0, 4294967295⟩,
   ⟨F.TG_DROP_CNT.COUNT, .rc, 0, 0, 4294967295⟩,
   ⟨F.IO_DESC_SEL.DESC, .rw, 0, 0, 255⟩,
   ⟨F.IO_DESC_ADDR.ADDR, .ro, 0, 0, 18446744073709551615⟩]

/-- The registers of 05 *Network registers*. -/
def rowsJoints : List Row :=
  [⟨F.TR_STAT.EPOCH, .ro, 0, 0, 3⟩,
   ⟨F.TR_STAT.PLAN, .ro, 0, 0, 1⟩,
   ⟨F.TR_STAT.PHASE, .ro, 0, 0, 7⟩,
   ⟨F.TR_STAT.PLAN_ID, .ro, 0, 0, 4294967295⟩,
   ⟨F.TR_FLUSH_CNT.COUNT, .rc, 0, 0, 4294967295⟩,
   ⟨F.TR_STALE_CNT.COUNT, .rc, 0, 0, 4294967295⟩,
   ⟨F.TR_SLOT_SEL.POS, .rw, 0, 0, 31⟩,
   ⟨F.TR_SLOT_SEL.OUTPUT, .rw, 0, 0, 15⟩,
   ⟨F.TR_SLOT_SEL.SLOT, .rw, 0, 0, 31⟩,
   ⟨F.TR_SLOT_DATA.ENTRY, .ro, 0, 0, 4294967295⟩]

/-- The registers of 10 R757. -/
def rowsKyPort : List Row :=
  [⟨F.KY_PORT_CTL.MODE, .rw, 0, 0, 1⟩,
   ⟨F.KY_PORT_CTL.RETRY_LIMIT, .rw, 4, 1, 31⟩,
   ⟨F.KY_PORT_CTL.RETRAIN_MAX, .rw, 3, 1, 7⟩,
   ⟨F.KY_PORT_CTL.STARVE_US, .rw, 100, 1, 65535⟩,
   ⟨F.KY_PORT_STAT.LINK, .ro, 0, 0, 3⟩,
   ⟨F.KY_PORT_STAT.LANES, .ro, 0, 0, 7⟩,
   ⟨F.KY_PORT_STAT.SLOW, .ro, 0, 0, 1⟩,
   ⟨F.KY_PORT_STAT.LANE_USED, .ro, 0, 0, 15⟩,
   ⟨F.KY_PORT_STAT.PARTNER, .ro, 0, 0, 131071⟩,
   ⟨F.KY_FEC_CORR_CNT.COUNT, .rc, 0, 0, 281474976710655⟩,
   ⟨F.KY_FEC_UNCORR_CNT.COUNT, .rc, 0, 0, 4294967295⟩,
   ⟨F.KY_REPLAY_CNT.COUNT, .rc, 0, 0, 4294967295⟩,
   ⟨F.KY_RETRAIN_CNT.COUNT, .rc, 0, 0, 4294967295⟩,
   ⟨F.KY_TX_BYTES.COUNT, .rc, 0, 0, 281474976710655⟩,
   ⟨F.KY_RX_BYTES.COUNT, .rc, 0, 0, 281474976710655⟩,
   ⟨F.KY_VC_SEL.VC, .rw, 0, 0, 3⟩,
   ⟨F.KY_VC_DATA.CREDITS, .ro, 0, 0, 65535⟩,
   ⟨F.KY_VC_DATA.DEPTH, .ro, 0, 0, 65535⟩,
   ⟨F.KY_VC_DATA.OCC, .ro, 0, 0, 65535⟩,
   ⟨F.KY_GW_MAC.MAC, .rw, 0, 0, 281474976710655⟩]

/-- The registers of 06 R450. -/
def rowsKyWindows : List Row :=
  [⟨F.KY_WIN_SEL.WIN, .rw, 0, 0, 1023⟩,
   ⟨F.KY_WIN_CTL.OPEN, .rw, 0, 0, 1⟩,
   ⟨F.KY_WIN_CTL.TGT, .rw, 0, 0, 1⟩,
   ⟨F.KY_WIN_CTL.SPAN, .rw, 0, 0, 7⟩,
   ⟨F.KY_WIN_BASE.BASE, .rw, 0, 0, 18446744073709551615⟩,
   ⟨F.KY_WIN_SIZE.BYTES, .rw, 0, 0, 281474976710655⟩,
   ⟨F.KY_WIN_KEY.KEY, .wo, 0, 0, 4294967295⟩,
   ⟨F.KY_WIN_COUNT.COUNT, .rw, 0, 0, 4294967295⟩,
   ⟨F.KY_WIN_BYTES.BYTES, .ro, 0, 0, 281474976710655⟩,
   ⟨F.KY_WIN_REFUSED.COUNT, .rc, 0, 0, 4294967295⟩]

/-- The registers of 10 R792. -/
def rowsKyino : List Row :=
  [⟨F.KY_DEV_ID.ID, .rw, 0, 0, 131071⟩,
   ⟨F.KY_CTL.POLICY_STRIKES, .rw, 4, 1, 15⟩,
   ⟨F.KY_CTL.HOP_LIMIT, .rw, 8, 1, 15⟩,
   ⟨F.KY_RT_INDEX.INDEX, .rw, 0, 0, 131071⟩,
   ⟨F.KY_RT_INDEX.AUTO_INC, .rw, 0, 0, 1⟩,
   ⟨F.KY_RT_DATA.ENTRY, .rw, 0, 0, 4294967295⟩,
   ⟨F.KY_RATE.GBPS, .rw, 2400, 1, 2400⟩,
   ⟨F.KY_RATE.BURST_KIB, .rw, 1024, 64, 65535⟩,
   ⟨F.KY_REFUSE_LAST.VALID, .w1c, 0, 0, 1⟩,
   ⟨F.KY_REFUSE_LAST.REASON, .ro, 0, 0, 7⟩,
   ⟨F.KY_REFUSE_LAST.WIN, .ro, 0, 0, 1023⟩,
   ⟨F.KY_REFUSE_LAST.SRC, .ro, 0, 0, 131071⟩,
   ⟨F.KY_REFUSE_LAST.TIME, .ro, 0, 0, 4294967295⟩,
   ⟨F.KY_QUAR_DROP_CNT.COUNT, .rc, 0, 0, 4294967295⟩,
   ⟨F.KY_HOP_DROP_CNT.COUNT, .rc, 0, 0, 4294967295⟩,
   ⟨F.KY_BAD_FRAME_CNT.COUNT, .rc, 0, 0, 4294967295⟩,
   ⟨F.KY_IP_PREFIX.PREFIX, .rw, 0, 0, 18446744073709551615⟩,
   ⟨F.KY_UDP.PORT, .rw, 46240, 0, 65535⟩,
   ⟨F.KY_UDP.DSCP, .rw, 0, 0, 63⟩,
   ⟨F.KY_E2E.RTO_US, .rw, 50, 5, 10000⟩] ++
  [⟨F.KY_E2E.RETRY, .rw, 8, 1, 15⟩,
   ⟨F.KY_TIME_CTL.MASTER, .rw, 0, 0, 1⟩,
   ⟨F.KY_TIME_CTL.UPSTREAM, .rw, 0, 0, 23⟩,
   ⟨F.KY_TIME_CTL.PERIOD_US, .rw, 1000, 100, 10000⟩,
   ⟨F.KY_TIME_OFFSET.THETA, .ro, 0, 0, 18446744073709551615⟩,
   ⟨F.KY_VG_CTL.GROUP, .rw, 0, 0, 63⟩,
   ⟨F.KY_VG_CTL.JOIN, .rw, 0, 0, 1⟩,
   ⟨F.KY_VG_CTL.PERIOD_US, .rw, 100, 10, 10000⟩,
   ⟨F.KY_VG_STALE_LIMIT.MICROS, .rw, 1000, 100, 1000000⟩]

/-- The registers of 06 R484. -/
def rowsLedger : List Row :=
  [⟨F.LG_SEL.COUNTER, .rw, 0, 0, 255⟩,
   ⟨F.LG_SEL.AUTO_INC, .rw, 0, 0, 1⟩,
   ⟨F.LG_COUNTER.VALUE, .rw, 0, 0, 4294967295⟩,
   ⟨F.LG_COUNTER.LIMIT, .rw, 0, 0, 4294967295⟩,
   ⟨F.LG_START.START, .ro, 0, 0, 4294967295⟩,
   ⟨F.LG_EXH_CNT.COUNT, .rc, 0, 0, 4294967295⟩,
   ⟨F.LG_OP_CNT.COUNT, .rc, 0, 0, 281474976710655⟩]

/-- The registers of 04 R241. -/
def rowsMe : List Row :=
  [⟨F.ME_CTL.GO, .wo, 0, 0, 1⟩,
   ⟨F.ME_CTL.STOP, .wo, 0, 0, 1⟩,
   ⟨F.ME_CTL.ENTRY, .rw, 0, 0, 4095⟩,
   ⟨F.ME_STAT.BANK_A, .ro, 0, 0, 3⟩,
   ⟨F.ME_STAT.BANK_B, .ro, 0, 0, 3⟩,
   ⟨F.ME_STAT.SHADOW, .ro, 0, 0, 3⟩,
   ⟨F.ME_STAT.CELLS_HELD, .ro, 0, 0, 1⟩,
   ⟨F.ME_STAT.RUNNING, .ro, 0, 0, 1⟩,
   ⟨F.ME_STAT.GUARD_WAIT, .ro, 0, 0, 1⟩,
   ⟨F.ME_STAT.HALTED, .ro, 0, 0, 1⟩,
   ⟨F.ME_STAT.PC, .ro, 0, 0, 4095⟩,
   ⟨F.ME_STAT.LOOP_DEPTH, .ro, 0, 0, 7⟩,
   ⟨F.ME_PROG_ADDR.ADDR, .rw, 0, 0, 4095⟩,
   ⟨F.ME_PROG_ADDR.AUTO_INC, .rw, 0, 0, 1⟩,
   ⟨F.ME_PROG_LO.LO, .rw, 0, 0, 18446744073709551615⟩,
   ⟨F.ME_PROG_HI.HI, .rw, 0, 0, 18446744073709551615⟩,
   ⟨F.ME_INSTR_CNT.COUNT, .rc, 0, 0, 281474976710655⟩,
   ⟨F.ME_GUARD_CYC.COUNT, .rc, 0, 0, 281474976710655⟩,
   ⟨F.ME_BANK_CYC.COUNT, .rc, 0, 0, 281474976710655⟩,
   ⟨F.ME_FAULT.VALID, .w1c, 0, 0, 1⟩] ++
  [⟨F.ME_FAULT.CAUSE, .ro, 0, 0, 7⟩,
   ⟨F.ME_FAULT.INSTR, .ro, 0, 0, 4095⟩,
   ⟨F.ME_FAULT.SEQ, .ro, 0, 0, 4294967295⟩,
   ⟨F.ME_BASE0.VALUE, .ro, 0, 0, 524287⟩,
   ⟨F.ME_BASE1.VALUE, .ro, 0, 0, 524287⟩,
   ⟨F.ME_BASE2.VALUE, .ro, 0, 0, 524287⟩,
   ⟨F.ME_BASE3.VALUE, .ro, 0, 0, 524287⟩]

/-- The registers of 08 R632. -/
def rowsNearMgr : List Row :=
  [⟨F.NM_CFG.ILV, .rw, 0, 0, 1⟩,
   ⟨F.NM_CFG.LOCAL_GRANULES, .rw, 0, 0, 45952⟩,
   ⟨F.NM_PRESENT.STACKS, .ro, 0, 0, 4294967295⟩,
   ⟨F.NM_SCRUB_PERIOD.HOURS, .rw, 12, 1, 168⟩,
   ⟨F.NM_SCRUB_PASS.PASS, .ro, 0, 0, 65535⟩,
   ⟨F.NM_RET_CTL.AUTO, .rw, 1, 0, 1⟩,
   ⟨F.NM_RET_CTL.THRESH, .rw, 16, 1, 255⟩,
   ⟨F.NM_RET_CTL.WINDOW, .rw, 24, 1, 720⟩,
   ⟨F.NM_RET_CMD.GRANULE, .rw, 0, 0, 46031⟩,
   ⟨F.NM_RET_CMD.STACK, .rw, 0, 0, 31⟩,
   ⟨F.NM_RET_CMD.GO, .wo, 0, 0, 1⟩,
   ⟨F.NM_RET_CAND.GRANULE, .ro, 0, 0, 65535⟩,
   ⟨F.NM_RET_CAND.STACK, .ro, 0, 0, 31⟩,
   ⟨F.NM_RET_CAND.VALID, .w1c, 0, 0, 1⟩,
   ⟨F.NM_RET_CAND.TIME, .ro, 0, 0, 4294967295⟩,
   ⟨F.NM_ZERO_STAT.BUSY, .ro, 0, 0, 1⟩,
   ⟨F.NM_ZERO_STAT.DONE, .ro, 0, 0, 4294967295⟩]

/-- The registers of 08 R631. -/
def rowsNmChannel : List Row :=
  [⟨F.NM_CH_STAT.PRESENT, .ro, 0, 0, 1⟩,
   ⟨F.NM_CH_STAT.RATE, .ro, 0, 0, 3⟩,
   ⟨F.NM_CH_STAT.MIGRATING, .ro, 0, 0, 1⟩,
   ⟨F.NM_CH_STAT.SPARES_FREE, .ro, 0, 0, 63⟩,
   ⟨F.NM_ECC_CTL.CMODE, .rw, 0, 0, 2⟩,
   ⟨F.NM_CE_CNT.COUNT, .rc, 0, 0, 4294967295⟩,
   ⟨F.NM_UE_CNT.COUNT, .rc, 0, 0, 4294967295⟩,
   ⟨F.NM_POISON_CNT.COUNT, .rc, 0, 0, 4294967295⟩,
   ⟨F.NM_LINK_RETRY_CNT.COUNT, .rc, 0, 0, 4294967295⟩,
   ⟨F.NM_REMAP_SEL.ENTRY, .rw, 0, 0, 47⟩,
   ⟨F.NM_REMAP_DATA.GRANULE, .ro, 0, 0, 65535⟩,
   ⟨F.NM_REMAP_DATA.SPARE, .ro, 0, 0, 63⟩,
   ⟨F.NM_REMAP_DATA.VALID, .ro, 0, 0, 1⟩,
   ⟨F.NM_REMAP_DATA.CAUSE, .ro, 0, 0, 3⟩,
   ⟨F.NM_REMAP_DATA.TIME, .ro, 0, 0, 4294967295⟩]

/-- The registers of 08 R583. -/
def rowsPlacement : List Row :=
  [⟨F.FT_PT_BASE.LOC, .rw, 0, 0, 1⟩,
   ⟨F.FT_PT_BASE.BASE, .rw, 0, 0, 8796093022207⟩,
   ⟨F.FT_PT_INV.ALL, .wo, 0, 0, 1⟩,
   ⟨F.FT_PT_INV.PAGE, .wo, 0, 0, 1⟩,
   ⟨F.FT_PT_INV.BUSY, .ro, 0, 0, 1⟩,
   ⟨F.FT_PT_INV.ADDR, .rw, 0, 0, 134217727⟩,
   ⟨F.FT_TC_MISS_CNT.COUNT, .rc, 0, 0, 281474976710655⟩,
   ⟨F.FT_MAP_ERR.VALID, .w1c, 0, 0, 1⟩,
   ⟨F.FT_MAP_ERR.CAUSE, .ro, 0, 0, 255⟩,
   ⟨F.FT_MAP_ERR.ADDR, .ro, 0, 0, 281474976710655⟩,
   ⟨F.FT_STORE_BASE.VALID, .rw, 0, 0, 1⟩,
   ⟨F.FT_STORE_BASE.BASE, .rw, 0, 0, 8796093022207⟩]

/-- The registers of 14 R1058. -/
def rowsPower : List Row :=
  [⟨F.PW_CAP.WATTS, .rw, 2100, 1000, 2100⟩,
   ⟨F.PW_GOV_CTL.DIV_MIN, .rw, 0, 0, 3⟩,
   ⟨F.PW_GOV_CTL.DIV_MAX, .rw, 3, 0, 3⟩,
   ⟨F.PW_GOV_CTL.FIX, .rw, 0, 0, 4⟩,
   ⟨F.PW_GOV_CTL.PERIOD_US, .rw, 1000, 100, 60000⟩,
   ⟨F.PW_GOV_STAT.DIV, .ro, 0, 0, 3⟩,
   ⟨F.PW_GOV_STAT.CAP_UNMET, .ro, 0, 0, 1⟩,
   ⟨F.PW_GOV_STAT.THERMAL, .ro, 0, 0, 1⟩,
   ⟨F.PW_GOV_STAT.RAMPING, .ro, 0, 0, 1⟩,
   ⟨F.PW_GOV_STAT.LAST_W, .ro, 0, 0, 4095⟩,
   ⟨F.PW_IN.WATTS, .ro, 0, 0, 4095⟩,
   ⟨F.PW_IN.DECIVOLTS, .ro, 0, 0, 4095⟩,
   ⟨F.PW_IN.DECIAMPS, .ro, 0, 0, 4095⟩,
   ⟨F.PW_GOV_LOG_SEL.ENTRY, .rw, 0, 0, 15⟩,
   ⟨F.PW_GOV_LOG_SEL.TOTAL, .ro, 0, 0, 4294967295⟩,
   ⟨F.PW_GOV_LOG_DATA.TIME, .ro, 0, 0, 4294967295⟩,
   ⟨F.PW_GOV_LOG_DATA.OLD, .ro, 0, 0, 3⟩,
   ⟨F.PW_GOV_LOG_DATA.NEW, .ro, 0, 0, 3⟩,
   ⟨F.PW_GOV_LOG_DATA.REASON, .ro, 0, 0, 7⟩,
   ⟨F.PW_GOV_LOG_DATA.WATTS, .ro, 0, 0, 4095⟩] ++
  [⟨F.PW_DROOP_CNT.COUNT, .rc, 0, 0, 4294967295⟩,
   ⟨F.PW_TH_CTL.WARN_MARGIN, .rw, 10, 2, 40⟩,
   ⟨F.PW_TH_CTL.TH_DIV, .rw, 2, 0, 3⟩,
   ⟨F.PW_TH_CTL.TH_EN, .rw, 1, 0, 1⟩,
   ⟨F.PW_TH_SEL.SENSOR, .rw, 0, 0, 111⟩,
   ⟨F.PW_TH_DATA.TEMP, .ro, 0, 0, 255⟩,
   ⟨F.PW_TH_DATA.TRIP, .ro, 0, 0, 255⟩,
   ⟨F.PW_TH_DATA.VALID, .ro, 0, 0, 1⟩,
   ⟨F.PW_TH_MIN.MARGIN, .ro, 0, 0, 255⟩,
   ⟨F.PW_TH_MIN.SENSOR, .ro, 0, 0, 127⟩,
   ⟨F.PW_RESET_CAUSE.CAUSE, .ro, 0, 0, 7⟩]

/-- The registers of 02 *Ring registers*. -/
def rowsRing : List Row :=
  [⟨F.DK_RING_BASE.LOC, .rw, 0, 0, 1⟩,
   ⟨F.DK_RING_BASE.BASE, .rw, 0, 0, 4503599627370495⟩,
   ⟨F.DK_RING_CFG.LOG2_SIZE, .rw, 6, 6, 16⟩,
   ⟨F.DK_RING_CFG.MSIX_VEC, .rw, 0, 0, 63⟩,
   ⟨F.DK_RING_CFG.COALESCE, .rw, 0, 0, 255⟩,
   ⟨F.DK_DOORBELL.TAIL, .wo, 0, 0, 4294967295⟩,
   ⟨F.DK_HEAD.HEAD, .ro, 0, 0, 4294967295⟩,
   ⟨F.DK_CPL_BASE.BASE, .rw, 0, 0, 4503599627370495⟩,
   ⟨F.DK_CPL_CFG.LOG2_SIZE, .rw, 6, 6, 16⟩,
   ⟨F.DK_CPL_TAIL.TAIL, .ro, 0, 0, 4294967295⟩,
   ⟨F.DK_CPL_HEAD.HEAD, .rw, 0, 0, 4294967295⟩,
   ⟨F.DK_LAST_DONE.SEQ, .ro, 0, 0, 4294967295⟩,
   ⟨F.DK_RING_CTL.EXPECT_SEQ, .rw, 0, 0, 4294967295⟩,
   ⟨F.DK_RING_CTL.RESTART, .wo, 0, 0, 1⟩,
   ⟨F.DK_RING_STAT.STOPPED, .ro, 0, 0, 1⟩,
   ⟨F.DK_RING_STAT.DB_ERR, .w1c, 0, 0, 1⟩,
   ⟨F.DK_RING_STAT.CPL_FULL, .w1c, 0, 0, 1⟩,
   ⟨F.DK_RING_STAT.SEQ_ERR, .w1c, 0, 0, 1⟩]

/-- The registers of 07 R567. -/
def rowsSf : List Row :=
  [⟨F.SF_STAT.RUNNING, .ro, 0, 0, 1⟩,
   ⟨F.SF_STAT.GUARD_WAIT, .ro, 0, 0, 1⟩,
   ⟨F.SF_STAT.HALTED, .ro, 0, 0, 1⟩,
   ⟨F.SF_STAT.PC, .ro, 0, 0, 4095⟩,
   ⟨F.SF_STAT.LOOP_DEPTH, .ro, 0, 0, 7⟩,
   ⟨F.SF_INSTR_CNT.COUNT, .rc, 0, 0, 281474976710655⟩,
   ⟨F.SF_GUARD_CYC.COUNT, .rc, 0, 0, 281474976710655⟩,
   ⟨F.SF_PREG_SEL.PREG, .rw, 0, 0, 31⟩,
   ⟨F.SF_PREG_DATA.VALUE, .rw, 0, 0, 4294967295⟩,
   ⟨F.SF_UPD_CTL.SKIP, .rw, 0, 0, 1⟩,
   ⟨F.SF_UPD_CTL.SKIP_CNT, .rc, 0, 0, 4294967295⟩,
   ⟨F.SF_CTL.GO, .wo, 0, 0, 1⟩,
   ⟨F.SF_CTL.STOP, .wo, 0, 0, 1⟩,
   ⟨F.SF_CTL.ENTRY, .rw, 0, 0, 4095⟩,
   ⟨F.SF_PROG_ADDR.ADDR, .rw, 0, 0, 4095⟩,
   ⟨F.SF_PROG_ADDR.AUTO_INC, .rw, 0, 0, 1⟩,
   ⟨F.SF_PROG_LO.LO, .rw, 0, 0, 18446744073709551615⟩,
   ⟨F.SF_PROG_HI.HI, .rw, 0, 0, 18446744073709551615⟩]

/-- The registers of 12 R947. -/
def rowsSnapshotEng : List Row :=
  [⟨F.SN_CTL.PAIR, .wo, 0, 0, 1⟩,
   ⟨F.SN_CTL.UNPAIR, .wo, 0, 0, 1⟩,
   ⟨F.SN_CTL.AUTO, .rw, 1, 0, 1⟩,
   ⟨F.SN_CTL.AUTO_GAP, .rw, 10, 1, 65535⟩,
   ⟨F.SN_FEED.STRAP, .ro, 0, 0, 65535⟩,
   ⟨F.SN_FEED.VALUE, .rw, 0, 0, 65535⟩,
   ⟨F.SN_FEED.OVR, .rw, 0, 0, 1⟩,
   ⟨F.SN_BUDDY.ID, .rw, 0, 0, 131071⟩,
   ⟨F.SN_BUDDY.WIN, .rw, 0, 0, 1023⟩,
   ⟨F.SN_BUDDY_KEY.KEY, .wo, 0, 0, 4294967295⟩,
   ⟨F.SN_HOST_WIN.WIN, .rw, 0, 0, 1023⟩,
   ⟨F.SN_SLOT_BYTES.BYTES, .rw, 0, 0, 281474976710655⟩,
   ⟨F.SN_PAIR_FORCE.FORCE, .rw, 0, 0, 1⟩,
   ⟨F.SN_STAT.PAIRED, .ro, 0, 0, 1⟩,
   ⟨F.SN_STAT.SAME_FEED, .ro, 0, 0, 1⟩,
   ⟨F.SN_STAT.REFUSED_FEED, .ro, 0, 0, 1⟩,
   ⟨F.SN_STAT.CAPTURING, .ro, 0, 0, 1⟩,
   ⟨F.SN_STAT.SENDING, .ro, 0, 0, 1⟩,
   ⟨F.SN_STAT.NEXT_SLOT, .ro, 0, 0, 1⟩,
   ⟨F.SN_STAT.FAR_NEXT_SLOT, .ro, 0, 0, 1⟩] ++
  [⟨F.SN_STAT.AUTO_PEND, .ro, 0, 0, 1⟩,
   ⟨F.SN_STAT.BUDDY_OK, .ro, 0, 0, 1⟩,
   ⟨F.SN_STAT.FAR_OK, .ro, 0, 0, 1⟩,
   ⟨F.SN_STAT.PARTNER_FEED, .ro, 0, 0, 65535⟩,
   ⟨F.SN_LAST.STEP, .ro, 0, 0, 4294967295⟩,
   ⟨F.SN_LAST.TIME, .ro, 0, 0, 4294967295⟩,
   ⟨F.SN_RATE.GBPS, .rw, 50, 1, 2400⟩,
   ⟨F.SN_AUTO_DOCKET.LOC, .rw, 0, 0, 1⟩,
   ⟨F.SN_AUTO_DOCKET.BASE, .rw, 0, 0, 288230376151711743⟩,
   ⟨F.SN_HOLD_NS.COUNT, .ro, 0, 0, 281474976710655⟩]

/-- The registers of 06 R443. -/
def rowsSp : List Row :=
  [⟨F.SP_CHECK.ENABLE, .rw, 0, 0, 1⟩,
   ⟨F.SP_CHECK.INIT, .rw, 0, 0, 1⟩,
   ⟨F.SP_CHECK_EXEMPT.FIRST, .rw, 0, 0, 16383⟩,
   ⟨F.SP_CHECK_EXEMPT.COUNT, .rw, 0, 0, 16384⟩,
   ⟨F.SP_ORDER.VALID, .w1c, 0, 0, 1⟩,
   ⟨F.SP_ORDER.KIND, .ro, 0, 0, 1⟩,
   ⟨F.SP_ORDER.PORT, .ro, 0, 0, 7⟩,
   ⟨F.SP_ORDER.ROW, .ro, 0, 0, 16383⟩,
   ⟨F.SP_ORDER.TIME, .ro, 0, 0, 4294967295⟩,
   ⟨F.SP_ORDER_CNT.COUNT, .rc, 0, 0, 4294967295⟩,
   ⟨F.SP_RD_CNT.COUNT, .rc, 0, 0, 281474976710655⟩,
   ⟨F.SP_WR_CNT.COUNT, .rc, 0, 0, 281474976710655⟩,
   ⟨F.SP_NARROW_CNT.COUNT, .rc, 0, 0, 281474976710655⟩,
   ⟨F.SP_ECC_CNT.COUNT, .rc, 0, 0, 4294967295⟩]

/-- The registers of 06 R475. -/
def rowsSpanCache : List Row :=
  [⟨F.SC_CTL.ALLOC, .rw, 1, 0, 1⟩,
   ⟨F.SC_CTL.FLUSH, .wo, 0, 0, 1⟩,
   ⟨F.SC_CTL.INVALIDATE, .wo, 0, 0, 1⟩,
   ⟨F.SC_CTL.BUSY, .ro, 0, 0, 1⟩,
   ⟨F.SC_RD_CNT.COUNT, .rc, 0, 0, 281474976710655⟩,
   ⟨F.SC_HIT_CNT.COUNT, .rc, 0, 0, 281474976710655⟩,
   ⟨F.SC_WB_CNT.COUNT, .rc, 0, 0, 281474976710655⟩,
   ⟨F.SC_ECC_CNT.COUNT, .rc, 0, 0, 4294967295⟩]

/-- The registers of 11 R899. -/
def rowsTollhouse : List Row :=
  [⟨F.FC_PHASE.PHASE, .rw, 0, 0, 3⟩,
   ⟨F.FC_LOG_STAT.WPTR, .ro, 0, 0, 511⟩,
   ⟨F.FC_LOG_STAT.HELD, .ro, 0, 0, 1023⟩,
   ⟨F.FC_LOG_STAT.OVERFLOW, .w1c, 0, 0, 1⟩,
   ⟨F.FC_LOG_STAT.WARM, .ro, 0, 0, 1⟩,
   ⟨F.FC_OVF_CNT.COUNT, .rc, 0, 0, 4294967295⟩,
   ⟨F.FC_REUSE_CNT.COUNT, .rc, 0, 0, 4294967295⟩,
   ⟨F.FC_WRITE_CNT.COUNT, .ro, 0, 0, 18446744073709551615⟩,
   ⟨F.FC_DROP_CNT.COUNT, .rc, 0, 0, 4294967295⟩,
   ⟨F.FC_LOG_SEL.SLOT, .rw, 0, 0, 511⟩,
   ⟨F.FC_LOG_SEL.AUTO_INC, .rw, 0, 0, 1⟩,
   ⟨F.FC_LOG_DATA0.LO, .ro, 0, 0, 18446744073709551615⟩,
   ⟨F.FC_LOG_DATA1.HI, .ro, 0, 0, 18446744073709551615⟩,
   ⟨F.FC_LOG_DATA2.STATE, .ro, 0, 0, 3⟩,
   ⟨F.FC_LOG_DATA2.STEP, .ro, 0, 0, 3⟩,
   ⟨F.FC_LOG_DATA2.FAILED, .ro, 0, 0, 1⟩,
   ⟨F.FC_LOG_DATA2.LATE, .ro, 0, 0, 1⟩,
   ⟨F.FC_LOG_DATA2.JOINED, .ro, 0, 0, 1⟩,
   ⟨F.FC_LOG_DATA2.DIRECT, .ro, 0, 0, 1⟩,
   ⟨F.FC_LOG_DATA2.RESOLVED, .ro, 0, 0, 4294967295⟩] ++
  [⟨F.FC_ACK.SLOT, .wo, 0, 0, 511⟩,
   ⟨F.FC_REACT_SEL.KIND, .rw, 0, 0, 1023⟩,
   ⟨F.FC_REACT_DATA.ENTRY, .rw, 0, 0, 18446744073709551615⟩,
   ⟨F.FC_RECUR.MICROS, .rw, 1000, 100, 60000⟩,
   ⟨F.FC_ERR_PIN_CTL.DRIVE, .rw, 0, 0, 1⟩,
   ⟨F.FC_ERR_PIN_CTL.ARMED, .w1s, 1, 0, 1⟩,
   ⟨F.FC_ERR_PIN_CTL.PULSING, .ro, 0, 0, 1⟩,
   ⟨F.FC_ERR_PIN_CTL.LOW, .ro, 0, 0, 1⟩,
   ⟨F.FC_ERR_PIN_CTL.ERR_PULSE_MIN, .rw, 10, 10, 1000⟩,
   ⟨F.FC_LADDER_STAT.ACTIVE, .ro, 0, 0, 31⟩]

/-- The registers of 05 R408. -/
def rowsTrestle : List Row :=
  [⟨F.TR_STAT.EPOCH, .ro, 0, 0, 3⟩,
   ⟨F.TR_STAT.PLAN, .ro, 0, 0, 1⟩,
   ⟨F.TR_STAT.PHASE, .ro, 0, 0, 7⟩,
   ⟨F.TR_STAT.PLAN_ID, .ro, 0, 0, 4294967295⟩,
   ⟨F.TR_WATCHDOG.LIMIT, .rw, 270000, 2700, 16777215⟩,
   ⟨F.TR_SEAL_TIMEOUT.LIMIT, .rw, 270000, 2700, 16777215⟩,
   ⟨F.TR_FLUSH_CNT.COUNT, .rc, 0, 0, 4294967295⟩,
   ⟨F.TR_STALE_CNT.COUNT, .rc, 0, 0, 4294967295⟩,
   ⟨F.TR_STALL_LAST.POS, .ro, 0, 0, 1023⟩,
   ⟨F.TR_STALL_LAST.PORT, .ro, 0, 0, 63⟩,
   ⟨F.TR_STALL_LAST.OUT, .ro, 0, 0, 1⟩,
   ⟨F.TR_STALL_LAST.TIME, .ro, 0, 0, 4294967295⟩,
   ⟨F.TR_STALL_CNT.COUNT, .rc, 0, 0, 4294967295⟩,
   ⟨F.TR_CREDIT_CNT.COUNT, .rc, 0, 0, 4294967295⟩,
   ⟨F.TR_SLOT_SEL.POS, .rw, 0, 0, 1023⟩,
   ⟨F.TR_SLOT_SEL.OUTPUT, .rw, 0, 0, 15⟩,
   ⟨F.TR_SLOT_SEL.SLOT, .rw, 0, 0, 31⟩,
   ⟨F.TR_SLOT_DATA.ENTRY, .ro, 0, 0, 4294967295⟩,
   ⟨F.TR_QUEUE_SEL.POS, .rw, 0, 0, 1023⟩,
   ⟨F.TR_QUEUE_SEL.PORT, .rw, 0, 0, 63⟩] ++
  [⟨F.TR_QUEUE_DATA.OCC, .ro, 0, 0, 255⟩,
   ⟨F.TR_QUEUE_DATA.DEPTH, .ro, 0, 0, 255⟩,
   ⟨F.TR_QUEUE_DATA.CREDITS, .ro, 0, 0, 255⟩,
   ⟨F.TR_QUEUE_DATA.HELD, .ro, 0, 0, 1⟩,
   ⟨F.TR_QUEUE_DATA.COUNT, .ro, 0, 0, 16777215⟩]

/-- The registers of 10 R825. -/
def rowsViaduct : List Row :=
  [⟨F.VG_STALE.STALE, .ro, 0, 0, 262143⟩,
   ⟨F.VG_AGE_NS.AGE, .ro, 0, 0, 18446744073709551615⟩,
   ⟨F.VG_FAULT_CNT.FAULTS, .ro, 0, 0, 18446744073709551615⟩]

end Sys2Proof.Machine
end

