-- ==== Sys2Proof/Machine/Tree.lean ====
section
/-!
DEFINITION. Sys2Proof/Machine/Tree.lean: the units of the device: which paths name a unit and of which kind
(spec 02, R57 to R60, R102 and the sub-units of 03, 06, 08 and 10), each unit's parent and children
(R74 to R77), its capabilities (R45, R68) and the register tables of its page with their reset values.
-/

namespace Sys2Proof.Machine

/-- The kinds of unit that have a register page. -/
inductive UKind where
  | root | hostIf | kyino | countingHouse | tollhouse | assayer | snapshotEng | bist | bootUnit | clocks
  | power | dkCtl | joints | mgmt | regFabric | farPath | group
  | ring | kyPort | kyWindows | amaxTable | placement | nearMgr
  | span | bay | me | sf | sp | clerk | io | spare | spanCache | ledger | carter | trestle | nmChannel
  deriving DecidableEq, Repr

/-- The kind of the unit in slot `slot` of a bay (R59). -/
def baySlotKind (slot : Nat) : Option UKind :=
  if slot ≤ 2 then some .me
  else if 8 ≤ slot ∧ slot ≤ 13 then some .sf
  else if 16 ≤ slot ∧ slot ≤ 23 then some .sp
  else if 24 ≤ slot ∧ slot ≤ 27 then some .clerk
  else if slot = 32 then some .io
  else if slot = 63 then some .bay
  else none

/-- The kind of the span-level unit in slot `slot` of bay field 7 (R59). -/
def spanSlotKind (slot : Nat) : Option UKind :=
  if slot = 0 then some .spare
  else if slot = 1 then some .spanCache
  else if slot = 2 then some .ledger
  else if slot = 3 then some .carter
  else if slot = 4 then some .trestle
  else if 8 ≤ slot ∧ slot ≤ 11 then some .nmChannel
  else if slot = 63 then some .span
  else none

/-- The kind of device-level block `b` (R60). -/
def blockKind (b : Nat) : Option UKind :=
  match b with
  | 0 => some .root | 1 => some .hostIf | 2 => some .kyino | 3 => some .countingHouse | 4 => some .tollhouse
  | 5 => some .assayer | 6 => some .snapshotEng | 7 => some .bist | 8 => some .bootUnit | 9 => some .clocks
  | 10 => some .power | 11 => some .dkCtl | 12 => some .joints | 13 => some .mgmt | 14 => some .regFabric
  | 15 => some .farPath | 127 => some .group
  | _ => none

/-- The kind of sub-unit `u` (not 0) of device-level block `b` (R102, 03 R205, 06, 08, 10). -/
def subUnitKind (b u : Nat) : Option UKind :=
  if b = 11 ∧ 16 ≤ u ∧ u ≤ 48 then some .ring
  else if b = 2 ∧ 16 ≤ u ∧ u ≤ 39 then some .kyPort
  else if b = 2 ∧ u = 128 then some .kyWindows
  else if b = 3 ∧ u = 1 then some .amaxTable
  else if b = 15 ∧ u = 1 then some .placement
  else if b = 15 ∧ u = 2 then some .nearMgr
  else none

/-- The fields of a path (R58): span, bay field, slot, sub-unit of a span unit. -/
def spanOf (p : Nat) : Nat := bitsOf p 12 3
def bayOf (p : Nat) : Nat := bitsOf p 9 3
def slotOf (p : Nat) : Nat := bitsOf p 3 6
def isSpanPath (p : Nat) : Bool := p < 0x8000

/-- The unit at path `p` (R58 to R60); `none` for an empty page (R64, R67). -/
def kindOf (p : Nat) : Option UKind :=
  if p < 0x8000 then
    if bitsOf p 0 3 = 0 then
      if bayOf p ≤ 3 then baySlotKind (slotOf p)
      else if bayOf p = 7 then spanSlotKind (slotOf p)
      else none
    else none
  else if p < 0x10000 then
    if p % 256 = 0 then blockKind (bitsOf p 8 7) else subUnitKind (bitsOf p 8 7) (p % 256)
  else none

/-- UNIT_ID.TYPE of a kind of unit (R59, R60, 03 R205, 06, 08, 10). -/
def UKind.type : UKind → Nat
  | .root => 0x01 | .hostIf => 0x30 | .kyino => 0x31 | .countingHouse => 0x32 | .tollhouse => 0x33
  | .assayer => 0x34 | .snapshotEng => 0x35 | .bist => 0x36 | .bootUnit => 0x37 | .clocks => 0x38
  | .power => 0x39 | .dkCtl => 0x3A | .ring => 0x3B | .joints => 0x3C | .mgmt => 0x3D | .regFabric => 0x3E
  | .farPath => 0x3F | .group => 0x04 | .kyPort => 0x43 | .kyWindows => 0x40 | .amaxTable => 0x44
  | .placement => 0x41 | .nearMgr => 0x42 | .span => 0x02 | .bay => 0x03 | .me => 0x10 | .sf => 0x11
  | .sp => 0x12 | .clerk => 0x13 | .io => 0x14 | .spare => 0x15 | .spanCache => 0x20 | .nmChannel => 0x21
  | .ledger => 0x22 | .trestle => 0x23 | .carter => 0x24

/-- Paths of the units that other units name. -/
def P.root : Nat := 0x8000
def P.hostIf : Nat := 0x8100
def P.kyino : Nat := 0x8200
def P.kyPort (p : Nat) : Nat := 0x8210 + p
def P.kyWindows : Nat := 0x8280
def P.countingHouse : Nat := 0x8300
def P.amax : Nat := 0x8301
def P.tollhouse : Nat := 0x8400
def P.assayer : Nat := 0x8500
def P.snapshot : Nat := 0x8600
def P.bist : Nat := 0x8700
def P.boot : Nat := 0x8800
def P.clocks : Nat := 0x8900
def P.power : Nat := 0x8A00
def P.dkCtl : Nat := 0x8B00
def P.ring (k : Nat) : Nat := 0x8B10 + k
def P.joints : Nat := 0x8C00
def P.mgmt : Nat := 0x8D00
def P.regFabric : Nat := 0x8E00
def P.farPath : Nat := 0x8F00
def P.placement : Nat := 0x8F01
def P.nearMgr : Nat := 0x8F02
def P.group : Nat := 0xFF00
def P.span (s : Nat) : Nat := s * 0x1000 + 0x0FF8
def P.bay (s b : Nat) : Nat := s * 0x1000 + b * 0x200 + 0x1F8
def P.spanUnit (s slot : Nat) : Nat := s * 0x1000 + 0x0E00 + slot * 8
def P.spare (s : Nat) : Nat := P.spanUnit s 0
def P.spanCache (s : Nat) : Nat := P.spanUnit s 1
def P.ledger (s : Nat) : Nat := P.spanUnit s 2
def P.carter (s : Nat) : Nat := P.spanUnit s 3
def P.trestle (s : Nat) : Nat := P.spanUnit s 4
/-- The near-memory channel of stack `k`: stack k is channel k mod 4 of span k / 4 (spec 01, 08). -/
def P.nmChannel (k : Nat) : Nat := P.spanUnit (k / 4) (8 + k % 4)
def P.bayUnit (s b slot : Nat) : Nat := s * 0x1000 + b * 0x200 + slot * 8
def P.me (s b e : Nat) : Nat := P.bayUnit s b e
def P.sf (s b i : Nat) : Nat := P.bayUnit s b (8 + i)
def P.sp (s b i : Nat) : Nat := P.bayUnit s b (16 + i)
def P.clerk (s b i : Nat) : Nat := P.bayUnit s b (24 + i)
def P.io (s b : Nat) : Nat := P.bayUnit s b 32

/-- The parent of a unit in the tree (R74 to R77); the root and the group page have none. -/
def parentOf (p : Nat) : Option Nat :=
  match kindOf p with
  | none => none
  | some .root => none
  | some .group => none
  | some .span => some P.root
  | some .bay => some (P.span (spanOf p))
  | some _ =>
    if p < 0x8000 then
      if bayOf p = 7 then some (P.span (spanOf p)) else some (P.bay (spanOf p) (bayOf p))
    else if p % 256 = 0 then some P.root
    else some (p - p % 256)

/-- The tiles of a bay, in slot order. -/
def bayTiles (s b : Nat) : List Nat :=
  ([0, 1, 2, 8, 9, 10, 11, 12, 13, 16, 17, 18, 19, 20, 21, 22, 23, 24, 25, 26, 27, 32] : List Nat).map (P.bayUnit s b)

/-- The sub-units of a device-level block (R76). -/
def subUnits (b : Nat) : List Nat :=
  if b = 11 then (List.range 33).map P.ring
  else if b = 2 then (List.range 24).map P.kyPort ++ [P.kyWindows]
  else if b = 3 then [P.amax]
  else if b = 15 then [P.placement, P.nearMgr]
  else []

/-- The child table of a unit (R74 to R77), in ascending order of path within each group (DESIGN CHOICE, 9.md). -/
def childrenOf (p : Nat) : List Nat :=
  match kindOf p with
  | some .root => (List.range 8).map P.span ++ (List.range 15).map (fun b => 0x8100 + b * 256)
  | some .span =>
    let s := spanOf p
    (List.range 4).map (P.bay s) ++ ([0, 1, 2, 3, 4, 8, 9, 10, 11] : List Nat).map (P.spanUnit s)
  | some .bay => bayTiles (spanOf p) (bayOf p)
  | some _ => if 0x8000 ≤ p ∧ p % 256 = 0 then subUnits (bitsOf p 8 7) else []
  | none => []

/-- The descendants of a unit, the unit itself not among them. -/
def descendants (p : Nat) : List Nat :=
  let c := childrenOf p
  let g := c.flatMap childrenOf
  c ++ g ++ g.flatMap childrenOf

/-- Every unit of span `s`: its bays, their tiles and its span-level units. -/
def spanUnits (s : Nat) : List Nat := P.span s :: descendants (P.span s)

/-- Is `a` the unit `p` or an ancestor of it? -/
def isWithin (a p : Nat) : Bool :=
  a == p || parentOf p == some a ||
  (match parentOf p with
   | none => false
   | some q => parentOf q == some a ||
     (match parentOf q with
      | none => false
      | some r => parentOf r == some a))

/-- The five units that software cannot disable, reset or fence (R45). -/
def isProtected (p : Nat) : Bool :=
  p == P.boot || p == P.mgmt || p == P.hostIf || p == P.regFabric || p == P.tollhouse

/-- CAN_DISABLE, CAN_RESET and CAN_FENCE of UNIT_CAP: 0 for the units of R45, 1 for every other unit
(DESIGN CHOICE, 9.md). -/
def canCommand (p : Nat) : Bool := !isProtected p

/-- SPARABLE: an active matrix engine, whose position the spare can take over (R26, R310). -/
def isSparable (p : Nat) : Bool := kindOf p == some .me

/-- The hierarchy level of the units that R24 gives one; other units: 0 (a free value stands in for it). -/
def levelOf : UKind → Option Nat
  | .root => some 4 | .span => some 3 | .bay => some 2 | .group => some 5
  | .me => some 1 | .sf => some 1 | .sp => some 1 | .clerk => some 1 | .io => some 1 | .spare => some 1
  | _ => none

/-- The block registers of a kind of unit. -/
def blockRows : UKind → List Row
  | .hostIf => rowsHostIf | .kyino => rowsKyino | .countingHouse => rowsCountingHouse
  | .tollhouse => rowsTollhouse | .assayer => rowsAssayer | .snapshotEng => rowsSnapshotEng
  | .bist => rowsBist | .bootUnit => rowsBootUnit | .clocks => rowsClocks | .power => rowsPower
  | .dkCtl => rowsDkCtl | .joints => rowsJoints | .farPath => rowsFarTier | .group => rowsViaduct
  | .ring => rowsRing | .kyPort => rowsKyPort | .kyWindows => rowsKyWindows | .amaxTable => rowsAmaxTable
  | .placement => rowsPlacement | .nearMgr => rowsNearMgr | .me => rowsMe ++ rowsNumeric
  | .sf => rowsSf ++ rowsNumeric | .sp => rowsSp | .clerk => rowsClerk ++ rowsClerkTrap | .io => rowsIo
  | .spare => rowsMe ++ rowsSpare ++ rowsNumeric | .spanCache => rowsSpanCache | .ledger => rowsLedger
  | .carter => rowsCarter | .trestle => rowsTrestle | .nmChannel => rowsNmChannel
  | .root => [] | .mgmt => [] | .regFabric => [] | .span => [] | .bay => []

/-- Every register field of the page of unit `p`. -/
def rowsOf (p : Nat) : List Row :=
  match kindOf p with
  | some k => rowsHeader ++ blockRows k
  | none => []

/-- The place of a field in the register store: unit, index (for a register that a selector banks), byte
offset and lowest bit. -/
def fldKey (p idx : Nat) (f : Fld) : Nat := ((p * 2 ^ 20 + idx) * 2 ^ 12 + f.off) * 64 + f.lo

def keyPath (k : Nat) : Nat := k / 2 ^ 38
def keyIdx (k : Nat) : Nat := k / 2 ^ 18 % 2 ^ 20
def keyOff (k : Nat) : Nat := k / 64 % 2 ^ 12
def keyLo (k : Nat) : Nat := k % 64

/-- The reset value of a field by its rows. -/
def resetIn (rows : List Row) (off lo : Nat) : Nat :=
  match rows with
  | [] => 0
  | r :: rest => if r.fld.off = off ∧ r.fld.lo = lo then r.reset else resetIn rest off lo

end Sys2Proof.Machine
end

