-- ==== Sys2Proof/Machine/Ops.lean ====
section
/-!
DEFINITION. Sys2Proof/Machine/Ops.lean: the named operations that every command is built from: register
fields (R13), memories, unit states and their queries, messages and error bits (R72, R833), completion records
(R115 to R127) and free values. No command reaches into the state but through these.
-/

namespace Sys2Proof.Machine

/-! ### Message kinds and classes (R827, R837) -/

def K.UNIT_ILLEGAL_WRITE : Nat := 0x001
def K.UNIT_STATE_CMD : Nat := 0x002
def K.UNIT_ACCESS_SIZE : Nat := 0x003
def K.UNIT_DRAIN_TIMEOUT : Nat := 0x004
def K.NONFINITE : Nat := 0x010
def K.ME_BANK_SEQ : Nat := 0x011
def K.ME_SHAPE : Nat := 0x012
def K.ME_NO_CIRCUIT : Nat := 0x013
def K.ME_SPARE : Nat := 0x014
def K.ME_AM_CE : Nat := 0x015
def K.ME_AM_UE : Nat := 0x016
def K.TR_STALL : Nat := 0x020
def K.TR_CREDIT : Nat := 0x021
def K.TR_FLUSH : Nat := 0x022
def K.TR_STALE : Nat := 0x023
def K.TG_TOKEN : Nat := 0x024
def K.SP_CE : Nat := 0x030
def K.SP_UE : Nat := 0x031
def K.SP_FRAMING : Nat := 0x032
def K.SCHED_ORDER : Nat := 0x033
def K.SC_CE : Nat := 0x034
def K.SC_UE : Nat := 0x035
def K.GC_EXCEPTION : Nat := 0x040
def K.NM_CE : Nat := 0x050
def K.NM_UE : Nat := 0x051
def K.NM_POISON : Nat := 0x052
def K.NM_TIMEOUT : Nat := 0x053
def K.NM_RET_CAND : Nat := 0x054
def K.NM_RETIRE : Nat := 0x055
def K.NM_SPARES_OUT : Nat := 0x056
def K.FT_MAP : Nat := 0x060
def K.FT_TIMEOUT : Nat := 0x061
def K.FT_ABORT : Nat := 0x062
def K.FT_POISON : Nat := 0x063
def K.FT_DOWN : Nat := 0x064
def K.FT_CODEC : Nat := 0x065
def K.FT_EXP_DOWN : Nat := 0x066
def K.CA_STALL : Nat := 0x068
def K.CA_NO_CIRCUIT : Nat := 0x069
def K.KY_LINK_DOWN : Nat := 0x080
def K.KY_SLOW : Nat := 0x081
def K.KY_RETRAIN : Nat := 0x082
def K.KY_LANE_SPARE : Nat := 0x083
def K.KY_HOP_DROP : Nat := 0x084
def K.KY_QUARANTINE : Nat := 0x085
def K.KY_TIME_STEP : Nat := 0x086
def K.CH_NONFINITE : Nat := 0x090
def K.CH_REMOTE : Nat := 0x091
def K.AS_ADVISE : Nat := 0x0A0
def K.AS_SNAPSHOT : Nat := 0x0A1
def K.AS_EVACUATE : Nat := 0x0A2
def K.SN_FAIL : Nat := 0x0A8
def K.BI_FAIL : Nat := 0x0B0
def K.BI_REPAIR : Nat := 0x0B1
def K.BI_OVERDUE : Nat := 0x0B2
def K.PW_DROOP : Nat := 0x0C0
def K.PW_GOV : Nat := 0x0C1
def K.TH_WARN : Nat := 0x0C2
def K.TH_TRIP : Nat := 0x0C3
def K.CK_UNLOCK : Nat := 0x0C4
def K.BD_CE : Nat := 0x0D0
def K.BD_UE : Nat := 0x0D1
def K.HI_ERR : Nat := 0x0D8

def Cls.CORRECTED : Nat := 0
def Cls.DEFERRED : Nat := 1
def Cls.CONTAINED : Nat := 2
def Cls.FATAL : Nat := 3
def Cls.INFO : Nat := 4

/-- The class of a kind's row in R837 (its most severe class where it varies, R847) and its ladder after grace
by the action codes of R866; `none` for a reserved kind. -/
def kindRow (k : Nat) : Option (Nat × List Nat) :=
  match k with
  | 0x001 => some (4, []) | 0x002 => some (4, []) | 0x003 => some (4, []) | 0x004 => some (2, [])
  | 0x010 => some (2, [1, 2]) | 0x011 => some (2, [1, 2, 3]) | 0x012 => some (2, [1]) | 0x013 => some (2, [1])
  | 0x014 => some (4, []) | 0x015 => some (0, []) | 0x016 => some (2, [3, 5])
  | 0x020 => some (1, []) | 0x021 => some (2, []) | 0x022 => some (4, []) | 0x023 => some (4, [])
  | 0x024 => some (2, [1, 5]) | 0x030 => some (0, []) | 0x031 => some (2, [1, 2, 4]) | 0x032 => some (2, [1])
  | 0x033 => some (1, []) | 0x034 => some (0, []) | 0x035 => some (2, [1, 2, 4]) | 0x040 => some (2, [1, 2])
  | 0x050 => some (0, []) | 0x051 => some (2, [1]) | 0x052 => some (2, [1]) | 0x053 => some (2, [1, 2])
  | 0x054 => some (4, []) | 0x055 => some (4, []) | 0x056 => some (1, [])
  | 0x060 => some (2, [1]) | 0x061 => some (2, [1]) | 0x062 => some (2, [1]) | 0x063 => some (2, [1])
  | 0x064 => some (2, [1]) | 0x065 => some (2, [1]) | 0x066 => some (1, []) | 0x068 => some (1, [])
  | 0x069 => some (2, [1]) | 0x080 => some (1, []) | 0x081 => some (1, []) | 0x082 => some (0, [])
  | 0x083 => some (4, []) | 0x084 => some (4, []) | 0x085 => some (1, []) | 0x086 => some (4, [])
  | 0x090 => some (1, []) | 0x091 => some (1, []) | 0x0A0 => some (4, []) | 0x0A1 => some (4, [])
  | 0x0A2 => some (1, []) | 0x0A8 => some (1, []) | 0x0B0 => some (1, []) | 0x0B1 => some (4, [])
  | 0x0B2 => some (1, []) | 0x0C0 => some (0, []) | 0x0C1 => some (4, []) | 0x0C2 => some (1, [])
  | 0x0C3 => some (3, []) | 0x0C4 => some (3, [6]) | 0x0D0 => some (0, []) | 0x0D1 => some (3, [6])
  | 0x0D8 => some (1, [])
  | _ => none

/-- A reaction entry at reset (R846, R847): VEC 0, GRACE 100, the kind's ladder, and IRQ and direct actions by class. -/
def reactEntry (cls : Nat) (ladder : List Nat) : Nat :=
  let irq := if cls = 0 ∨ cls = 4 then 0 else 1
  let boot := if cls = 2 then 2 else if cls = 3 then 3 else 0
  let test := if cls = 3 then 4 else 0
  irq + 100 * 2 ^ 8 + (ladder.getD 0 0) * 2 ^ 24 + (ladder.getD 1 0) * 2 ^ 27 + (ladder.getD 2 0) * 2 ^ 30
    + boot * 2 ^ 33 + test * 2 ^ 36 + boot * 2 ^ 39

/-- The entry of a kind at reset; a reserved kind reads zero (R848). -/
def reactReset (k : Nat) : Nat :=
  match kindRow k with
  | some (c, l) => reactEntry c l
  | none => 0

/-! ### Registers -/

/-- The reset value of the field at a place of the register store: its row's, or the value that a banked
register has for its index (FC_REACT_DATA R847, KY_VC_DATA R741, PW_TH_DATA R1050). -/
def resetKey (k : Nat) : Nat :=
  let p := keyPath k
  let off := keyOff k
  if p = P.tollhouse ∧ off = F.FC_REACT_DATA.ENTRY.off then reactReset (keyIdx k)
  else if kindOf p = some .kyPort ∧ off = F.KY_VC_DATA.DEPTH.off ∧ keyLo k = F.KY_VC_DATA.DEPTH.lo then
    (if keyIdx k = 2 then 4096 else 64)
  else if p = P.power ∧ off = F.PW_TH_DATA.TRIP.off ∧ keyLo k = F.PW_TH_DATA.TRIP.lo then
    (if keyIdx k < 72 then 105 else if keyIdx k < 104 then 95 else if keyIdx k < 112 then 125 else 0)
  else resetIn (rowsOf p) off (keyLo k)

/-- Field `f` of unit `p` at index `i` of a banked register. -/
def Dev.rdi (d : Dev) (p i : Nat) (f : Fld) : Nat := Tbl.get resetKey d.regs (fldKey p i f)

/-- The device after field `f` of unit `p` at index `i` took the value `v` (its low bits, as wide as the field). -/
def Dev.wri (d : Dev) (p i : Nat) (f : Fld) (v : Nat) : Dev :=
  { d with regs := Tbl.set resetKey d.regs (fldKey p i f) (v % 2 ^ f.w) }

/-- Field `f` of unit `p`. -/
def Dev.rd (d : Dev) (p : Nat) (f : Fld) : Nat := d.rdi p 0 f

/-- The device after field `f` of unit `p` took the value `v`. -/
def Dev.wr (d : Dev) (p : Nat) (f : Fld) (v : Nat) : Dev := d.wri p 0 f v

/-- Is a one-bit field set? -/
def Dev.flag (d : Dev) (p : Nat) (f : Fld) : Bool := d.rd p f == 1

/-- What hardware has added to a counter in this MCLK cycle (R15). -/
def Dev.newCount (d : Dev) (p i : Nat) (f : Fld) : Nat := Tbl.get (fun _ => 0) d.cyc.newCounts (fldKey p i f)

/-- Field `f` takes the value `v`, which hardware has counted up to in this cycle. -/
def Dev.countTo (d : Dev) (p i : Nat) (f : Fld) (v : Nat) : Dev :=
  { d.wri p i f v with cyc.newCounts := Tbl.set (fun _ => 0) d.cyc.newCounts (fldKey p i f) (d.newCount p i f + (v - d.rdi p i f)) }

/-- A counter that stops at its greatest value (R184, R230, R440, R450). -/
def Dev.countSat (d : Dev) (p i : Nat) (f : Fld) (n : Nat) : Dev := d.countTo p i f (min (d.rdi p i f + n) (2 ^ f.w - 1))

/-- A counter of events that wraps at its width (DESIGN CHOICE where the spec gives no end, log entry 8). -/
def Dev.count (d : Dev) (p : Nat) (f : Fld) (n : Nat) : Dev := d.countTo p 0 f (d.rd p f + n)

/-- The bits of a field that hardware has set in this MCLK cycle (R14). -/
def Dev.newMask (d : Dev) (p i : Nat) (f : Fld) : Nat :=
  (d.cyc.newBits.filter (fun x => x.1 == fldKey p i f)).foldl (fun m x => Nat.lor m (2 ^ x.2)) 0

/-- Hardware sets bit `b` of a W1C field: a write of the same cycle does not clear it (R14). -/
def Dev.raiseBit (d : Dev) (p : Nat) (f : Fld) (b : Nat) : Dev :=
  { d.wr p f (Nat.lor (d.rd p f) (2 ^ b)) with cyc.newBits := (fldKey p 0 f, b) :: d.cyc.newBits }

/-- Every register of the unit's page at its reset value. -/
def Dev.clearRegs (d : Dev) (p : Nat) : Dev := { d with regs := d.regs.filter (fun c => keyPath c.1 != p) }

/-- Registers of a page at their reset values but those for which `keep` holds of the field's offset. -/
def Dev.clearRegsBut (d : Dev) (p : Nat) (keep : Nat → Bool) : Dev :=
  { d with regs := d.regs.filter (fun c => keyPath c.1 != p || keep (keyOff c.1)) }

/-! ### Free values -/

/-- A 64-bit value that the spec leaves open, new each time; log entry 5. -/
def Dev.freeWord (d : Dev) : Nat × Dev := ((Config.freeWord d.fresh).toNat, { d with fresh := d.fresh + 1 })

/-- One of `n` possibilities, where the spec leaves the choice open; log entry 5. -/
def Dev.freeBelow (d : Dev) (n : Nat) : Nat × Dev := (Config.freeChoice d.fresh % n, { d with fresh := d.fresh + 1 })

/-- What SECDED does with a word in which `bits` bits are in error (R1101): 0 as stored, 1 corrected, 2
uncorrectable. With three or more bits in error the outcome is a free choice of the three. -/
def Dev.secded (d : Dev) (bits : Nat) : Nat × Dev :=
  if bits ≤ 2 then (bits, d) else d.freeBelow 3

/-! ### Messages (R827 to R834) -/

/-- How many messages a unit holds that Tollhouse has not accepted. -/
def Dev.held (d : Dev) (p : Nat) : Nat := (d.outbox.filter (fun m => m.path == p)).length

/-- Unit `p` raises a message; while it holds 8, one of class CORRECTED or INFO is dropped and counted (R833). -/
def Dev.send (d : Dev) (t : Nat) (p kind cls addr aux : Nat) : Dev :=
  if d.held p ≥ 8 ∧ (cls = Cls.CORRECTED ∨ cls = Cls.INFO) then d.count P.tollhouse F.FC_DROP_CNT.COUNT 1
  else { d with outbox := d.outbox ++ [⟨p, kind, cls, addr % 2 ^ 48, t % 2 ^ 32, aux % 2 ^ 19, none⟩] }

/-- The field of UNIT_ERR and of UNIT_ERR_EN that holds bit `b`, and the bit's place in it. -/
def errFld (b : Nat) : Fld × Nat := if b < 16 then (⟨0x20, b, 1⟩, 0) else (F.UNIT_ERR.BLOCK_ERR, b - 16)
def errEnFld (b : Nat) : Fld := if b < 16 then ⟨0x28, b, 1⟩ else F.UNIT_ERR_EN.BLOCK_ERR

/-- A setting of bit `b` of UNIT_ERR without a message of its own (R1097). -/
def Dev.setErrBit (d : Dev) (p b : Nat) : Dev :=
  d.raiseBit p (errFld b).1 (errFld b).2

/-- Is the message of bit `b` of UNIT_ERR enabled (R72)? -/
def Dev.errEnabled (d : Dev) (p b : Nat) : Bool := bitAt (d.rd p (errEnFld b)) (errFld b).2

/-- A setting of bit `b` of UNIT_ERR of unit `p` (R72, R834): the bit is set, and the one message of the cause
is sent when the bit's UNIT_ERR_EN bit is 1. -/
def Dev.setErr (d : Dev) (t p b kind cls addr aux : Nat) : Dev :=
  if d.errEnabled p b then (d.setErrBit p b).send t p kind cls addr aux else d.setErrBit p b

/-- ILLEGAL_WRITE, STATE_CMD and ACCESS_SIZE (R18, R68, R62; class INFO by R73). -/
def Dev.illegalWrite (d : Dev) (t p : Nat) : Dev := d.setErr t p 0 K.UNIT_ILLEGAL_WRITE Cls.INFO 0 0
def Dev.stateCmd (d : Dev) (t p : Nat) : Dev := d.setErr t p 1 K.UNIT_STATE_CMD Cls.INFO 0 0
def Dev.accessSize (d : Dev) (t p : Nat) : Dev := d.setErr t p 2 K.UNIT_ACCESS_SIZE Cls.INFO 0 0

/-! ### Unit states (R78) -/

def U.OFF : Nat := 0
def U.STARTING : Nat := 1
def U.ON : Nat := 2
def U.DRAINING : Nat := 3
def U.FENCED : Nat := 4
def U.FAILED : Nat := 5
def U.NO_SERVICE : Nat := 6

/-- The STATE of a unit. -/
def Dev.ust (d : Dev) (p : Nat) : Nat := d.rd p F.UNIT_STAT.STATE

/-- Is a unit ON? -/
def Dev.on (d : Dev) (p : Nat) : Bool := d.ust p == U.ON

/-- A change of STATE, with its time (UNIT_STAT.STATE_TIME). -/
def Dev.setState (d : Dev) (t p st : Nat) : Dev :=
  (d.wr p F.UNIT_STAT.STATE st).wr p F.UNIT_STAT.STATE_TIME t

/-- Is a unit in service: present and neither FENCED nor FAILED (R42)? -/
def Dev.inService (d : Dev) (p : Nat) : Bool :=
  (kindOf p).isSome && d.ust p != U.FENCED && d.ust p != U.FAILED

/-- Is a unit held in reset: in NO_SERVICE (R49), or a scratchpad tile that a KILL finds FENCED or FAILED (R490)? -/
def Dev.heldInReset (d : Dev) (p : Nat) : Bool :=
  (d.noService && !d.inService p) || d.resetTiles.contains p || (d.kill.isSome && kindOf p == some .sp && !d.inService p)

/-! ### Memories -/

def zeroByte (_ : Nat) : Byte := 0
def noBool (_ : Nat) : Bool := false
def noNat (_ : Nat) : Nat := 0

/-- Row `a` (span row address) of span `s`, at its place in BAR2 (R445). -/
def spadBase (s a : Nat) : Nat := s * 2 ^ 28 + (a % 2 ^ 19) * 512

/-- The 512 bytes of a row (R433). -/
def Dev.row (d : Dev) (s a : Nat) : List Byte := Tbl.getN zeroByte d.spad (spadBase s a) 512

/-- The device after a row took 512 bytes (R424, R434). -/
def Dev.putRow (d : Dev) (s a : Nat) (bytes : List Byte) : Dev :=
  { d with spad := Tbl.setAll zeroByte d.spad (spadBase s a) bytes }

/-- The path of scratchpad tile `k` (8 b + i) of span `s`. -/
def spPath (s k : Nat) : Nat := P.sp s (k / 8) (k % 8)

/-- `n` bytes of host memory or of the CXL fabric. -/
def Dev.hostBytes (d : Dev) (a n : Nat) : List Byte := Tbl.getN zeroByte d.hostMem a n
def Dev.putHost (d : Dev) (a : Nat) (bs : List Byte) : Dev := { d with hostMem := Tbl.setAll zeroByte d.hostMem a bs }
def Dev.fabricBytes (d : Dev) (a n : Nat) : List Byte := Tbl.getN zeroByte d.fabric a n
def Dev.putFabric (d : Dev) (a : Nat) (bs : List Byte) : Dev := { d with fabric := Tbl.setAll zeroByte d.fabric a bs }

/-! ### Per-unit stores -/

def noMe (_ : Nat) : MeSt := {}
def noSf (_ : Nat) : SfSt := {}
def noClerk (_ : Nat) : ClerkSt := {}
def noRing (_ : Nat) : Ring := {}
def noCirc (_ : Nat) : CircSt := {}
def noTg (_ : Nat) : TgSt := {}
def noDesc (_ : Nat) : DescSt := {}
def noReqs (_ : Nat) : List RowReq := []
def noSectors (_ : Nat) : List Sector := []
def freeSlot (_ : Nat) : LogSlot := {}
def noWord128 (_ : Nat) : W128 := 0
def zeroWord (_ : Nat) : W32 := 0

def Dev.me (d : Dev) (p : Nat) : MeSt := Tbl.get noMe d.mes p
def Dev.putMe (d : Dev) (p : Nat) (m : MeSt) : Dev := { d with mes := Tbl.set noMe d.mes p m }
def Dev.sf (d : Dev) (p : Nat) : SfSt := Tbl.get noSf d.sfs p
def Dev.putSf (d : Dev) (p : Nat) (m : SfSt) : Dev := { d with sfs := Tbl.set noSf d.sfs p m }
def Dev.clerk (d : Dev) (p : Nat) : ClerkSt := Tbl.get noClerk d.clerks p
def Dev.putClerk (d : Dev) (p : Nat) (c : ClerkSt) : Dev := { d with clerks := Tbl.set noClerk d.clerks p c }
def Dev.ring (d : Dev) (k : Nat) : Ring := Tbl.get noRing d.rings k
def Dev.putRing (d : Dev) (k : Nat) (r : Ring) : Dev := { d with rings := Tbl.set noRing d.rings k r }
def Dev.circ (d : Dev) (c : Nat) : CircSt := Tbl.get noCirc d.circs c
def Dev.putCirc (d : Dev) (c : Nat) (x : CircSt) : Dev := { d with circs := Tbl.set noCirc d.circs c x }
def Dev.tg (d : Dev) (g : Nat) : TgSt := Tbl.get noTg d.tgs g
def Dev.putTg (d : Dev) (g : Nat) (x : TgSt) : Dev := { d with tgs := Tbl.set noTg d.tgs g x }
def Dev.desc (d : Dev) (k : Nat) : DescSt := Tbl.get noDesc d.descs k
def Dev.putDesc (d : Dev) (k : Nat) (x : DescSt) : Dev := { d with descs := Tbl.set noDesc d.descs k x }
def Dev.slot (d : Dev) (k : Nat) : LogSlot := Tbl.get freeSlot d.log k
def Dev.putSlot (d : Dev) (k : Nat) (x : LogSlot) : Dev := { d with log := Tbl.set freeSlot d.log k x }
def Dev.cache (d : Dev) (s : Nat) : List Sector := Tbl.get noSectors d.caches s
def Dev.putCache (d : Dev) (s : Nat) (x : List Sector) : Dev := { d with caches := Tbl.set noSectors d.caches s x }

/-- A word of the amax/scale table at reset: SCALE and SCALE_INV read 1.0 (R200). -/
def amaxReset (k : Nat) : Nat := if k % 4 = 0 then 0x3F8000003F800000 else 0

/-- Word `w` of entry `e`; entry 0 always reads its reset values (R203). -/
def Dev.amaxWord (d : Dev) (e w : Nat) : Nat :=
  if e = 0 then amaxReset w else Tbl.get amaxReset d.amax (4 * e + w)

/-- The device after word `w` of entry `e` took a value; entry 0 never changes. -/
def Dev.putAmaxWord (d : Dev) (e w v : Nat) : Dev :=
  if e = 0 then d else { d with amax := Tbl.set amaxReset d.amax (4 * e + w) (v % 2 ^ 64) }

/-! ### Rings and records (R102 to R129) -/

/-- The number of a ring by its path, and the span of a span ring (R102). -/
def ringNo (p : Nat) : Nat := p - 0x8B10
def isRing (p : Nat) : Bool := decide (0x8B10 ≤ p) && decide (p ≤ 0x8B30)
def ringSpan (k : Nat) : Nat := k / 4
def deviceRing : Nat := 32

/-- Records that the host has not consumed (R121), and is the completion ring full? -/
def Dev.unconsumed (d : Dev) (k : Nat) : Nat :=
  ((d.ring k).recN + 2 ^ 32 - d.rd (P.ring k) F.DK_CPL_HEAD.HEAD) % 2 ^ 32
def Dev.cplFull (d : Dev) (k : Nat) : Bool :=
  decide (d.unconsumed k ≥ 2 ^ d.rd (P.ring k) F.DK_CPL_CFG.LOG2_SIZE)

/-- Fields of a docket's 64 bytes. -/
def Docket.field (k : Docket) (off n : Nat) : Nat := natOfBytesAt k.bytes off n
where natOfBytesAt (bs : List Byte) (off n : Nat) : Nat :=
  ((bs.drop off).take n).foldr (fun b acc => b.toNat + 256 * acc) 0

def Docket.seq (k : Docket) : Nat := match k.seqOf with
  | some s => s
  | none => k.field 0 4
def Docket.opcode (k : Docket) : Nat := k.field 4 1
def Docket.flags (k : Docket) : Nat := k.field 5 1
def Docket.tag (k : Docket) : Nat := k.field 8 8
def Docket.ordered (k : Docket) : Bool := bitAt k.flags 1
def Docket.irq (k : Docket) : Bool := bitAt k.flags 0

/-- The statuses of R125. -/
def St.OK : Nat := 0x0000
def St.OK_POISONED : Nat := 0x0001
def St.OK_SKIPPED : Nat := 0x0002
def St.BAD_OPCODE : Nat := 0x0010
def St.BAD_RING : Nat := 0x0011
def St.BAD_SEQ : Nat := 0x0012
def St.BAD_ARGS : Nat := 0x0013
def St.PLAN_REJECTED : Nat := 0x0014
def St.NO_PLAN : Nat := 0x0015
def St.DISCARDED : Nat := 0x0020
def St.KILLED : Nat := 0x0021
def St.NO_SERVICE : Nat := 0x0022
def St.TIER_ERROR : Nat := 0x0030
def St.REMOTE_ERROR : Nat := 0x0031
def St.INTEGRITY : Nat := 0x0032

/-- The DETAIL of a discard that no logged message started (R125). -/
def noSlot : Nat := 0xFFFFFFFFFFFFFFFF

/-- Does a record of this status move DK_LAST_DONE (R134, the ring register table)? -/
def countsAsDone (status : Nat) : Bool :=
  !(status == St.BAD_SEQ || status == St.DISCARDED || status == St.KILLED || status == St.NO_SERVICE)

/-- The 32 bytes of a completion record (R125). -/
def recordBytes (seq status ringSub phase tag detail time : Nat) : List Byte :=
  le 4 seq ++ le 2 status ++ le 1 ringSub ++ le 1 phase ++ le 8 tag ++ le 8 detail ++ le 8 time
where le : Nat → Nat → List Byte
  | 0, _ => []
  | n + 1, v => BitVec.ofNat 8 v :: le n (v / 256)

/-- The MSI-X table at reset (R957): every vector masked, as PCIe has it (log entry 31). -/
def msixReset (k : Nat) : Nat := if k % 2 = 1 then 2 ^ 32 else 0
def notPending (_ : Nat) : Bool := false
def Dev.msixWord (d : Dev) (k : Nat) : Nat := Tbl.get msixReset d.msixTbl k
def Dev.msixMasked (d : Dev) (vec : Nat) : Bool := bitAt (d.msixWord (2 * vec + 1)) 32

/-- Raise an MSI-X vector: it joins the vectors sent to the host, in order (R122, R854), or is pending while masked. -/
def Dev.raise (d : Dev) (vec : Nat) : Dev :=
  if d.msixMasked vec then { d with msixPend := Tbl.set notPending d.msixPend vec true } else { d with msix := d.msix ++ [vec] }

/-- Write the next completion record of ring `k` (R115, R122, R123, R125): its bytes in host memory, DK_CPL_TAIL,
DK_LAST_DONE and the ring's vector. The caller knows that there is room (R121). -/
def Dev.writeRecord (d : Dev) (t k seq status tag detail : Nat) (irq : Bool) : Dev :=
  let p := P.ring k
  let r := d.ring k
  let log2 := d.rd p F.DK_CPL_CFG.LOG2_SIZE
  let size := 2 ^ log2
  let phase := if r.recN / size % 2 = 0 then 1 else 0
  let a := d.rd p F.DK_CPL_BASE.BASE * 4096 + r.recN % size * 32
  let coal := r.coal + 1
  let limit := d.rd p F.DK_RING_CFG.COALESCE
  let vec := irq || decide (status ≥ 0x10) || decide (coal ≥ max 1 limit)
  let d := d.putHost a (recordBytes seq status (0x10 + k) phase tag detail t)
  let d := d.putRing k { r with recN := r.recN + 1, coal := if vec then 0 else coal }
  let d := if countsAsDone status then d.wr p F.DK_LAST_DONE.SEQ seq else d
  let d := if vec then d.raise (d.rd p F.DK_RING_CFG.MSIX_VEC) else d
  if d.cplFull k then d.raiseBit p F.DK_RING_STAT.CPL_FULL 0 else d

/-- Replace the docket with index `n` in a ring's queue. -/
def setStage (q : List Docket) (n : Nat) (st : DkStage) : List Docket :=
  q.map (fun k => if k.n = n then { k with stage := st } else k)

/-- The docket `n` of ring `k` ends with a status and DETAIL; its record is written by COMPLETION_WRITE (R115). -/
def Dev.endDocket (d : Dev) (k n status detail : Nat) : Dev :=
  d.putRing k { d.ring k with q := setStage (d.ring k).q n (.ended status detail) }

/-- The docket `n` of ring `k`, while it has no record. -/
def Dev.docket (d : Dev) (k n : Nat) : Option Docket := (d.ring k).q.find? (fun x => x.n == n)

/-- Is a docket in execution? -/
def Docket.begun (k : Docket) : Bool := k.stage == .begun

/-- A docket that has begun and has not completed: its record is not yet written (R1095). -/
def Docket.executing (x : Docket) : Bool :=
  match x.stage with
  | .fetched => false
  | .begun => true
  | .ended _ _ => x.began

/-- Has a docket of some ring that `f` names begun and not completed (R1095)? -/
def Dev.anyExecuting (d : Dev) (f : Docket → Bool) : Bool :=
  (List.range 33).any (fun k => (d.ring k).q.any (fun x => x.executing && f x))

/-- The dockets in execution on every ring, with their ring. -/
def Dev.inExecution (d : Dev) : List (Nat × Docket) :=
  (List.range 33).flatMap (fun k => ((d.ring k).q.filter Docket.begun).map (fun x => (k, x)))

end Sys2Proof.Machine
end

