-- ==== Sys2Proof/Machine/Flags.lean ====
section
/-!
DEFINITION. Sys2Proof/Machine/Flags.lean: the flags and counters that commands compute: ERR and SUB_ERR of
UNIT_STAT, the overflow and underflow counters (R179, R180), the non-finite traps (R226 to R234, R1098), the
poison marks of a step (R702 to R709) and the validity count (R711).
-/

namespace Sys2Proof.Machine

/-! ### UNIT_STAT -/

/-- ERR: some bit of this page's UNIT_ERR is set. -/
def Dev.errAny (d : Dev) (p : Nat) : Bool :=
  d.flag p F.UNIT_ERR.ILLEGAL_WRITE || d.flag p F.UNIT_ERR.STATE_CMD || d.flag p F.UNIT_ERR.ACCESS_SIZE ||
  d.flag p F.UNIT_ERR.DRAIN_TIMEOUT || d.rd p F.UNIT_ERR.BLOCK_ERR != 0

/-- SUB_ERR: some descendant page has ERR set. -/
def Dev.subErr (d : Dev) (p : Nat) : Bool := (descendants p).any d.errAny

/-! ### Numeric control (R183 to R186) -/

/-- The NUMCTL values and the generator of a unit as an instruction that begins finds them. -/
def Dev.gen (d : Dev) (p : Nat) : Gen := ⟨d.rd p F.RNG_SEED.SEED, d.rd p F.RNG_STREAM.STREAM, d.rd p F.RNG_POS.POS⟩
def Dev.numctl (d : Dev) (p : Nat) : NumCtl :=
  { rmode := d.rd p F.NUMCTL.RMODE
    sat := d.rd p F.NUMCTL.SATMODE == 0
    nanCont := d.flag p F.NUMCTL.NAN_ACTION
    trapInf := d.flag p F.NUMCTL.TRAP_INF }

/-- OVF_CNT and UNF_CNT rise by the overflowing and underflowing elements and stop at their ends (R179, R180, R184). -/
def Dev.numCounts (d : Dev) (p ovf unf : Nat) : Dev :=
  (d.countSat p 0 F.OVF_CNT.COUNT ovf).countSat p 0 F.UNF_CNT.COUNT unf

/-! ### Non-finite events (R226 to R234, R1098) -/

/-- One non-finite event: when in its instruction it arises (an order only: a consumed element when it is read, a produced
one at `atEnd`), and KIND, FORMAT, OPERAND and place, as the trap record holds them (R237). -/
structure Event where
  time : Nat
  kind : Nat
  fmt : Nat
  operand : Nat
  m : Nat
  n : Nat
  k : Nat
  deriving DecidableEq, Repr

/-- The end of an instruction, when its produced elements raise their events (R1098). -/
def atEnd : Nat := 2 ^ 40

/-- The event that an element of value `x` raises, consumed at `time` or produced (R226, R227). -/
def eventOf (trapInf produced : Bool) (time : Nat) (x : Num) (fmt operand m n k : Nat) : List Event :=
  let time := if produced then atEnd else time
  match x with
  | .nan => [⟨time, if produced then 1 else 0, fmt, operand, m, n, k⟩]
  | .inf _ => if trapInf then [⟨time, if produced then 3 else 2, fmt, operand, m, n, k⟩] else []
  | .fin _ _ _ => []

/-- R229, R231: the earliest event comes first; in one CCLK the lowest KIND, then K, then M, then N. -/
def Event.before (a b : Event) : Bool :=
  if a.time ≠ b.time then a.time < b.time
  else if a.kind ≠ b.kind then a.kind < b.kind
  else if a.k ≠ b.k then a.k < b.k
  else if a.m ≠ b.m then a.m < b.m
  else a.n < b.n

def firstEvent : List Event → Option Event
  | [] => none
  | e :: es =>
    match firstEvent es with
    | none => some e
    | some f => if f.before e then some f else some e

/-! ### Steps (09) -/

/-- The key of the update among the first-trap slots. -/
def updateSlot : Nat := 4096

def noTrap (_ : Nat) : Option FirstTrap := none

/-- Is a micro-batch in the poisoned or counted set (DK_MB_POISON, DK_MB_COUNTED)? -/
def Dev.mbPoisoned (d : Dev) (mb : Nat) : Bool := bitAt (d.rdi P.dkCtl (mb / 64) F.DK_MB_POISON.BITS) (mb % 64)
def Dev.mbCounted (d : Dev) (mb : Nat) : Bool := bitAt (d.rdi P.dkCtl (mb / 64) F.DK_MB_COUNTED.BITS) (mb % 64)

/-- Mark micro-batch `mb` poisoned (R702, R704): its bit, and DK_ACC.POISONED when it was not marked before. -/
def Dev.poisonMb (d : Dev) (mb : Nat) : Dev :=
  if d.mbPoisoned mb then d
  else
    let d := d.wri P.dkCtl (mb / 64) F.DK_MB_POISON.BITS
      (Nat.lor (d.rdi P.dkCtl (mb / 64) F.DK_MB_POISON.BITS) (2 ^ (mb % 64)))
    d.wr P.dkCtl F.DK_ACC.POISONED (d.rd P.dkCtl F.DK_ACC.POISONED + 1)

/-- Count micro-batch `mb` (R710). -/
def Dev.countMb (d : Dev) (mb : Nat) : Dev :=
  let d := d.wri P.dkCtl (mb / 64) F.DK_MB_COUNTED.BITS
    (Nat.lor (d.rdi P.dkCtl (mb / 64) F.DK_MB_COUNTED.BITS) (2 ^ (mb % 64)))
  d.wr P.dkCtl F.DK_ACC.MB_COUNT (d.rd P.dkCtl F.DK_ACC.MB_COUNT + 1)

/-- DK_VCOUNT.VALID and ATTEMPTED (R711). -/
def Dev.vAttempted (d : Dev) : Nat := d.rd P.dkCtl F.DK_ACC.MB_COUNT
def Dev.vValid (d : Dev) : Nat :=
  if d.rd P.dkCtl F.DK_ACC.POISONED = 0 ∧ d.rd P.dkCtl F.DK_ACC.BROKEN = 0 then d.vAttempted else 0

/-- The accumulation state becomes empty (R701, R721): MB_COUNT, POISONED, BROKEN, UPD_POISON, REDUCED, both sets and
the first-trap slots. -/
def Dev.clearAccum (d : Dev) : Dev :=
  let d := d.wr P.dkCtl F.DK_ACC.MB_COUNT 0
  let d := d.wr P.dkCtl F.DK_ACC.POISONED 0
  let d := d.wr P.dkCtl F.DK_ACC.BROKEN 0
  let d := d.wr P.dkCtl F.DK_ACC.UPD_POISON 0
  let d := d.wr P.dkCtl F.DK_ACC.REDUCED 0
  { d with
    firstTraps := []
    regs := d.regs.filter (fun c => !(keyPath c.1 == P.dkCtl &&
      (keyOff c.1 == F.DK_MB_POISON.BITS.off || keyOff c.1 == F.DK_MB_COUNTED.BITS.off))) }

/-- Fields of a RUN_STEP's ARGS (R688). -/
def rsStep (k : Docket) : Nat := k.field 0x10 4
def rsMb (k : Docket) : Nat := k.field 0x14 2
def rsMbIndex (k : Docket) : Nat := rsMb k % 4096
def rsFlags (k : Docket) : Nat := k.field 0x16 1
def rsCount (k : Docket) : Bool := bitAt (rsFlags k) 0
def rsEndStep (k : Docket) : Bool := bitAt (rsFlags k) 1
def rsMask (k : Docket) : Nat := k.field 0x17 1
def rsMeStart (k : Docket) : Nat := k.field 0x18 2
def rsSfStart (k : Docket) : Nat := k.field 0x1A 2

/-- The RUN_STEP docket that a unit's part belongs to. -/
def Dev.partDocket (d : Dev) (x : Option Part) : Option Docket :=
  match x with
  | none => none
  | some q =>
    match d.docket q.ring q.n with
    | none => none
    | some k => if k.opcode = 2 then some k else none

/-- R702, R703, R705: what a non-finite event under CONTINUE marks for the RUN_STEP that the unit serves. -/
def Dev.poisonMark (d : Dev) (x : Option Part) : Dev :=
  match d.partDocket x with
  | none => d
  | some k => if rsEndStep k then d.wr P.dkCtl F.DK_ACC.UPD_POISON 1 else d.poisonMb (rsMbIndex k)

/-- The key of a RUN_STEP's first-trap slot (R709). -/
def trapKey (x : Docket) : Nat := if rsEndStep x then updateSlot else rsMbIndex x

/-- The first-trap slot that a trap recorded now fills (R709): that of the served micro-batch or update, while it is empty. -/
def Dev.trapSlot (d : Dev) (x : Option Part) : Option Nat :=
  match d.partDocket x with
  | none => none
  | some k => if (Tbl.get noTrap d.firstTraps (trapKey k)).isNone then some (trapKey k) else none

/-- R232, R709: a recorded trap sends its message, and fills its first-trap slot, under either NAN_ACTION; the slot waits for
the log slot of that message. -/
def Dev.recordTrap (d : Dev) (t name : Nat) (cls : Nat) (x : Option Part) : Dev :=
  let key := d.trapSlot x
  { d with
    outbox := d.outbox ++ [⟨name, K.NONFINITE, cls, 0, t % 2 ^ 32, 0, key⟩]
    firstTraps := (match key with
      | some k => Tbl.set noTrap d.firstTraps k (some ⟨name, t % 2 ^ 32, none⟩)
      | none => d.firstTraps) }

/-- RUNNING beside a HALTED bit: bit 7 on a tile page, bit 0 on a clerk page. A halted program does not execute. -/
def runFld (halted : Fld) : Fld := ⟨halted.off, if halted.lo = 2 then 0 else 7, 1⟩

/-- R229 to R234: the non-finite events of one instruction of unit `p`. `name` is the path that records and
messages carry (R237, R828), `x` the part that the unit serves, `pc` the instruction's index, `halted` the unit's
HALTED flag. DESIGN CHOICE, log entry 106: SEQ, RING and MB are 0 for a program that no docket started. -/
def Dev.trap (d : Dev) (t p name : Nat) (c : NumCtl) (x : Option Part) (pc : Nat) (halted : Fld)
    (evs : List Event) : Dev :=
  match firstEvent evs with
  | none => d
  | some e =>
    let cnt := evs.length
    let recording := !d.flag p F.TRAP0.VALID
    let d :=
      if recording then
        let d := d.raiseBit p F.TRAP0.VALID 0
        let d := d.wr p F.TRAP0.HALTED (bit (!c.nanCont))
        let d := d.wr p F.TRAP0.KIND e.kind
        let d := d.wr p F.TRAP0.FORMAT e.fmt
        let d := d.wr p F.TRAP0.OPERAND e.operand
        let d := d.wr p F.TRAP0.UNIT_PATH name
        let d := d.wr p F.TRAP0.SEQ (match x with | some q => q.seq | none => 0)
        let d := d.wr p F.TRAP1.RING (match x with | some q => 0x10 + q.ring | none => 0)
        let d := d.wr p F.TRAP1.INSTR pc
        let d := d.wr p F.TRAP1.MB (match x with | some q => q.mb | none => 0)
        let d := d.wr p F.TRAP2.M e.m
        let d := d.wr p F.TRAP2.N e.n
        let d := d.wr p F.TRAP2.K e.k
        let d := d.wr p F.TRAP3.TIME t
        let d := d.wr p F.TRAP3.NONFIN_CNT (cnt - 1)
        d.recordTrap t name (if c.nanCont then Cls.DEFERRED else Cls.CONTAINED) x
      else d.countSat p 0 F.TRAP3.NONFIN_CNT cnt
    if c.nanCont then d.poisonMark x else (d.wr p halted 1).wr p (runFld halted) 0

/-- A write of 1 to TRAP0.VALID clears the whole record (R235). -/
def Dev.clearTrap (d : Dev) (p : Nat) : Dev :=
  { d with regs := d.regs.filter (fun c => !(keyPath c.1 == p && decide (0x820 ≤ keyOff c.1) && decide (keyOff c.1 ≤ 0x838))) }

end Sys2Proof.Machine
end

