-- ==== Sys2Proof/Machine/Fabric.lean ====
section
/-!
DEFINITION. Sys2Proof/Machine/Fabric.lean: the Trestle network (spec 05): positions and tiles, circuits and their
credits (R345 to R349), flits on links and in queues, seal, flush and unseal (R374 to R388), and the guards of
tile instructions (R253 to R255, R651 to R653).
-/

namespace Sys2Proof.Machine

/-! ### Positions (R324 to R326) -/

/-- The slot (R59) of the tile at a bay row and column (R324); `none` at a router with no tile. -/
def gridSlot (r c : Nat) : Option Nat :=
  ([[some 16, some 17, some 0, some 18, some 19, some 8],
    [some 24, some 9, some 1, some 10, some 25, some 32],
    [some 20, some 21, some 2, some 22, some 23, some 11],
    [some 26, some 12, none, some 13, some 27, none]].getD r []).getD c none

def posSpan (pos : Nat) : Nat := bitsOf pos 7 3
def posRow (pos : Nat) : Nat := bitsOf pos 4 3
def posCol (pos : Nat) : Nat := bitsOf pos 0 4
def mkPos (s r c : Nat) : Nat := s * 128 + r * 16 + c

/-- The path of the tile at a position (R324, R325). -/
def tileAt (pos : Nat) : Option Nat :=
  let r := posRow pos
  let c := posCol pos
  if pos < 1024 ∧ c < 12 then
    (gridSlot (r % 4) (c % 6)).map (P.bayUnit (posSpan pos) (r / 4 * 2 + c / 6))
  else none

/-- The bay row and column of a slot, by R324. -/
def slotGrid (slot : Nat) : Nat × Nat :=
  match slot with
  | 16 => (0, 0) | 17 => (0, 1) | 0 => (0, 2) | 18 => (0, 3) | 19 => (0, 4) | 8 => (0, 5)
  | 24 => (1, 0) | 9 => (1, 1) | 1 => (1, 2) | 10 => (1, 3) | 25 => (1, 4) | 32 => (1, 5)
  | 20 => (2, 0) | 21 => (2, 1) | 2 => (2, 2) | 22 => (2, 3) | 23 => (2, 4) | 11 => (2, 5)
  | 26 => (3, 0) | 12 => (3, 1) | 13 => (3, 3) | 27 => (3, 4)
  | _ => (3, 5)

/-- The position of a tile. -/
def posOf (p : Nat) : Nat :=
  let b := bayOf p
  let g := slotGrid (slotOf p)
  mkPos (spanOf p) (b / 2 * 4 + g.1) (b % 2 * 6 + g.2)

/-- The position path whose work a matrix engine does: its own, or for a serving spare the position served (R318). -/
def Dev.servedPath (d : Dev) (p : Nat) : Nat :=
  if kindOf p = some .spare then
    (if d.flag p F.ME_REMAP.ACTIVE then d.rd p F.ME_REMAP.SERVED else p)
  else p

/-- The position from which an engine reads and drains (R246): its own; for a serving spare the position served. An idle spare
has none, nor has an engine whose position a spare serves (R316). -/
def Dev.enginePos (d : Dev) (p : Nat) : Option Nat :=
  if kindOf p = some .spare then
    (if d.flag p F.ME_REMAP.ACTIVE then some (posOf (d.rd p F.ME_REMAP.SERVED)) else none)
  else if d.flag p F.UNIT_STAT.SPARED then none
  else some (posOf p)

/-- The unit that works at a position: its tile, or the spare that serves it (R316). -/
def Dev.unitAt (d : Dev) (pos : Nat) : Option Nat :=
  (tileAt pos).map (fun p =>
    let spare := P.spare (spanOf p)
    if d.flag spare F.ME_REMAP.ACTIVE && d.rd spare F.ME_REMAP.SERVED == p then spare else p)

/-! ### The watchdog's ports (R368 to R373) -/

/-- A port of a position. -/
def portKey (pos port : Nat) (out : Bool) : Nat := pos * 128 + bit out * 64 + port

/-- The epoch and phase of a span's network (R374, TR_STAT). -/
def Dev.epoch (d : Dev) (s : Nat) : Nat := d.rd (P.trestle s) F.TR_STAT.EPOCH
def Dev.phase (d : Dev) (s : Nat) : Nat := d.rd (P.trestle s) F.TR_STAT.PHASE
def Dev.isSealed (d : Dev) (s : Nat) : Bool := d.phase s != 0

/-- The port makes progress: its count returns to zero, but while its span is sealed (R373), and it may report again (R369,
R371). -/
def Dev.progress (d : Dev) (k : Nat) : Dev :=
  { d with watch := {
    counts := if d.isSealed (posSpan (k / 128)) then d.watch.counts else Tbl.set noNat d.watch.counts k 0
    told := d.watch.told.filter (fun x => x != k) } }

/-! ### Circuits -/

/-- The number of a circuit in the device: owner × 4096 + number. -/
def Circuit.key (c : Circuit) : Nat := c.owner * 4096 + c.num

def Dev.circuits (d : Dev) : List Circuit :=
  match d.plan with
  | none => []
  | some p => p.circuits

def Dev.circuit (d : Dev) (k : Nat) : Option Circuit := d.circuits.find? (fun c => c.key == k)

/-- The circuit of an out-port, and the circuits into an in-port. -/
def Dev.circFrom (d : Dev) (pos port : Nat) : Option Circuit :=
  d.circuits.find? (fun c => c.srcPos == pos && c.srcPort == port)
def Dev.circsInto (d : Dev) (pos port : Nat) : List Circuit :=
  d.circuits.filter (fun c => c.dstPos == pos && c.dstPort == port)

/-- Is there a read circuit from the tile at `src` into in-port `port` of the tile at `dst` (R341, R246)? -/
def Dev.hasRead (d : Dev) (src dst port : Nat) : Bool :=
  (d.circsInto dst port).any (fun c => c.kind == 1 && c.srcPos == src)

/-- Flits that leave a circuit's source (R345, R346): each ready flit is sent, with the source span's epoch, while
the sender holds a credit, the circuit's injection set has a slot and its span is not sealed (R375). A read circuit's answers were paid for at the
request (R347). -/
def Dev.pump (d : Dev) (c : Circuit) : Dev :=
  let x := d.circ c.key
  let n := if d.isSealed (posSpan c.srcPos) || c.slots == 0 then 0
           else if c.kind = 1 then x.ready.length else min x.ready.length x.credits
  let sent := (x.ready.take n).map (fun f => { f with epoch := d.epoch (posSpan c.srcPos) })
  let d := d.putCirc c.key { x with
    ready := x.ready.drop n
    inFlight := x.inFlight ++ sent
    credits := if c.kind = 1 then x.credits else x.credits - n }
  if n = 0 then d else d.progress (portKey c.srcPos c.srcPort true)

/-- Hand flits to an out-port; they go as its credits allow. -/
def Dev.offer (d : Dev) (c : Circuit) (fs : List Flit) : Dev :=
  (d.putCirc c.key { d.circ c.key with ready := (d.circ c.key).ready ++ fs }).pump c

/-- A consumer removes `n` flits from its queue: one credit each goes back on the reverse lane (R348), or the
consumer's own free places grow for a read circuit (R347). -/
def Dev.consume (d : Dev) (c : Circuit) (n : Nat) : Dev :=
  let x := d.circ c.key
  let d := d.putCirc c.key { x with
    queue := x.queue.drop n
    back := if c.kind = 1 then x.back else x.back + n
    credits := if c.kind = 1 then x.credits + n else x.credits }
  if n = 0 then d else d.progress (portKey c.dstPos c.dstPort false)

/-- The free places of an in-port that read circuits feed: the depth of its one queue (R394) less what has been requested
over all of them and not yet removed (R347). -/
def Dev.portRoom (d : Dev) (pos port : Nat) : Nat :=
  let cs := (d.circsInto pos port).map (fun c => d.circ c.key)
  (cs.map (·.depth)).headD 0 - (cs.map (fun x => x.depth - x.credits)).sum

/-- The read circuit from the tile of a span's row into an in-port (R341). -/
def Dev.readCircuit (d : Dev) (s pos : Nat) (k : RowKey) : Option Circuit :=
  (d.circsInto pos k.port).find? (fun c => c.kind == 1 && c.srcPos == posOf (spPath s (tileOfRow k.row)))

/-- A consumer requests a row over a read circuit, with its span's epoch (R347, R417): four places are taken. -/
def Dev.requestRow (d : Dev) (c : Circuit) (row : Nat) : Dev :=
  let x := d.circ c.key
  d.putCirc c.key { x with
    credits := x.credits - 4
    requests := x.requests ++ [BitVec.ofNat 16 (d.epoch (posSpan c.dstPos) * 2 ^ 14 + rowInTile row)] }

/-- The rows of a list that find room are requested, in order for each in-port (R347, R546); answers those that wait. -/
def Dev.askRows (d : Dev) (s pos : Nat) : List RowKey → List RowKey × Dev
  | [] => ([], d)
  | k :: rest =>
    match d.readCircuit s pos k with
    | none => let r := d.askRows s pos rest; (k :: r.1, r.2)
    | some c =>
      if 4 ≤ d.portRoom pos k.port then (d.requestRow c k.row).askRows s pos rest
      else let r := d.askRows s pos rest; (k :: r.1, r.2)

/-- The row at the head of a read circuit's queue, once its four flits are there (R419, R420). -/
def Dev.rowAtHead (d : Dev) (c : Circuit) : Option (Nat × List Byte) :=
  let q := (d.circ c.key).queue.take 4
  if q.length = 4 then some ((q.map (·.row)).headD 0, q.flatMap (·.payload)) else none

/-- A unit of span `s` discards `n` flits of a stale epoch (R384); the first discard of the epoch is reported (R385). -/
def Dev.staleFlits (d : Dev) (t s n : Nat) : Dev :=
  let d := d.count (P.trestle s) F.TR_STALE_CNT.COUNT n
  if d.staleSeen.contains s then d
  else { d with staleSeen := s :: d.staleSeen }.send t (P.trestle s) K.TR_STALE Cls.INFO 0 0

/-- FLIT_ARRIVE (R384 to R388): the oldest flit on the links of a circuit reaches the in-port's queue; the joint
switch and the receiving unit discard a flit of a stale epoch, and the joint switch counts on its own page what it
discards (log entry 22). -/
def Dev.flitArrive (d : Dev) (t : Nat) (c : Circuit) : Dev :=
  let x := d.circ c.key
  match x.inFlight with
  | [] => d
  | f :: rest =>
    let s := posSpan c.srcPos
    let s' := posSpan c.dstPos
    let d := d.putCirc c.key { x with inFlight := rest }
    if s ≠ s' ∧ f.epoch ≠ d.epoch s then d.count P.joints F.TR_STALE_CNT.COUNT 1
    else if s ≠ s' ∧ d.phase s' = 3 then d.count P.joints F.TR_FLUSH_CNT.COUNT 1
    else
      let e := if s ≠ s' then d.epoch s' else f.epoch
      if e ≠ d.epoch s' then d.staleFlits t s' 1
      else
        let y := d.circ c.key
        d.putCirc c.key { y with queue := y.queue ++ [{ f with epoch := e }] }

/-- CREDIT_RETURN (R345): one credit arrives at the sender, which may use it at once in the next slot. -/
def Dev.creditReturn (d : Dev) (c : Circuit) : Dev :=
  let x := d.circ c.key
  if x.back = 0 then d
  else (d.putCirc c.key { x with back := x.back - 1, credits := x.credits + 1 }).pump c

/-! ### Seal, flush, unseal (R374 to R383) -/

/-- Spans as a list of numbers from a mask. -/
def spansOf (mask : Nat) : List Nat := (List.range 8).filter (fun s => bitAt mask s)

/-- TR_STAT.PHASE of every span of a scope. -/
def Dev.setPhase (d : Dev) (spans : List Nat) (ph : Nat) : Dev :=
  spans.foldl (fun d s => d.wr (P.trestle s) F.TR_STAT.PHASE ph) d

/-- The circuits that a flush of the scope resets: those whose credits a unit of the scope holds (R379). -/
def inScopeSrc (spans : List Nat) (c : Circuit) : Bool := spans.contains (posSpan c.srcPos)
def inScopeDst (spans : List Nat) (c : Circuit) : Bool := spans.contains (posSpan c.dstPos)

/-- Flits that a flush of the scope removes from one circuit: at its source and on its links, and in its queue. -/
def Dev.flushSrc (d : Dev) (spans : List Nat) (c : Circuit) : Nat :=
  if inScopeSrc spans c then (d.circ c.key).ready.length + (d.circ c.key).inFlight.length else 0
def Dev.flushDst (d : Dev) (spans : List Nat) (c : Circuit) : Nat :=
  if inScopeDst spans c then (d.circ c.key).queue.length else 0

/-- One circuit flushed. -/
def Dev.flushCirc (d : Dev) (spans : List Nat) (c : Circuit) : Dev :=
  let x := d.circ c.key
  let src := inScopeSrc spans c
  let dst := inScopeDst spans c
  let x := if src then { x with ready := [], inFlight := [], back := 0 } else x
  let x := if dst then { x with queue := [], requests := [] } else x
  let owns := if c.kind = 1 then dst else src
  d.putCirc c.key (if owns then { x with credits := x.depth } else x)

/-- The Tollgates of a scope: path × 16 + number, with their loaded state (R379: token queues empty). -/
def flushTgs (spans : List Nat) (tgs : Tbl TgSt) : Tbl TgSt :=
  tgs.map (fun c => if spans.contains (spanOf (c.1 / 16)) then (c.1, { c.2 with tokens := [], moving := none }) else c)

/-- R518: the row moves of a scope's clerks are discarded and counted for the next TZ.EFENCE. -/
def flushMoves (spans : List Nat) (cs : Tbl ClerkSt) : Tbl ClerkSt :=
  cs.map (fun c => if spans.contains (spanOf c.1) then
    (c.1, { c.2 with discarded := c.2.discarded + c.2.moves.length, moves := [] }) else c)

/-- Rows that an instruction or an OFFLOAD of the scope had requested and not yet received are to be requested again. -/
def Fetch.again (f : Fetch) : Fetch := { f with want := f.rows.filter (fun k => !f.got.any (fun g => g.1 == k)) }
def refetchMes (spans : List Nat) (ms : Tbl MeSt) : Tbl MeSt :=
  ms.map (fun c => if spans.contains (spanOf c.1) then
    (c.1, { c.2 with op := c.2.op.map (fun o => { o with fetch := o.fetch.again }) }) else c)
def refetchSfs (spans : List Nat) (ms : Tbl SfSt) : Tbl SfSt :=
  ms.map (fun c => if spans.contains (spanOf c.1) then
    (c.1, { c.2 with op := c.2.op.map (fun o => { o with fetch := o.fetch.again }) }) else c)
def refetchCopies (spans : List Nat) (cs : List Copy) : List Copy :=
  cs.map (fun c => if spans.contains c.span then { c with rows := c.rows.map (fun r => (r.1, r.2.1, false)) } else c)

def allSpans : List Nat := List.range 8

/-- R349: a circuit whose credits do not stand at its depth after quiesce or flush is repaired and reported; a read circuit's
are its consumer's (R347). -/
def Dev.checkCredits (d : Dev) (t : Nat) (spans : List Nat) : Dev :=
  d.circuits.foldl (fun d c =>
    let x := d.circ c.key
    let s := posSpan (if c.kind = 1 then c.dstPos else c.srcPos)
    if spans.contains s ∧ x.credits ≠ x.depth then
      ((d.putCirc c.key { x with credits := x.depth }).count (P.trestle s) F.TR_CREDIT_CNT.COUNT 1).send t
        (P.trestle s) K.TR_CREDIT Cls.CONTAINED 0 0
    else d) d

/-- Flush (R379, R380, R349): everything queued in the scope and on its links is removed and counted at the spans'
networks, credits return to the depth, and one TR_FLUSH message carries the count, saturated at 2^19 - 1. `from_`
is the unit that reports: a span's network or the joint switch. -/
def Dev.flush (d : Dev) (t : Nat) (spans : List Nat) (from_ : Nat) : Dev :=
  let cs := d.circuits
  let removed (s : Nat) : Nat :=
    ((cs.filter (fun c => posSpan c.srcPos == s)).map (d.flushSrc spans)).sum +
    ((cs.filter (fun c => posSpan c.dstPos == s)).map (d.flushDst spans)).sum
  let total := (allSpans.map removed).sum
  let d := spans.foldl (fun d s => d.count (P.trestle s) F.TR_FLUSH_CNT.COUNT (removed s)) d
  let d := cs.foldl (fun d c => d.flushCirc spans c) d
  let d := { d with mes := refetchMes spans d.mes, sfs := refetchSfs spans d.sfs, copies := refetchCopies spans d.copies, clerks := flushMoves spans d.clerks, tgs := flushTgs spans d.tgs, spReqs := d.spReqs.filter (fun c => !spans.contains (spanOf c.1)), ioDrains := d.ioDrains.filter (fun x => !spans.contains (spanOf x.io)) }
  let d := d.checkCredits t spans
  if total = 0 then d else d.send t from_ K.TR_FLUSH Cls.INFO 0 (min total (2 ^ 19 - 1))

/-- Unseal (R382, R373): the epoch of each span advances by one, modulo 4, the watchdog counts return to zero and
injection resumes. -/
def Dev.unsealSpans (d : Dev) (spans : List Nat) : Dev :=
  let d := spans.foldl (fun d s =>
    (d.wr (P.trestle s) F.TR_STAT.EPOCH (d.epoch s + 1)).wr (P.trestle s) F.TR_STAT.PHASE 0) d
  let other (k : Nat) : Bool := !spans.contains (posSpan (k / 128))
  let d := { d with
    staleSeen := d.staleSeen.filter (fun s => !spans.contains s)
    watch := { counts := d.watch.counts.filter (fun c => other c.1), told := d.watch.told.filter other } }
  d.circuits.foldl (fun d c => if inScopeSrc spans c then d.pump c else d) d

/-- R383: does a tier or Kyino request of the scope still carry the epoch that an unseal would enter? A window write into
scratchpad rows carries none before its rows enter the fabric. -/
def Dev.epochBusy (d : Dev) (spans : List Nat) : Bool :=
  d.reqs.any (fun r => isSpanPath r.path && spans.contains (spanOf r.path) && r.epoch == (d.epoch (spanOf r.path) + 1) % 4) ||
  d.winWrites.any (fun w => w.near && spans.contains w.span && w.epoch == (d.epoch w.span + 1) % 4)

/-! ### Guards (R253 to R255, R651 to R653) -/

def noReader (_ : Nat) : Reader := {}
def Dev.reader (d : Dev) (p w : Nat) : Reader := Tbl.get noReader d.readers (p * 1024 + w)
def Dev.putReader (d : Dev) (p w : Nat) (r : Reader) : Dev :=
  { d with readers := Tbl.set noReader d.readers (p * 1024 + w) r }

/-- The span that declares a STREAM window (R398). -/
def Dev.winDecl (d : Dev) (w : Nat) : Option WinDecl :=
  match d.plan with
  | none => none
  | some p => p.windows.find? (fun x => x.num == w)

/-- The delivery count of a STREAM window (CA_WIN_STAT.DELIV of its span's Carter). -/
def Dev.delivery (d : Dev) (w : Nat) : Nat :=
  match d.winDecl w with
  | some x => d.rdi (P.carter x.span) w F.CA_WIN_STAT.DELIV
  | none => 0

/-- The low 16 bits of the counter that a guard tests (R253). -/
def Dev.guardCount (d : Dev) (kind idx : Nat) : Nat :=
  if kind = 1 then d.delivery idx % 2 ^ 16 else d.rdi P.kyWindows idx F.KY_WIN_COUNT.COUNT % 2 ^ 16

/-- Is the guard of an instruction met (R254)? An unguarded instruction never waits; nor does one with the
reserved GKIND 3, which only a program that no LOAD_PLAN checked can hold (log entry 13). -/
def Dev.guardOk (d : Dev) (i : W128) : Bool :=
  gKind i == 0 || gKind i == 3 || guardMet (d.guardCount (gKind i) (gIdx i)) (gVal i)

/-- R652, R653: an instruction guarded on window `w` with value `g` issues: the hold that its reader had, whose rows have all been
read, has become its mark, and it holds `g`. -/
def Dev.meetGuard (d : Dev) (p : Nat) (i : W128) : Dev :=
  if gKind i = 1 then
    let r := d.reader p (gIdx i)
    d.putReader p (gIdx i) { hold := some (gVal i), mark := r.hold.or r.mark, idle := false }
  else d

/-- Does a tile still stand at the instruction with index `pc`, none of it issued? -/
def Dev.standsAt (d : Dev) (p pc : Nat) : Bool :=
  d.flag p F.ME_STAT.RUNNING && d.rd p F.ME_STAT.PC == pc && !(d.me p).ending && (d.me p).op == none && (d.sf p).op == none

/-- A guarded instruction is tried (R254, R255): with its guard met it issues by `k`, unless `k` finds that it must stall; otherwise
it waits. -/
def Dev.tryGuard (d : Dev) (p : Nat) (i : W128) (k wait : Dev → Dev) : Dev :=
  if d.guardOk i then
    let x := k (d.meetGuard p i)
    if x.standsAt p (d.rd p F.ME_STAT.PC) then { x with readers := d.readers } else x
  else wait d

/-- R651: at the start of a program every hold of the reader is clear and its mark empty. -/
def Dev.readersStart (d : Dev) (p : Nat) : Dev :=
  { d with readers := d.readers.filter (fun c => c.1 / 1024 != p) }

/-- R653: at END every hold clears and its value becomes the mark; the reader is idle on every window of the plan. -/
def Dev.readersEnd (d : Dev) (p : Nat) : Dev :=
  let wins : List Nat := match d.plan with
    | none => []
    | some pl => (pl.windows.filter (fun (w : WinDecl) => w.span == spanOf p)).map (fun w => w.num)
  wins.foldl (fun d w =>
    let r := d.reader p w
    d.putReader p w { hold := none, mark := (match r.hold with | some g => some g | none => r.mark), idle := true }) d

end Sys2Proof.Machine
end

