-- ==== Sys2Proof/Machine/Scratch.lean ====
section
/-!
DEFINITION. Sys2Proof/Machine/Scratch.lean: scratchpad tiles (row reads and writes with SECDED, arbitration and
check mode, R410 to R444), accesses of the debug aperture and the Ledger (R478 to R486).
-/

namespace Sys2Proof.Machine

/-- A command whose whole effect is on the block: clock and queue stay as they are. -/
def upd (s : State) (f : Dev → Dev) : Host.Outcome State Fault Refusal := .next { s with d := f s.d }

/-- Do CCLK and BCLK run (R1027)? -/
def Dev.clocked (d : Dev) : Bool := !d.flag P.clocks F.CK_STAT.FALLBACK

/-- The effect of a command of a unit that CCLK or BCLK drives (R1022): none while they are stopped (R1027; log entry 103). -/
def work (s : State) (f : Dev → Dev) : Host.Outcome State Fault Refusal := upd s (fun d => if d.clocked then f d else d)

/-! ### Rows -/

/-- The scratchpad tile number 8 b + i of a tile path within its span. -/
def tileNo (p : Nat) : Nat := bayOf p * 8 + (slotOf p - 16)

/-- A row's check tag: bit 0 WRITTEN, bit 1 READ (R436, R441). -/
def Dev.tag (d : Dev) (p row : Nat) : Nat :=
  Nat.xor (Tbl.get noNat d.spTags (p * 2 ^ 14 + row)) (Tbl.get noNat d.spTagBase p)
def Dev.putTag (d : Dev) (p row tag : Nat) : Dev :=
  { d with spTags := Tbl.set noNat d.spTags (p * 2 ^ 14 + row) (Nat.xor tag (Tbl.get noNat d.spTagBase p)) }

/-- R441: every row's tag of a tile takes the state that SP_CHECK.INIT names. -/
def Dev.initTags (d : Dev) (p : Nat) : Dev :=
  { d with
    spTags := d.spTags.filter (fun c => c.1 / 2 ^ 14 != p)
    spTagBase := Tbl.set noNat d.spTagBase p (if d.flag p F.SP_CHECK.INIT then 3 else 0) }

/-- Is a row inside the exempt range (R437)? -/
def Dev.exempt (d : Dev) (p row : Nat) : Bool :=
  decide (d.rd p F.SP_CHECK_EXEMPT.FIRST ≤ row) &&
  decide (row < d.rd p F.SP_CHECK_EXEMPT.FIRST + d.rd p F.SP_CHECK_EXEMPT.COUNT)

/-- R439, R440: a SCHED_ORDER fault of a row access. A row that no circuit carries names no port: PORT is open then (log
entry 91). -/
def Dev.schedOrder (d : Dev) (t p kind : Nat) (port : Option Nat) (row : Nat) : Dev :=
  if d.flag p F.SP_ORDER.VALID then d.countSat p 0 F.SP_ORDER_CNT.COUNT 1
  else
    let d := d.raiseBit p F.SP_ORDER.VALID 0
    let d := d.wr p F.SP_ORDER.KIND kind
    let n := match port with
      | some x => (x, d)
      | none => d.freeBelow 8
    let d := n.2.wr p F.SP_ORDER.PORT n.1
    let d := d.wr p F.SP_ORDER.ROW row
    let d := d.wr p F.SP_ORDER.TIME t
    d.setErr t p 16 K.SCHED_ORDER Cls.DEFERRED (tileNo p * 2 ^ 14 + row) 0

/-- The bookkeeping of a fabric row read of `row` at tile `p` over out-port `port` (R436 to R440, SP_RD_CNT). -/
def Dev.noteRead (d : Dev) (t p : Nat) (port : Option Nat) (row : Nat) : Dev :=
  let d := d.count p F.SP_RD_CNT.COUNT 1
  if d.flag p F.SP_CHECK.ENABLE then
    let tag := d.tag p row
    let d := if tag % 2 = 0 ∧ !d.exempt p row then d.schedOrder t p 0 port row else d
    d.putTag p row (Nat.lor tag 2)
  else d

/-- A row of tile `p` is written: SP_WR_CNT; the write replaces a pending write-back (R414). -/
def Dev.countWrite (d : Dev) (p row : Nat) : Dev :=
  let d := d.count p F.SP_WR_CNT.COUNT 1
  { d with spFix := d.spFix.filter (fun x => x != p * 2 ^ 14 + row) }

/-- The bookkeeping of a fabric row write (R436 to R440). -/
def Dev.noteWrite (d : Dev) (t p : Nat) (port : Option Nat) (row : Nat) : Dev :=
  let d := d.countWrite p row
  if d.flag p F.SP_CHECK.ENABLE then
    let d := if d.tag p row = 1 ∧ !d.exempt p row then d.schedOrder t p 1 port row else d
    d.putTag p row 1
  else d

/-- A fabric write of a whole row (R411, R424, R434). -/
def Dev.fabricWrite (d : Dev) (t s a : Nat) (port : Option Nat) (bytes : List Byte) : Dev :=
  (d.noteWrite t (spPath s (tileOfRow a)) port (rowInTile a)).putRow s a bytes

/-- Bytes whose value the spec leaves open. -/
def Dev.freeBytes (d : Dev) (n : Nat) : List Byte × Dev :=
  ((List.range n).map (fun i => Config.freeByte (d.fresh * 2 ^ 64 + i)), { d with fresh := d.fresh + 1 })

/-- R414, R415, R1101: what a read of a row with `bits` bits in error in one word answers. A row whose corrected contents
wait for their write-back still has its bit in error (R414). -/
def Dev.eccRead (d : Dev) (t p row bits : Nat) : List Byte × Dev :=
  let a := tileNo p * 2 ^ 14 + row
  let good := d.row (spanOf p) a
  let bits := if bits = 0 ∧ d.spFix.contains (p * 2 ^ 14 + row) then 1 else bits
  let r := d.secded bits
  let d := r.2
  let ce (d : Dev) : Dev :=
    let d := d.count p F.SP_ECC_CNT.COUNT 1
    let d := if d.spFix.contains (p * 2 ^ 14 + row) then d else { d with spFix := d.spFix ++ [p * 2 ^ 14 + row] }
    d.send t p K.SP_CE Cls.CORRECTED a 0
  if bits = 0 then (good, d)
  else if bits = 1 then (good, ce d)
  else
    let f := d.freeBytes 512
    let d := f.2
    if r.1 = 2 then (f.1, d.setErr t p 18 K.SP_UE Cls.CONTAINED a 0)
    else if r.1 = 1 then (f.1, ce (d.putRow (spanOf p) a f.1))
    else (f.1, d)

/-- A fabric read of span row address `a` of span `s` at its tile, with its bookkeeping and `bits` bits in error. -/
def Dev.fabricRead (d : Dev) (t s a : Nat) (port : Option Nat) (bits : Nat) : List Byte × Dev :=
  let p := spPath s (tileOfRow a)
  (d.noteRead t p port (rowInTile a)).eccRead t p (rowInTile a) bits

/-! ### Arbitration (R427 to R431) -/

/-- The ports of a tile to which requests without a general port are given: after port 7 come the aperture, Carter's requests for
rows of ONCHIP pages and rows of remote writes (log entry 91). -/
def aperturePort : Nat := 8
def carterPort : Nat := 9
def windowPort : Nat := 10

/-- The port that a class serves next: the first with a ready request, in round-robin order after the port last
served. -/
def roundRobin (last : Nat) (ports : List Nat) : Option Nat :=
  match ports.filter (fun p => decide (p > last)) with
  | [] => ports.foldl (fun acc p => match acc with | none => some p | some q => some (min q p)) none
  | after => after.foldl (fun acc p => match acc with | none => some p | some q => some (min q p)) none

/-- Before anything has been served the order starts at port 0. -/
def lastPort (_ : Nat) : Nat := 10
def Dev.lastServed (d : Dev) (p k : Nat) : Nat := Tbl.get lastPort d.spLast (p * 4 + k)

/-- Units of 1/15 CCLK in a cycle of MCLK: 4, 3.2, 2 2/3 or 2 CCLK at divider 4, 5, 6 or 8; CCLK stands under FALLBACK
(R1027). -/
def Dev.cclkUnits (d : Dev) : Nat :=
  if !d.clocked then 0
  else match d.rd P.clocks F.CK_STAT.DIV with
    | 0 => 60
    | 1 => 48
    | 2 => 40
    | _ => 30

/-- Is the CCLK of an arbitration one whose device-wide count modulo 64 is 63 (R429)? The count is known by the MCLK cycle
that runs; which of the cycle's CCLK it is, is a free choice (log entry 19). -/
def Dev.guaranteed (d : Dev) : Bool × Dev :=
  let first := d.cclk / 15
  let n := max 1 ((d.cclk + d.cclkUnits + 14) / 15 - first)
  if (List.range n).any (fun i => (first + i) % 64 == 63) then
    let g := d.freeBelow n
    ((first + g.1) % 64 == 63, g.2)
  else (false, d)

/-- A class of a tile's port serves a port: the next order starts after it (R430). -/
def Dev.markServed (d : Dev) (p k port : Nat) : Dev := { d with spLast := Tbl.set lastPort d.spLast (p * 4 + k) port }

/-- Which port is served, and whether it was a narrow request served while a wide one was ready: wide before
narrow, but in a guaranteed cycle narrow before wide (R428, R429). -/
def Dev.arbitrate (d : Dev) (p k : Nat) (wide narrow : List Nat) : Option (Nat × Bool) × Dev :=
  let g := d.guaranteed
  let d := g.2
  let w := roundRobin (d.lastServed p k) wide
  let n := roundRobin (d.lastServed p (k + 1)) narrow
  match w, n with
  | none, none => (none, d)
  | some x, none => (some (x, false), d.markServed p k x)
  | none, some y => (some (y, false), d.markServed p (k + 1) y)
  | some x, some y =>
    if g.1 then (some (y, true), d.markServed p (k + 1) y)
    else (some (x, false), d.markServed p k x)

/-- Does a circuit end at a matrix engine, or begin at one? -/
def isMePos (pos : Nat) : Bool := match tileAt pos with
  | some p => kindOf p == some .me
  | none => false
def isIoPos (pos : Nat) : Bool := match tileAt pos with
  | some p => kindOf p == some .io
  | none => false

/-! ### Row requests, reads and writes -/

/-- ROW_REQUEST (R417, R418): the oldest request word on the circuit's reverse lane reaches the tile; one of a
stale epoch is discarded and counted. -/
def Dev.rowRequest (d : Dev) (circ : Nat) (word : BitVec 16) : Dev :=
  match d.circuit circ with
  | none => d
  | some c =>
    let x := d.circ circ
    match x.requests with
    | [] => d
    | w :: rest =>
      if w ≠ word then d
      else
        let d := d.putCirc circ { x with requests := rest }
        let s := posSpan c.srcPos
        let p := (tileAt c.srcPos).getD 0
        if w.toNat / 2 ^ 14 ≠ d.epoch s then d.count (P.trestle s) F.TR_STALE_CNT.COUNT 1
        else { d with spReqs := Tbl.set noReqs d.spReqs p
                        (Tbl.get noReqs d.spReqs p ++ [⟨circ, w.toNat % 2 ^ 14⟩]) }

/-- The four answer flits of a row (R419). -/
def answerFlits (rowAddr : Nat) (bytes : List Byte) : List Flit :=
  (List.range 4).map (fun j =>
    { epoch := 0, last := decide (j = 3), kind := 2, row := rowAddr, payload := (bytes.drop (128 * j)).take 128 })

/-- The first request of each out-port of a tile that is ready (R421), with its port and width class. -/
def Dev.readyReads (d : Dev) (p : Nat) : List (Nat × Bool × RowReq) :=
  (Tbl.get noReqs d.spReqs p).filterMap (fun r =>
    match d.circuit r.circ with
    | none => none
    | some c => if (d.circ r.circ).ready.length + 4 ≤ 8 then some (c.srcPort, isMePos c.dstPos, r) else none)

/-! ### Aperture requests at a tile (R447, R448) -/

/-- The tile that a BAR2 offset names, and the row (R445). -/
def aperturePath (off : Nat) : Nat := spPath (bitsOf off 28 3) (bitsOf off 23 5)
def apertureRow (off : Nat) : Nat := bitsOf off 9 14

/-- The oldest aperture access of a tile that waits for its read, or for the write of its merged row. -/
def Dev.apRead (d : Dev) (p : Nat) : Option ApReq := d.apQ.find? (fun a => aperturePath a.off == p && a.merged == none)
def Dev.apWrite (d : Dev) (p : Nat) : Option ApReq := d.apQ.find? (fun a => aperturePath a.off == p && a.merged != none)

/-- A row with the bytes of an aperture write merged in. -/
def mergeRow (row : List Byte) (off : Nat) (bytes : List Byte) : List Byte :=
  row.take (off % 512) ++ bytes ++ row.drop (off % 512 + bytes.length)

/-- The narrow read of an aperture access: it answers a read; for a write it yields the merged row. -/
def Dev.apServeRead (d : Dev) (t bits : Nat) (a : ApReq) : Dev :=
  let p := aperturePath a.off
  let e := (d.count p F.SP_RD_CNT.COUNT 1).eccRead t p (apertureRow a.off) bits
  let d := e.2
  match a.data with
  | none => { d with rdata := BitVec.ofNat 512 (natOfBytes ((e.1.drop (a.off % 512)).take a.size)), apQ := d.apQ.erase a }
  | some bs => { d with apQ := d.apQ.replace a { a with merged := some (mergeRow e.1 a.off bs) } }

/-- The narrow write of the merged row: it replaces whatever the row holds by then (R448), and changes no tag (R436). -/
def Dev.apServeWrite (d : Dev) (a : ApReq) : Dev :=
  let p := aperturePath a.off
  match a.merged with
  | none => d
  | some row =>
    let d := (d.countWrite p (apertureRow a.off)).putRow (spanOf p) (tileNo p * 2 ^ 14 + apertureRow a.off) row
    { d with apQ := d.apQ.erase a }

/-- The first group of a write stream's queue: `none` while it is not complete, else its length and whether it
keeps R422. -/
def writeGroup (tile : Nat) (q : List Flit) : Option (Nat × Bool) :=
  let four := q.take 4
  let early := (four.take 3).findIdx? (fun f => f.last)
  match early with
  | some j => some (j + 1, false)
  | none =>
    if q.length < 4 then none
    else
      let row := (four.headD ⟨0, false, 0, 0, 0, 0, []⟩).row
      let ok := four.all (fun f => f.row == row && f.kind == 3) && decide (tileOfRow row = tile) &&
        ((four.getD 3 ⟨0, false, 0, 0, 0, 0, []⟩).last)
      some (4, ok)

/-- Is a row declared for a STREAM window by the loaded plan (R427)? -/
def Dev.rowDeclared (d : Dev) (s a : Nat) : Bool :=
  match d.plan with
  | none => false
  | some p => p.windows.any (fun w => w.span == s && decide (w.first ≤ a) && decide (a < w.first + w.count))

/-- The write-stream groups at a tile that are ready, or that end in a breach of R422, with their circuits. -/
def Dev.writeGroups (d : Dev) (p : Nat) : List (Circuit × Nat × Bool) :=
  (d.circuits.filter (fun c => c.dstPos == posOf p && c.kind != 1)).filterMap (fun c =>
    (writeGroup (tileNo p) (d.circ c.key).queue).map (fun g => (c, g)))

/-- Does span `s` hold a loaded plan (R444)? Its header names the span, or an entry names something of it. -/
def planUses (pl : Plan) (s : Nat) : Bool :=
  bitAt pl.mask s || pl.circuits.any (fun c => posSpan c.srcPos == s || posSpan c.dstPos == s) ||
  pl.mePrograms.any (fun e => posSpan e.pos == s) || pl.sfPrograms.any (fun e => posSpan e.pos == s) ||
  pl.images.any (fun e => posSpan e.pos == s) || pl.tollgates.any (fun e => posSpan e.pos == s) ||
  pl.descs.any (fun e => posSpan e.pos == s) || pl.windows.any (fun w => w.span == s)
def Dev.planIn (d : Dev) (s : Nat) : Bool := match d.plan with
  | none => false
  | some pl => planUses pl s

/-- SP_CHECK_WRITE (R441, R444): a write of SP_CHECK is refused while the span holds a loaded plan; a change of
ENABLE from 0 to 1 initialises the tags. -/
def Dev.spCheckWrite (d : Dev) (t p : Nat) (v : Word) : Dev :=
  if d.planIn (spanOf p) then d.stateCmd t p
  else
    let was := d.flag p F.SP_CHECK.ENABLE
    let d := (d.wr p F.SP_CHECK.ENABLE (bitsOf v.toNat 0 1)).wr p F.SP_CHECK.INIT (bitsOf v.toNat 1 1)
    if !was && d.flag p F.SP_CHECK.ENABLE then d.initTags p else d

/-! ### The debug aperture (R445 to R449) -/

/-- A naturally aligned access of 4, 8, 16, 32 or 64 bytes inside BAR2 (R446). -/
def apertureOk (off size : Nat) : Bool :=
  (size == 4 || size == 8 || size == 16 || size == 32 || size == 64) && off % size == 0 && decide (off < 2 ^ 31)

/-- Does the aperture answer for a tile: the device is READY (R979), no KILL runs (R449), the tile is not held in
reset (R50)? -/
def Dev.apertureOpen (d : Dev) (p : Nat) : Bool :=
  d.flag P.boot F.BT_STAT.READY && d.kill == none && !d.heldInReset p

/-! ### The Ledger (R478 to R486) -/

/-- VALUE, LIMIT and START of counter `c` of span `s`. -/
def Dev.lgValue (d : Dev) (s c : Nat) : Nat := d.rdi (P.ledger s) c F.LG_COUNTER.VALUE
def Dev.lgLimit (d : Dev) (s c : Nat) : Nat := d.rdi (P.ledger s) c F.LG_COUNTER.LIMIT
def Dev.lgStart (d : Dev) (s c : Nat) : Nat := d.rdi (P.ledger s) c F.LG_START.START

/-- The result of EXHAUSTED (R479). -/
def exhausted : Nat := 0x8000000000000000

/-- FADD (R478, R479): the result word, and the Ledger after it. -/
def Dev.ledgerFadd (d : Dev) (s c n : Nat) : Nat × Dev :=
  let p := P.ledger s
  let v := d.lgValue s c
  let l := d.lgLimit s c
  let d := d.count p F.LG_OP_CNT.COUNT 1
  if v ≥ l then (exhausted, d.countSat p 0 F.LG_EXH_CNT.COUNT 1)
  else
    let g := min n (l - v)
    (g * 2 ^ 32 + v, d.wri p c F.LG_COUNTER.VALUE (v + g))

/-- FREAD (R478): VALUE in bits [31:0], LIMIT in bits [63:32]. -/
def Dev.ledgerFread (d : Dev) (s c : Nat) : Nat × Dev :=
  (d.lgValue s c + d.lgLimit s c * 2 ^ 32, d.count (P.ledger s) F.LG_OP_CNT.COUNT 1)

/-- FSET (R478): VALUE, LIMIT and START. -/
def Dev.ledgerFset (d : Dev) (s c v l : Nat) : Dev :=
  let p := P.ledger s
  let d := d.count p F.LG_OP_CNT.COUNT 1
  let d := d.wri p c F.LG_COUNTER.VALUE v
  let d := d.wri p c F.LG_COUNTER.LIMIT l
  d.wri p c F.LG_START.START v

/-- A result answered to the requester. -/
def Dev.answer (r : Nat × Dev) : Dev := { r.2 with rdata := BitVec.ofNat 512 r.1 }

/-! ### The commands -/

def execRowRequest (circ : Nat) (w : BitVec 16) (s : State) := work s (fun d => d.rowRequest circ w)
def execSpCheckWrite (p : Nat) (v : Word) (s : State) := upd s (fun d => d.spCheckWrite s.now p v)
def execFadd (span c n : Nat) (s : State) := work s (fun d => Dev.answer (d.ledgerFadd span c n))
def execFread (span c : Nat) (s : State) := work s (fun d => Dev.answer (d.ledgerFread span c))
def execFset (span c : Nat) (v l : W32) (s : State) := work s (fun d => d.ledgerFset span c v.toNat l.toNat)

end Sys2Proof.Machine
end

