-- ==== Sys2Proof/Machine/Parts.lean ====
section
/-!
DEFINITION. Sys2Proof/Machine/Parts.lean: the parts of a RUN_STEP: which units it uses (R690), how a unit starts its
part (R691, R692, R694, R531, R256, R264, R651) and ends it (R695), and when the RUN_STEP's work has ended (R696,
R524).
-/

namespace Sys2Proof.Machine

/-- The entry of a position in a program section of the loaded plan. -/
def progAt (ps : List ProgEntry) (pos : Nat) : Option ProgEntry := ps.find? (fun e => e.pos == pos)

/-- R690: the units of a RUN_STEP over a span mask, in order of path; a served position is run by its spare. -/
def Dev.runUnits (d : Dev) (mask : Nat) : List Nat :=
  match d.plan with
  | none => []
  | some pl =>
    (spansOf mask).flatMap (fun s =>
      let spare := P.spare s
      let engine (e : ProgEntry) : Option Nat :=
        if posSpan e.pos = s then
          match tileAt e.pos with
          | some p => if d.flag spare F.ME_REMAP.ACTIVE && d.rd spare F.ME_REMAP.SERVED == p then some spare else some p
          | none => none
        else none
      pl.mePrograms.filterMap engine ++
      (pl.sfPrograms.filter (fun e => posSpan e.pos == s)).filterMap (fun e => tileAt e.pos) ++
      (pl.images.filter (fun e => posSpan e.pos == s)).filterMap (fun e => tileAt e.pos))

/-- The ENTRY of the program that a unit runs: ME_CTL.ENTRY or SF_CTL.ENTRY, which LOAD_PLAN sets. -/
def Dev.entryOf (d : Dev) (p : Nat) : Nat := d.rd p F.ME_CTL.ENTRY

/-- A matrix engine begins its program at `pc` (R256, R264, R651); the contents of banks, cells, shadow registers (R266) and
of the weight double-buffer stay. -/
def Dev.startMe (d : Dev) (p pc : Nat) (x : Option Part) : Dev :=
  let d := d.putMe p { d.me p with loops := [], cfg := 3, ending := false, part := x }
  let d := d.wr p F.ME_BASE0.VALUE 0
  let d := d.wr p F.ME_BASE1.VALUE 0
  let d := d.wr p F.ME_BASE2.VALUE 0
  let d := d.wr p F.ME_BASE3.VALUE 0
  let d := d.wr p F.ME_STAT.LOOP_DEPTH 0
  let d := d.wr p F.ME_STAT.GUARD_WAIT 0
  let d := d.wr p F.ME_STAT.HALTED 0
  let d := d.readersStart p
  (d.wr p F.ME_STAT.PC pc).wr p F.ME_STAT.RUNNING 1

/-- An SF tile begins its program at `pc`. -/
def Dev.startSf (d : Dev) (p pc : Nat) (x : Option Part) : Dev :=
  let d := d.putSf p { d.sf p with loops := [], part := x }
  let d := d.wr p F.SF_STAT.LOOP_DEPTH 0
  let d := d.wr p F.SF_STAT.GUARD_WAIT 0
  let d := d.wr p F.SF_STAT.HALTED 0
  let d := d.readersStart p
  (d.wr p F.SF_STAT.PC pc).wr p F.SF_STAT.RUNNING 1

def zeroXWord (_ : Nat) : Word := 0

/-- A clerk begins at its ENTRY (R531): x1 to x31 are zero but a0 to a2; everything else keeps its value. -/
def Dev.startClerk (d : Dev) (p a0 a1 a2 : Nat) (x : Option Part) : Dev :=
  let regs := Tbl.set zeroXWord (Tbl.set zeroXWord (Tbl.set zeroXWord [] 10 (BitVec.ofNat 64 a0)) 11
    (BitVec.ofNat 64 a1)) 12 (BitVec.ofNat 64 a2)
  let d := d.putClerk p { d.clerk p with x := regs, pc := BitVec.ofNat 64 (d.rd p F.GC_CTL.ENTRY), part := x }
  let d := d.wr p F.GC_STAT.IDLE 0
  let d := d.wr p F.GC_STAT.WAITING 0
  let d := d.wr p F.GC_STAT.HALTED 0
  d.wr p F.GC_STAT.RUNNING 1

/-- The RUN_STEP in execution for a docket. -/
def Dev.run (d : Dev) (k n : Nat) : Option RunEx := d.runs.find? (fun r => r.ring == k && r.n == n)
def Dev.putRun (d : Dev) (r : RunEx) : Dev :=
  { d with runs := d.runs.map (fun x => if x.ring = r.ring ∧ x.n = r.n then r else x) }

/-- Does a sub-docket of a parent still run (R524)? -/
def Dev.subsOpen (d : Dev) (k n : Nat) : Bool :=
  d.subs.any (fun b => b.parent.ring == k && b.parent.n == n &&
    (match b.stage with | .ended _ _ => false | _ => true))

/-- Does a descriptor drain of a docket still wait at an I/O tile, or a write request of one, or the read that makes it visible
(R636)? -/
def Dev.drainsOpen (d : Dev) (k n : Nat) : Bool :=
  d.ioDrains.any (fun x => match x.part with | some q => q.ring == k && q.n == n | none => false) ||
  d.reqs.any (fun r => r.owner == .ring k n && (r.kind == 3 || r.kind == 10))

/-- R696: when the parts of all its units have ended, no sub-docket of it runs and its drains are visible, the RUN_STEP's record
becomes ready: TIER_ERROR when a failure under ABORT_REQ befell it (R679), else OK, which COMPLETION_WRITE refines by R707. -/
def Dev.finishRun (d : Dev) (k n : Nat) : Dev :=
  match d.run k n with
  | none => d
  | some r =>
    if r.waiting = [] ∧ r.active = [] ∧ !d.subsOpen k n ∧ !d.drainsOpen k n then
      let d := { d with runs := d.runs.filter (fun x => !(x.ring == k && x.n == n)) }
      match r.tierError with
      | some det => d.endDocket k n St.TIER_ERROR det
      | none => d.endDocket k n St.OK 0
    else d

/-- The part of unit `p` of the RUN_STEP that it serves ends (R695, R696). -/
def Dev.partEnd (d : Dev) (p : Nat) (x : Option Part) : Dev :=
  match x with
  | none => d
  | some q =>
    match d.run q.ring q.n with
    | none => d
    | some r => (d.putRun { r with active := r.active.filter (fun u => u != p) }).finishRun q.ring q.n

/-- Does the unit serve a RUN_STEP now? -/
def Dev.serving (d : Dev) (p : Nat) : Bool := d.runs.any (fun r => r.active.contains p)

/-- Does a program run on the unit? -/
def Dev.progRuns (d : Dev) (p : Nat) : Bool :=
  if kindOf p = some .clerk then d.flag p F.GC_STAT.RUNNING else d.flag p F.ME_STAT.RUNNING

/-- The RUN_STEP whose part the unit starts next: the first in begin order that waits for it (R693, R694). -/
def Dev.nextRun (d : Dev) (p : Nat) : Option RunEx :=
  if d.serving p || d.progRuns p then none else d.runs.find? (fun r => r.waiting.contains p)

/-- A slice that runs on a unit is abandoned (R884 to R886). -/
def Dev.abandonSlice (d : Dev) (p : Nat) : Dev :=
  if d.slices.any (fun x => x.path == p) then
    { d with slices := d.slices.filter (fun x => x.path != p) }.count P.bist F.BI_ABANDON_CNT.COUNT 1
  else d

/-- PART_START (R691 to R694, R531): unit `p`, which has ended its parts of earlier RUN_STEPs, starts its part of
the next one. A unit that is not ON is given no work (R42, R55). -/
def Dev.partStart (d : Dev) (p : Nat) : Dev :=
  match d.nextRun p with
  | none => d
  | some r =>
    match d.docket r.ring r.n with
    | none => d
    | some k =>
      if !d.on p then d
      else
        let x : Option Part := some ⟨r.ring, r.n, k.seq, rsMb k⟩
        let d := d.abandonSlice p
        let d := d.putRun { r with waiting := r.waiting.filter (fun u => u != p), active := r.active ++ [p] }
        match kindOf p with
        | some .sf => d.startSf p (if rsSfStart k = 0xFFFF then d.entryOf p else rsSfStart k) x
        | some .clerk => d.startClerk p k.seq (rsMb k) (0x10 + r.ring) x
        | _ => d.startMe p (if rsMeStart k = 0xFFFF then d.entryOf p else rsMeStart k) x

/-- A tier failure under ABORT_REQ that befell a docket (R679, R680): the first one stays. -/
def Dev.noteTierError (d : Dev) (k n det : Nat) : Dev :=
  match d.run k n with
  | some r => d.putRun { r with tierError := (match r.tierError with | some x => some x | none => some det) }
  | none => d

end Sys2Proof.Machine
end

