-- ==== Sys2Proof/Machine/Matrix.lean ====
section
/-!
DEFINITION. Sys2Proof/Machine/Matrix.lean: the matrix engines (spec 04): issue and guards, the tile instructions,
P20 and P40 accumulation, banks, drains and the shadow set, and the engine's register commands.

An MMA, LDW or LDA passes its checks at issue and then stays in the issue stage (`MeSt.op`) while the rows of its operands
come over the read circuits (R341, R347); with the last of them it leaves its result (log entry 12).
-/

namespace Sys2Proof.Machine

/-! ### Operand rows (R245 to R251) -/

/-- The bytes of a row that has come. -/
def Fetch.bytes (f : Fetch) (k : RowKey) : List Byte := match f.got.find? (fun g => g.1 == k) with
  | some g => g.2
  | none => []

/-- Have all rows come? -/
def Fetch.done (f : Fetch) : Bool := f.rows.all (fun k => f.got.any (fun g => g.1 == k))

/-- The code of width `w` that begins at bit `b` of some bytes. -/
def codeAt (bs : List Byte) (b w : Nat) : Nat := bitsOf (natOfBytes ((bs.drop (b / 8)).take 5)) (b % 8) w

/-- Element `i` of the region at span row address `base` (rows modulo 2^19) that in-port `port` reads. -/
def Fetch.elem (f : Fetch) (port base fmt i : Nat) : Nat :=
  let e := elemsPerRow fmt
  codeAt (f.bytes ⟨port, (base + i / e) % 2 ^ 19⟩) (elemBit (fmtWidth fmt) (i % e)) (fmtWidth fmt)

/-- Byte `i` of the scale region at span row address `base` (R251: 512 scale bytes to a row). -/
def Fetch.scaleByte (f : Fetch) (port base i : Nat) : Nat :=
  codeAt (f.bytes ⟨port, (base + i / 512) % 2 ^ 19⟩) (8 * (i % 512)) 8

/-- The rows of a region. -/
def Region.keys (r : Region) : List RowKey := (List.range r.rows).map (fun i => ⟨r.port, (r.base + i) % 2 ^ 19⟩)

/-- Rows that a region of `elems` elements of a format takes. -/
def regionRows (fmt elems : Nat) : Nat := (elems + elemsPerRow fmt - 1) / elemsPerRow fmt

/-- Stream index of A (m, k) or B (k, n): `i` is m or n, `cnt` M or N (R248, R249). -/
def streamIdx (p cnt i k : Nat) : Nat := (k / p * cnt + i) * p + k % p

/-- The positions of an operand along K, whole panels (R250). -/
def Operand.kp (o : Operand) : Nat := (o.k + o.p - 1) / o.p * o.p

/-- The regions of an operand: its elements, and its scales where it is MX (R251). -/
def Operand.region (o : Operand) : Region := ⟨o.port, o.base, regionRows o.fmt (o.kp * o.cnt)⟩
def Operand.scales (o : Operand) : List Region :=
  if fmtIsMx o.fmt then [⟨o.sport, o.sbase, (o.kp * o.cnt / 32 + 511) / 512⟩] else []

/-- The rows that an MMA reads for an operand: those of its regions, but none of which the loaded block holds every element
that the MMA uses (R260). -/
def Operand.rows (o : Operand) : List RowKey :=
  let loaded := match o.block with
    | none => 0
    | some _ => if o.kp = o.p then o.region.rows else o.p * o.cnt / elemsPerRow o.fmt
  o.region.keys.drop loaded ++ o.scales.flatMap Region.keys

/-- The raw code at (i, k): the stored element in bounds, else the operand's pad (R278 to R280). A block that an LDW loaded under
another FMTB is read as raw bytes in the MMA's own format, a missing byte as 0 (DESIGN CHOICE, log entry 104). -/
def Operand.code (f : Fetch) (o : Operand) (i k : Nat) : Nat :=
  if i < o.cnt ∧ k < o.k then
    match o.block, decide (k < o.p) with
    | some bs, true =>
      let e := elemsPerRow o.fmt
      codeAt (bs.drop ((i * o.p + k) / e * 512)) (elemBit (fmtWidth o.fmt) ((i * o.p + k) % e)) (fmtWidth o.fmt)
    | _, _ => f.elem o.port o.base o.fmt (streamIdx o.p o.cnt i k)
  else o.pad

/-- The scale code that goes with (i, k): 0x7F for a format without scales (R159); for an MX operand the scale of
its block when the block holds an in-bounds element, else 0x7F (R258). -/
def Operand.scale (f : Fetch) (o : Operand) (i k : Nat) : Nat :=
  if fmtIsMx o.fmt ∧ i < o.cnt ∧ k - k % 32 < o.k then f.scaleByte o.sport o.sbase (streamIdx o.p o.cnt i k / 32)
  else 0x7F

/-- The value of an operand element with its block's NaN scale (R195); the scale itself is applied at promotion. -/
def Operand.value (f : Fetch) (o : Operand) (i k : Nat) : Num :=
  if o.scale f i k = 255 then .nan else decodeElem o.fmt (o.code f i k)

/-- The `back`-th panel of an operand before its last one as the weight buffer or operand stage holds it, elements packed in
stream order. -/
def Operand.panel (f : Fetch) (o : Operand) (back : Nat) : List Byte :=
  let w := fmtWidth o.fmt
  bytesOfNat ((o.cnt * o.p * w + 7) / 8) (packNat w 0 ((List.range (o.cnt * o.p)).map (fun j =>
    o.code f (j / o.p) (o.kp - o.p * (1 + back) + j % o.p))))

/-- The operand stage after a cell-mode MMA: its last two panels of A (R240, R277). -/
def stagePanels (f : Fetch) (o : Operand) (old : List (List Byte)) : List (List Byte) :=
  if 2 * o.p ≤ o.kp then [o.panel f 0, o.panel f 1] else (o.panel f 0 :: old).take 2

/-! ### Accumulation (R283 to R287) -/

/-- Nearest integer to `n / den`, ties to even. -/
def rneDiv (n : Int) (den : Nat) : Int :=
  let q := (roundQuanta 0 0 n.natAbs den 0).1
  if n < 0 then -(q : Int) else q

/-- The partial of a chunk: significand over 2^f and exponent, or nothing yet. -/
structure Partial where
  s : Int
  e : Option Int

/-- One product enters the partial (R283). -/
def Partial.step (f : Nat) (x : Partial) (p : Num) : Partial :=
  match p with
  | .fin neg n d =>
    if n = 0 then x
    else
      let top := floorLog2 n d + 1
      let at_ (e : Int) : Int :=
        let num := n * pow2Num ((f : Int) - e)
        let den := d * pow2Den ((f : Int) - e)
        let q := rneDiv num den
        if neg then -q else q
      match x.e with
      | none => ⟨at_ top, some top⟩
      | some e =>
        if top > e then ⟨rneDiv x.s (2 ^ (top - e).toNat) + at_ top, some top⟩
        else ⟨x.s + at_ e, some e⟩
  | _ => x

/-- The value of a chunk of products with combined MX scale exponent `mx` (R283, R286, R287). -/
def chunkValue (f : Nat) (mx : Int) (ps : List Num) : Num :=
  if ps.any (fun p => p == .nan) then .nan
  else if ps.any (fun p => p == .inf false) && ps.any (fun p => p == .inf true) then .nan
  else if ps.any (fun p => p == .inf false) then .inf false
  else if ps.any (fun p => p == .inf true) then .inf true
  else
    let x := ps.foldl (Partial.step f) ⟨0, none⟩
    match x.e with
    | none => .zero
    | some e => .dyadic (decide (x.s < 0)) x.s.natAbs (e - f + mx)

/-- An accumulator element while an MMA runs: its 32-bit code and whether a conversion overflowed or underflowed. -/
structure Acc32 where
  code : Nat
  ovf : Bool
  unf : Bool

/-- A promotion of a floating-class chunk (R283, R178). -/
def Acc32.promote (sat : Bool) (a : Acc32) (v : Num) : Acc32 :=
  let r := toFp32 sat v
  let x := toFp32 sat (Num.add (fp32 a.code) (fp32 r.code))
  ⟨x.code, a.ovf || r.ovf || x.ovf, a.unf || r.unf || x.unf⟩

/-- A promotion of an integer-class chunk: INT32 saturation (R284, R285). -/
def Acc32.promoteInt (a : Acc32) (sum : Int) : Acc32 :=
  let r := convInt 32 0 0 (.ofInt (signed 32 a.code + sum))
  ⟨r.code, a.ovf || r.ovf, a.unf⟩

/-- One accumulator element of an MMA (R283, R284). -/
def mmaElement (f : Fetch) (a b : Operand) (pi : Nat) (isInt sat : Bool) (held m n : Nat) : Acc32 :=
  let w := if fmtIs16 a.fmt then 34 else 14
  (List.range (a.kp / pi)).foldl (fun acc c =>
    let prods := (List.range pi).map (fun j =>
      let k := c * pi + j
      Num.mul (a.value f m k) (b.value f n k))
    if isInt then
      acc.promoteInt (prods.foldl (fun (z : Int) p => match p with
        | .fin neg x y => if neg then z - (x / y : Nat) else z + (x / y : Nat)
        | _ => z) 0)
    else
      let mx : Int := (a.scale f m (c * pi) : Int) + b.scale f n (c * pi) - 254
      acc.promote sat (chunkValue w mx prods)) ⟨held, false, false⟩

/-! ### Issue (R254, R255, R268 to R276) -/

/-- The instruction at a tile's program counter. -/
def Dev.meInstr (d : Dev) (p : Nat) : W128 := Tbl.get noWord128 (d.me p).prog (d.rd p F.ME_STAT.PC)

/-- The opcode that an engine or an SF tile executes: a reserved one, which only a program that no LOAD_PLAN checked
can hold, acts as NOP (log entry 13). -/
def meOpcode (i : W128) : Nat :=
  if [1, 2, 3, 4, 5, 6, 7, 8, 9, 0x1F].contains (opcodeOf i) then opcodeOf i else 0
def sfOpcode (i : W128) : Nat := if [1, 2, 6, 8, 9, 0x1F].contains (opcodeOf i) then opcodeOf i else 0

def isEngine (p : Nat) : Bool := kindOf p == some .me || kindOf p == some .spare

/-- May the engine issue, and is the instruction at its PC of the given opcode? An MMA, LDW or LDA that reads its rows holds the
issue stage (R268, R269). -/
def Dev.meReady (d : Dev) (p op : Nat) : Bool :=
  isEngine p && d.on p && d.flag p F.ME_STAT.RUNNING &&
  !d.flag p F.ME_STAT.HALTED && !(d.me p).ending && (d.me p).op == none && meOpcode (d.meInstr p) == op

/-- The instruction issued: the PC advances and it waits on no guard. -/
def Dev.meAdvance (d : Dev) (p : Nat) : Dev :=
  (d.wr p F.ME_STAT.PC (d.rd p F.ME_STAT.PC + 1)).wr p F.ME_STAT.GUARD_WAIT 0

/-- An instruction completed (ME_INSTR_CNT). -/
def Dev.meDone (d : Dev) (p : Nat) : Dev := d.count p F.ME_INSTR_CNT.COUNT 1

/-- A CCLK of waiting on a guard, and on a bank, shadow or cell interlock (ME_GUARD_CYC, ME_BANK_CYC). -/
def Dev.meGuardWait (d : Dev) (p : Nat) : Dev :=
  (d.wr p F.ME_STAT.GUARD_WAIT 1).count p F.ME_GUARD_CYC.COUNT 1
def Dev.meStall (d : Dev) (p : Nat) : Dev :=
  (d.wr p F.ME_STAT.GUARD_WAIT 0).count p F.ME_BANK_CYC.COUNT 1

/-- A guarded instruction issues once its guard is met, and waits otherwise (R254, R255). -/
def Dev.meGuarded (d : Dev) (p : Nat) (k : Dev → Dev) : Dev :=
  d.tryGuard p (d.meInstr p) k (fun d => d.meGuardWait p)

/-- An engine fault at issue: cause 1 BANK_SEQ, 2 BAD_SHAPE, 3 NO_CIRCUIT (R274 to R276). -/
def Dev.meFault (d : Dev) (t p cause : Nat) : Dev :=
  let x := (d.me p).part
  let d := d.raiseBit p F.ME_FAULT.VALID 0
  let d := d.wr p F.ME_FAULT.CAUSE cause
  let d := d.wr p F.ME_FAULT.INSTR (d.rd p F.ME_STAT.PC)
  let d := d.wr p F.ME_FAULT.SEQ (match x with | some q => q.seq | none => 0)
  let d := (d.wr p F.ME_STAT.HALTED 1).wr p F.ME_STAT.RUNNING 0
  let d := d.wr p F.ME_STAT.GUARD_WAIT 0
  let name := d.servedPath p
  let d := d.setErrBit p (15 + cause)
  if d.errEnabled p (15 + cause) then d.send t name (K.ME_BANK_SEQ + (cause - 1)) Cls.CONTAINED 0 0 else d

/-- A base register (ME_BASE0 to ME_BASE3). -/
def baseFld (b : Nat) : Fld := ⟨0x88 + 8 * b, 0, 19⟩
def Dev.baseReg (d : Dev) (p b : Nat) : Nat := d.rd p (baseFld b)

/-- What the target check of R291 answers. -/
inductive Check where
  | proceed
  | stall
  | fault (cause : Nat)
  deriving DecidableEq, Repr

/-- The state of a bank: 0 FREE, 1 ACCUMULATING, 2 FULL, 3 DRAINING. -/
def bankFld (b : Bool) : Fld := if b then F.ME_STAT.BANK_B else F.ME_STAT.BANK_A
def MeSt.bank (m : MeSt) (b : Bool) : Bank := if b then m.bankB else m.bankA
def MeSt.setBank (m : MeSt) (b : Bool) (x : Bank) : MeSt := if b then { m with bankB := x } else { m with bankA := x }
def MeSt.bankQueued (m : MeSt) (b : Bool) : Bool := m.drains.any (fun q => !drSrc q.instr && drBank q.instr == b)
def MeSt.shadowQueued (m : MeSt) : Bool := m.drains.any (fun q => drSrc q.instr)

/-- R291 and R292 for an MMA on an AM bank. -/
def bankCheckMma (st : Nat) (queued accIn : Bool) (b : Bank) (m n : Nat) (isInt : Bool) : Check :=
  if st = 3 then .stall
  else if st = 0 then (if accIn then .fault 1 else .proceed)
  else if queued then .stall
  else if !accIn then .fault 1
  else if b.m = m ∧ b.n = n ∧ b.isInt = isInt then .proceed
  else .fault 1

/-- R291 for an LDA into an AM bank. -/
def bankCheckLda (st : Nat) (queued : Bool) : Check :=
  if st = 3 then .stall else if st = 0 then .proceed else if queued then .stall else .fault 1

/-- R291 for a DRAIN of an AM bank. -/
def bankCheckDrain (st : Nat) (queued : Bool) : Check :=
  if st = 3 then .stall else if st = 0 then .fault 1 else if queued then .stall else .proceed

/-- Rows of a tile that the target holds: the array has 128 rows of cells (R240). A cell-mode MMA or LDA with more, which only a
program that no LOAD_PLAN checked can hold, leaves the further rows out (DESIGN CHOICE, log entry 13). -/
def tileRows (cells : Bool) (m : Nat) : Nat := if cells then min m 128 else m

/-- R292, R297, R300 for a cell-mode MMA. -/
def cellCheckMma (m : MeSt) (cellsHeld accIn : Bool) (rows cols : Nat) (isInt : Bool) : Check :=
  if m.moving then .stall
  else if accIn != cellsHeld then .fault 1
  else if accIn && !(m.cells.m == rows && m.cells.n == cols && m.cells.isInt == isInt) then .fault 1
  else .proceed

/-- Is there a read circuit to the engine from the tile of every row of a region, into the region's in-port (R246, R273, R341)?
An engine without a position has none. -/
def Dev.readable (d : Dev) (p : Nat) (r : Region) : Bool := match d.enginePos p with
  | none => false
  | some pos => r.keys.all (fun k => d.hasRead (posOf (spPath (spanOf p) (tileOfRow k.row))) pos k.port)

/-- An MMA, LDW or LDA leaves the checks of its issue: it holds the issue stage and asks for its rows, in order for each
in-port as far as there is room (R269, R347). The PC names the next instruction to issue. -/
def Dev.meBegin (d : Dev) (p bits : Nat) (a b : Operand) (rows : List RowKey) : Dev :=
  let m := d.me p
  let r := d.askRows (spanOf p) ((d.enginePos p).getD 0) rows
  let o : EngOp := { instr := d.meInstr p, pc := d.rd p F.ME_STAT.PC, cfg := m.cfg, ctl := d.numctl p, a := a, b := b,
                     bits := bits, part := m.part, fetch := { rows := rows, want := r.1 } }
  (r.2.putMe p { m with op := some o }).meAdvance p

/-- The instruction in the issue stage leaves it. -/
def Dev.meLeave (d : Dev) (p : Nat) : Dev := (d.putMe p { d.me p with op := none }).meDone p

/-- R835, R1101: the messages of an AM or weight-buffer word with `bits` bits in error; is its value open then? -/
def Dev.amEcc (d : Dev) (t p bits : Nat) : Bool × Dev :=
  let r := d.secded bits
  let d := r.2
  let name := d.servedPath p
  let d := if bits = 0 then d
           else if r.1 = 1 then d.send t name K.ME_AM_CE Cls.CORRECTED 0 0
           else if r.1 = 2 then d.send t name K.ME_AM_UE Cls.CONTAINED 0 0 else d
  (decide (1 < bits), d)

/-- Some bytes of which one 4-byte word, at a free place, has become open. -/
def Dev.openWord (d : Dev) (bs : List Byte) : List Byte × Dev :=
  let j := d.freeBelow (bs.length / 4)
  let v := j.2.freeBytes 4
  (bs.take (4 * j.1) ++ v.1 ++ bs.drop (4 * j.1 + 4), v.2)

/-! ### MMA -/

/-- The operands of the MMA `i` of engine `p`. -/
def Dev.mmaA (d : Dev) (p : Nat) (i : W128) : Operand :=
  let cfg := (d.me p).cfg
  { port := 0, fmt := cfgFmtA cfg, base := effAddr (d.baseReg p (mmaABase i)) (mmaAOff i), sport := 2,
    sbase := effAddr (d.baseReg p (cfgASBase cfg)) (cfgASOff cfg), cnt := mmaM i, k := mmaK i,
    p := panelWidth (cfgFmtA cfg), pad := padCode (cfgAPadSel cfg) (cfgAPadV cfg) (cfgFmtA cfg), block := none }

def Dev.mmaB (d : Dev) (p : Nat) (i : W128) : Operand :=
  let cfg := (d.me p).cfg
  let base := effAddr (d.baseReg p (mmaBBase i)) (mmaBOff i)
  { port := 1, fmt := cfgFmtB cfg, base := base, sport := 3,
    sbase := effAddr (d.baseReg p (cfgBSBase cfg)) (cfgBSOff cfg), cnt := mmaN i, k := mmaK i,
    p := panelWidth (cfgFmtB cfg), pad := padCode (cfgBPadSel cfg) (cfgBPadV cfg) (cfgFmtB cfg)
    block := if mmaRes i then none else
      match (d.me p).weight with
      | some (a, n, bs) => if a = base ∧ n = mmaN i then some bs else none
      | none => none }

/-- The circuits that an MMA needs: A, B and, for MX operands, their scales (R273). -/
def Dev.mmaCircuits (d : Dev) (p : Nat) (a b : Operand) : Bool :=
  d.readable p a.region && d.readable p b.region && (a.scales ++ b.scales).all (d.readable p)

/-- The target check of the MMA, LDA or DRAIN at the PC of an engine (R291, R292, R297, R300, R301). -/
def Dev.mmaCheck (d : Dev) (p : Nat) : Check :=
  let i := d.meInstr p
  let m := d.me p
  let isInt := fmtIsInt (cfgFmtA m.cfg)
  if mmaRes i then cellCheckMma m (d.flag p F.ME_STAT.CELLS_HELD) (mmaAccIn i) (tileRows true (mmaM i)) (mmaN i) isInt
  else bankCheckMma (d.rd p (bankFld (mmaBank i))) (m.bankQueued (mmaBank i)) (mmaAccIn i) (m.bank (mmaBank i)) (mmaM i) (mmaN i) isInt
def Dev.ldaCheck (d : Dev) (p : Nat) : Check :=
  let i := d.meInstr p
  let m := d.me p
  if ldaTgt i then (if m.moving then .stall else if d.flag p F.ME_STAT.CELLS_HELD then .fault 1 else .proceed)
  else bankCheckLda (d.rd p (bankFld (ldaBank i))) (m.bankQueued (ldaBank i))
def Dev.drainCheck (d : Dev) (p : Nat) : Check :=
  let i := d.meInstr p
  let m := d.me p
  if drSrc i then
    if m.shadowQueued then .stall
    else if d.rd p F.ME_STAT.SHADOW = 0 then (if m.moving then .stall else .fault 1)
    else if d.rd p F.ME_STAT.SHADOW = 2 then .stall
    else .proceed
  else bankCheckDrain (d.rd p (bankFld (drBank i))) (m.bankQueued (drBank i))

/-- The MMA at the PC of engine `p` issues (its guard met): the target check, the shape and circuit checks; its bank begins to
accumulate. A pair outside R157, which only a program that no LOAD_PLAN checked can hold, is BAD_SHAPE (DESIGN CHOICE, log
entry 13: R272 names only K above 128 P, and R157 gives no other effect). -/
def Dev.mmaIssue (d : Dev) (t p amBits : Nat) : Dev :=
  let i := d.meInstr p
  let a := d.mmaA p i
  let b := d.mmaB p i
  match d.mmaCheck p with
  | .stall => d.meStall p
  | .fault c => d.meFault t p c
  | .proceed =>
    if (!mmaRes i && decide (mmaK i > 128 * a.p)) || !fmtPairOk a.fmt b.fmt then d.meFault t p 2
    else if !d.mmaCircuits p a b then d.meFault t p 3
    else
      let d := d.meBegin p amBits a b (a.rows ++ b.rows)
      let d := d.putMe p { d.me p with weight := none }
      if mmaRes i then d else d.wr p (bankFld (mmaBank i)) 1

/-- MMA. -/
def Dev.mmaStart (d : Dev) (t p amBits : Nat) : Dev :=
  if d.meReady p 1 then d.meGuarded p (fun d => d.mmaIssue t p amBits) else d

/-- The tile that an MMA leaves: every row of the array over 128 columns (R281). -/
def mmaTile (o : EngOp) (held : Bank) : List (Nat × Acc32) :=
  let isInt := fmtIsInt (cfgFmtA o.cfg)
  let rows := if mmaRes o.instr then 128 else mmaM o.instr
  (List.range (rows * 128)).map (fun j =>
    let h := if mmaAccIn o.instr then (Tbl.get zeroWord held.words j).toNat else 0
    (j, mmaElement o.fetch o.a o.b (promotionInterval o.cfg) isInt o.ctl.sat h (j / 128) (j % 128)))

/-- The words of a tile as a table in canonical form. -/
def tileWords (xs : List (Nat × Acc32)) : Tbl W32 :=
  xs.filterMap (fun c => if BitVec.ofNat 32 c.2.code = 0 then none else some (c.1, BitVec.ofNat 32 c.2.code))

/-- When an element of the MMA is consumed, in the order in which the array takes them: in AM mode the block of a panel of B,
then the rows of A against it; in cell mode one k at a time (R277; log entry 11). -/
def mmaTime (o : EngOp) (ofB : Bool) (m k : Nat) : Nat :=
  if mmaRes o.instr then k else k / o.a.p * 4096 + (if ofB then 0 else 1 + m)

/-- The non-finite events of an MMA (R226 to R228, R1098): each in-bounds operand element, each held accumulator
element and each in-bounds result element, once. -/
def mmaEvents (o : EngOp) (held : Bank) (out : List (Nat × Acc32)) : List Event :=
  let inf := o.ctl.trapInf
  let a := o.a
  let b := o.b
  if fmtIsInt (cfgFmtA o.cfg) then []
  else
    (List.range a.cnt).flatMap (fun m => (List.range a.k).flatMap (fun k =>
      eventOf inf false (mmaTime o false m k) (a.value o.fetch m k) a.fmt 0 m 0 k)) ++
    (List.range b.cnt).flatMap (fun n => (List.range b.k).flatMap (fun k =>
      eventOf inf false (mmaTime o true 0 k) (b.value o.fetch n k) b.fmt 1 0 n k)) ++
    (if mmaAccIn o.instr then (List.range a.cnt).flatMap (fun m => (List.range b.cnt).flatMap (fun n =>
      eventOf inf false (mmaTime o false m 0) (fp32 (Tbl.get zeroWord held.words (128 * m + n)).toNat) 4 2 m n 0)) else []) ++
    out.flatMap (fun c =>
      if c.1 / 128 < a.cnt ∧ c.1 % 128 < b.cnt then eventOf inf true 0 (fp32 c.2.code) 4 3 (c.1 / 128) (c.1 % 128) 0 else [])

/-- An uncorrected word of the AM or of the weight buffer leaves one open: a weight word, or the accumulator that it reached
(R835, R1101); which, is a free choice. -/
def Dev.mmaOpen (d : Dev) (o : EngOp) : EngOp × Option (Nat × Nat) × Dev :=
  let g := d.freeBelow 2
  let d := g.2
  if g.1 = 0 then
    let j := d.freeBelow (mmaM o.instr * 128)
    let w := j.2.freeWord
    (o, some (j.1, w.1 % 2 ^ 32), w.2)
  else match o.b.block, o.fetch.got.find? (fun x => x.1.port == 1) with
    | some bs, _ => let r := d.openWord bs; ({ o with b := { o.b with block := some r.1 } }, none, r.2)
    | none, some x =>
      let r := d.openWord x.2
      ({ o with fetch := { o.fetch with got := o.fetch.got.map (fun y => if y.1 = x.1 then (x.1, r.1) else y) } }, none, r.2)
    | none, none => (o, none, d)

/-- An MMA whose operands have come leaves its tile, counts and traps (R283 to R287, R298, R299). Of several MMAs that fill one
tile, the last one's table entries stand for R211 (DESIGN CHOICE, log entry 18). -/
def Dev.mmaFinish (d : Dev) (t p : Nat) (o : EngOp) : Dev :=
  let i := o.instr
  let e := d.amEcc t p o.bits
  let x := if e.1 then e.2.mmaOpen o else (o, none, e.2)
  let o := x.1
  let d := x.2.2
  let m := d.me p
  let held := if mmaRes i then m.cells else m.bank (mmaBank i)
  let out := mmaTile o held
  let out := match x.2.1 with
    | none => out
    | some (j, w) => out.map (fun c => if c.1 = j then (j, { c.2 with code := w }) else c)
  let bank : Bank := { m := tileRows (mmaRes i) (mmaM i), n := mmaN i, isInt := fmtIsInt (cfgFmtA o.cfg), aEnt := cfgAEnt o.cfg, bEnt := cfgBEnt o.cfg,
                       words := tileWords out }
  let m := { m with inUse := o.b.panel o.fetch 0, opStage := if mmaRes i then stagePanels o.fetch o.a m.opStage else m.opStage }
  let d := d.putMe p (if mmaRes i then { m with cells := bank, moving := !mmaHold i } else m.setBank (mmaBank i) bank)
  let d := if mmaRes i then d.wr p F.ME_STAT.CELLS_HELD 1 else d
  let d := d.numCounts p (out.filter (fun x => x.2.ovf)).length (out.filter (fun x => x.2.unf)).length
  let d := d.meLeave p
  d.trap t p (d.servedPath p) o.ctl o.part o.pc F.ME_STAT.HALTED (mmaEvents o held out)

/-! ### LDW and LDA -/

/-- A region that an LDW or LDA loads, as an operand of one panel. -/
def loadOperand (port fmt base cnt p : Nat) : Operand :=
  { port := port, fmt := fmt, base := base, sport := 0, sbase := 0, cnt := cnt, k := p, p := p, pad := 0, block := none }

/-- LDW (R259, R260): one panel of weight vectors for the idle half of the double-buffer. -/
def Dev.ldwIssue (d : Dev) (t p amBits : Nat) : Dev :=
  let i := d.meInstr p
  let fmt := cfgFmtB (d.me p).cfg
  let a := loadOperand 1 fmt (effAddr (d.baseReg p (ldwBBase i)) (ldwBOff i)) (ldwN i) (panelWidth fmt)
  let r : Region := ⟨1, a.base, regionRows fmt (a.cnt * a.p)⟩
  if !d.readable p r then d.meFault t p 3 else d.meBegin p amBits a a r.keys

def Dev.ldwStart (d : Dev) (t p amBits : Nat) : Dev :=
  if d.meReady p 4 then d.meGuarded p (fun d => d.ldwIssue t p amBits) else d

/-- The block stands in the idle half; loading consumes no element (DESIGN CHOICE, log entry 106). -/
def Dev.ldwFinish (d : Dev) (t p : Nat) (o : EngOp) : Dev :=
  let bs := o.fetch.rows.flatMap o.fetch.bytes
  let e := d.amEcc t p o.bits
  let x := if e.1 then e.2.openWord bs else (bs, e.2)
  (x.2.putMe p { x.2.me p with weight := some (o.a.base, o.a.cnt, x.1) }).meLeave p

/-- LDA (R261, R262, R291, R300): rows of 128 words for an AM bank or the cell registers. -/
def Dev.ldaIssue (d : Dev) (t p : Nat) : Dev :=
  let i := d.meInstr p
  let a := loadOperand 4 4 (effAddr (d.baseReg p (ldaSBase i)) (ldaSOff i)) (ldaM i) 128
  let r : Region := ⟨4, a.base, ldaM i⟩
  match d.ldaCheck p with
  | .stall => d.meStall p
  | .fault c => d.meFault t p c
  | .proceed =>
    if !d.readable p r then d.meFault t p 3
    else
      let d := d.meBegin p 0 a a r.keys
      if ldaTgt i then d else d.wr p (bankFld (ldaBank i)) 1

def Dev.ldaStart (d : Dev) (t p : Nat) : Dev :=
  if d.meReady p 5 then d.meGuarded p (fun d => d.ldaIssue t p) else d

/-- The rows stand in the target, with the shape, class and table entries recorded. Loading consumes no element: it raises no
non-finite event (DESIGN CHOICE, log entry 106). -/
def Dev.ldaFinish (d : Dev) (p : Nat) (o : EngOp) : Dev :=
  let i := o.instr
  let rows := tileRows (ldaTgt i) (ldaM i)
  let words := (List.range (rows * 128)).filterMap (fun j =>
    let w := o.fetch.elem 4 o.a.base 4 j
    if w = 0 then none else some (j, BitVec.ofNat 32 w))
  let b : Bank := { m := rows, n := ldaN i, isInt := ldaClass i, aEnt := cfgAEnt o.cfg, bEnt := cfgBEnt o.cfg, words := words }
  let d := if ldaTgt i then (d.putMe p { d.me p with cells := b }).wr p F.ME_STAT.CELLS_HELD 1
           else d.putMe p ((d.me p).setBank (ldaBank i) b)
  d.meLeave p

/-! ### The instruction in the issue stage -/

/-- It asks for the rows that it still wants, and completes once all have come. -/
def Dev.enginePoll (d : Dev) (t p : Nat) : Dev :=
  match (d.me p).op with
  | none => d
  | some o =>
    if o.fetch.done then
      match opcodeOf o.instr with
      | 1 => d.mmaFinish t p o
      | 4 => d.ldwFinish t p o
      | _ => d.ldaFinish p o
    else
      let r := d.askRows (spanOf p) ((d.enginePos p).getD 0) o.fetch.want
      r.2.putMe p { d.me p with op := some { o with fetch := { o.fetch with want := r.1 } } }

/-- A row at the head of a read circuit's queue is removed and kept, when the instruction in the issue stage reads it. -/
def Dev.engineTake (d : Dev) (t p : Nat) (c : Circuit) : Dev :=
  match (d.me p).op, d.rowAtHead c with
  | some o, some (row, bs) =>
    let k : RowKey := ⟨c.dstPort, row⟩
    if o.fetch.rows.contains k && !o.fetch.got.any (fun g => g.1 == k) then
      let d := d.consume c 4
      let d := d.putMe p { d.me p with op := some { o with fetch := { o.fetch with got := o.fetch.got ++ [(k, bs)] } } }
      d.enginePoll t p
    else d
  | _, _ => d

/-- MMA, LDW and LDA issue; one that has every row already (a loaded block) completes at once. -/
def Dev.mma (d : Dev) (t p amBits : Nat) : Dev := (d.mmaStart t p amBits).enginePoll t p
def Dev.ldw (d : Dev) (t p amBits : Nat) : Dev := (d.ldwStart t p amBits).enginePoll t p
def Dev.lda (d : Dev) (t p : Nat) : Dev := (d.ldaStart t p).enginePoll t p

/-- Does the instruction in the issue stage target a bank? -/
def MeSt.opTargets (m : MeSt) (b : Bool) : Bool := match m.op with
  | none => false
  | some o =>
    match opcodeOf o.instr with
    | 1 => !mmaRes o.instr && mmaBank o.instr == b
    | 5 => !ldaTgt o.instr && ldaBank o.instr == b
    | _ => false

/-- BANK_FULL (R290): the adder trees hold no step for an ACCUMULATING bank any more. -/
def Dev.bankFull (d : Dev) (p : Nat) (b : Bool) : Dev :=
  if d.rd p (bankFld b) = 1 ∧ !(d.me p).opTargets b then d.wr p (bankFld b) 2 else d

/-- SHADOW_MOVE (R299): a waiting tile moves to the EMPTY shadow registers. -/
def Dev.shadowMove (d : Dev) (p : Nat) : Dev :=
  let m := d.me p
  if m.moving ∧ d.rd p F.ME_STAT.SHADOW = 0 then
    let d := d.putMe p { m with shadow := m.cells, cells := {}, moving := false }
    (d.wr p F.ME_STAT.CELLS_HELD 0).wr p F.ME_STAT.SHADOW 1
  else d

/-! ### DRAIN -/

/-- Rows that a drain to scratchpad writes (R304 to R306). -/
def drainRows (i : W128) (m : Nat) : Nat := regionRows (drFmtO i) (m * 128)

/-- The circuit over which a drain leaves: out-port 0 to scratchpad, out-port 1 to the bay's I/O tile. -/
def Dev.drainCircuit (d : Dev) (p : Nat) (i : W128) : Option Circuit := match d.enginePos p with
  | none => none
  | some pos => d.circFrom pos (if drDKind i then 1 else 0)

/-- The circuits of a drain: out-port 0 to the tile of its whole region, or out-port 1 to the bay's I/O tile (R273). -/
def Dev.drainCircuits (d : Dev) (p : Nat) (i : W128) (dest m : Nat) : Bool :=
  let q := d.servedPath p
  match d.drainCircuit p i with
  | none => false
  | some c =>
    if drDKind i then c.dstPos == posOf (P.io (spanOf q) (bayOf q))
    else (List.range (drainRows i m)).all (fun j => c.dstPos == posOf (spPath (spanOf p) (tileOfRow ((dest + j) % 2 ^ 19))))

/-- DRAIN (R270, R271, R291, R301): it enters the drain queue, with the table values, NUMCTL and generator of that moment. The
generator's position advances at once (DEDUCED, log entry 92: a later DRAIN that enters the queue before this one completes
begins from the advanced position). -/
def Dev.drainIssue (d : Dev) (t p : Nat) : Dev :=
  let i := d.meInstr p
  let m := d.me p
  let src := if drSrc i then m.shadow else m.bank (drBank i)
  match d.drainCheck p with
  | .stall => d.meStall p
  | .fault c => d.meFault t p c
  | .proceed =>
    let dest := effAddr (d.baseReg p (drDBase i)) (drDOff i)
    if !d.drainCircuits p i dest src.m then d.meFault t p 3
    else if m.drains.length ≥ 2 then d.wr p F.ME_STAT.GUARD_WAIT 0
    else
      let c := d.numctl p
      let q : Drain :=
        { instr := i, pc := d.rd p F.ME_STAT.PC, dest := if drDKind i then drDOff i % 256 else dest,
          sinvA := d.amaxWord src.aEnt 0 / 2 ^ 32, sinvB := d.amaxWord src.bEnt 0 / 2 ^ 32,
          scaleY := d.amaxWord (drYEnt i) 0 % 2 ^ 32, rmode := rndMode (drRnd i) c.rmode, sat := c.sat,
          nanCont := c.nanCont, trapInf := c.trapInf, gen := d.gen p, part := m.part }
      let d := if q.rmode = 1 ∧ drFmtO i ≠ 12 then d.wr p F.RNG_POS.POS (q.gen.pos + 128 * src.m) else d
      (d.putMe p { m with drains := m.drains ++ [q] }).meAdvance p

def Dev.drain (d : Dev) (t p : Nat) : Dev :=
  if d.meReady p 2 then d.meGuarded p (fun d => d.drainIssue t p) else d

/-- One drained element: its true value v of steps 1 and 2, its output code, and its overflow and underflow
(R212 to R217, R302). -/
structure Drained where
  acc : Num
  v : Num
  out : Nat
  ovf : Bool
  unf : Bool

def drainElement (q : Drain) (isInt : Bool) (f : Num) (word u : Nat) : Drained :=
  if drFmtO q.instr = 12 then
    { acc := if isInt then .zero else fp32 word, v := .zero, out := word, ovf := false, unf := false }
  else
    let acc := if isInt then fp32 (toFp32 q.sat (.ofInt (signed 32 word))).code else fp32 word
    let v := toFp32 q.sat (Num.mul acc f)
    let o := convTo (drFmtO q.instr) q.sat q.rmode u (Num.mul (fp32 v.code) (fp32 q.scaleY))
    { acc := if isInt then .zero else acc, v := fp32 v.code, out := o.code, ovf := v.ovf || o.ovf, unf := v.unf || o.unf }

/-- R215: the AMAX after a drain whose largest finite in-bounds magnitude is `x`. -/
def amaxUpdate (amax : Nat) (xs : List Num) : Nat :=
  let fin := xs.filter Num.isFinite
  let x := maxMag fin
  if fin = [] then amax
  else match fp32 amax with
    | .nan => amax
    | a => if Num.lt a x then (toFp32 true x).code else amax

/-- Word 1 bits [31:0] of entry `y`, unless it is entry 0 or FROZEN (R215). -/
def Dev.updateAmax (d : Dev) (y : Nat) (xs : List Num) : Dev :=
  if y = 0 ∨ bitAt (d.amaxWord y 3) 36 then d
  else
    let w := d.amaxWord y 1
    d.putAmaxWord y 1 (w / 2 ^ 32 * 2 ^ 32 + amaxUpdate (w % 2 ^ 32) xs)

/-- Draw `e` of a generator from its position on (R558). -/
def Gen.draw (g : Gen) (e : Nat) : Nat := philoxDraw g.seed g.stream (g.pos + e)

/-- The tile that a drain reads. -/
def Dev.drainSource (d : Dev) (p : Nat) (q : Drain) : Bank :=
  if drSrc q.instr then (d.me p).shadow else (d.me p).bank (drBank q.instr)

/-- The factor of drain step 1 (R212). -/
def drainFactor (q : Drain) : Conv := toFp32 q.sat (Num.mul (fp32 q.sinvA) (fp32 q.sinvB))

/-- The drained tile: the in-bounds elements by their place in the tile. -/
def drainTile (q : Drain) (b : Bank) : List (Nat × Drained) :=
  let f := fp32 (drainFactor q).code
  (List.range b.m).flatMap (fun m => (List.range b.n).map (fun n =>
    let j := 128 * m + n
    let u := if q.rmode = 1 then drawU (q.gen.draw j) else 0
    (j, drainElement q b.isInt f (Tbl.get zeroWord b.words j).toNat u)))

/-- The code at column `n` of output vector `m`: an in-bounds output, else the DRAIN's pad (R303). -/
def outCode (q : Drain) (b : Bank) (xs : List (Nat × Drained)) (m n : Nat) : Nat :=
  if n < b.n then
    match xs.find? (fun x => x.1 == 128 * m + n) with
    | some x => x.2.out
    | none => 0
  else padCode (drPadSel q.instr) (drPadV q.instr) (drFmtO q.instr)

/-- The element stream of the output region (R304 to R306), padded to whole rows. -/
def drainStream (q : Drain) (b : Bank) (xs : List (Nat × Drained)) : List Nat :=
  let vec (lo hi m : Nat) : List Nat := (List.range (hi - lo)).map (fun n => outCode q b xs m (lo + n))
  let body :=
    if drSplit64 q.instr then (List.range b.m).flatMap (vec 0 64) ++ (List.range b.m).flatMap (vec 64 128)
    else (List.range b.m).flatMap (vec 0 128)
  let total := drainRows q.instr b.m * elemsPerRow (drFmtO q.instr)
  body ++ List.replicate (total - body.length) (padCode (drPadSel q.instr) (drPadV q.instr) (drFmtO q.instr))

/-- Whole rows as flits of a write stream from a span row address on (R422). -/
def rowFlits (dest : Nat) (bytes : List Byte) : List Flit :=
  (List.range (bytes.length / 128)).map (fun j =>
    { epoch := 0, last := decide (j % 4 = 3), kind := 3, row := (dest + j / 4) % 2 ^ 19, payload := (bytes.drop (128 * j)).take 128 })

/-- A stream of element codes as the bytes of whole rows. -/
def streamBytes (fmt : Nat) (codes : List Nat) : List Byte :=
  let e := elemsPerRow fmt
  (List.range (codes.length / e)).flatMap (fun r => bytesOfNat 512 (packNat (fmtWidth fmt) 0 ((codes.drop (r * e)).take e)))

/-- One vector for an I/O tile: as many flits as an element has bytes, each with its mask of columns 0 to N - 1 (R307, R333,
R365). They carry KIND 3 (log entry 93). -/
def vectorFlits (q : Drain) (b : Bank) (xs : List (Nat × Drained)) (m : Nat) : List Flit :=
  let w := fmtWidth (drFmtO q.instr)
  let n := w / 8
  let bytes := bytesOfNat (128 * n) (packNat w 0 ((List.range 128).map (outCode q b xs m)))
  (List.range n).map (fun j =>
    { epoch := 0, last := decide (j + 1 = n), kind := 3, desc := q.dest,
      mask := BitVec.ofNat 128 (2 ^ min 128 (b.n * n - 128 * j) - 1), payload := (bytes.drop (128 * j)).take 128 })

/-- The flits of a drain, in the order in which they leave. -/
def drainFlits (q : Drain) (b : Bank) : List Flit :=
  let xs := drainTile q b
  if drDKind q.instr then (List.range b.m).flatMap (vectorFlits q b xs)
  else rowFlits q.dest (streamBytes (drFmtO q.instr) (drainStream q b xs))

/-- DRAIN_START (R293, R294): the queue's first DRAIN begins to read its source once that is FULL; its output flits form and
leave as the circuit takes them (R296, R346). `amBits` bits of an AM word that it reads are in error. -/
def Dev.drainStart (d : Dev) (t p amBits : Nat) : Dev :=
  match (d.me p).drains with
  | [] => d
  | q :: rest =>
    let fld := if drSrc q.instr then F.ME_STAT.SHADOW else bankFld (drBank q.instr)
    let full := if drSrc q.instr then 1 else 2
    if q.reading ∨ d.rd p fld ≠ full then d
    else
      let e := if drSrc q.instr then (false, d) else d.amEcc t p amBits
      let d := e.2
      let d :=
        if e.1 then
          let b := (d.me p).bank (drBank q.instr)
          let j := d.freeBelow (b.m * 128)
          let w := j.2.freeWord
          w.2.putMe p ((w.2.me p).setBank (drBank q.instr) { b with words := Tbl.set zeroWord b.words j.1 (BitVec.ofNat 32 w.1) })
        else d
      let b := d.drainSource p q
      let d := (d.putMe p { d.me p with drains := { q with reading := true } :: rest }).wr p fld (full + 1)
      match d.drainCircuit p q.instr with
      | none => d
      | some c =>
        let d :=
          if drDKind q.instr then
            match tileAt c.dstPos with
            | some io => { d with ioDrains := d.ioDrains ++ [{ io := io, circ := c.key, desc := q.dest, count := b.m, part := q.part }] }
            | none => d
          else d
        d.offer c (drainFlits q b)

/-- The bank that held a drained tile is FREE, or the shadow set EMPTY (R296). -/
def Dev.releaseSource (d : Dev) (p : Nat) (i : W128) : Dev :=
  if drSrc i then (d.putMe p { d.me p with shadow := {} }).wr p F.ME_STAT.SHADOW 0
  else (d.putMe p ((d.me p).setBank (drBank i) {})).wr p (bankFld (drBank i)) 0

/-- END completes once the drain queue is empty (R265): the program ends, the readers' holds clear (R653) and the
engine's part of its RUN_STEP ends (R695). -/
def Dev.meEnd (d : Dev) (p : Nat) : Dev :=
  let m := d.me p
  let d := d.putMe p { m with ending := false, part := none }
  let d := d.wr p F.ME_STAT.RUNNING 0
  let d := d.meDone p
  (d.readersEnd p).partEnd p m.part

/-- The non-finite events of a drain (R1098), row after row (R296). -/
def drainEvents (q : Drain) (xs : List (Nat × Drained)) : List Event :=
  xs.flatMap (fun x =>
    eventOf q.trapInf false (x.1 / 128) x.2.acc 4 2 (x.1 / 128) (x.1 % 128) 0 ++
    (if drFmtO q.instr = 12 then []
     else eventOf q.trapInf true 0 (decodeElem (drFmtO q.instr) x.2.out) (drFmtO q.instr) 3 (x.1 / 128) (x.1 % 128) 0))

/-- Have all flits of the drain left its out-port? -/
def Dev.drainSent (d : Dev) (p : Nat) (i : W128) : Bool := match d.drainCircuit p i with
  | none => true
  | some c => (d.circ c.key).ready == []

/-- DRAIN_COMPLETE (R212 to R217, R295, R302 to R307): the drain that reads its source has sent its last flit; the source
becomes FREE or EMPTY, and AMAX, counters and traps follow. R212 gives a DRAIN with FMTO = INT32 no part of step 1 or 2 to count
(DESIGN CHOICE, log entry 94). What its rows consumed is recorded here too, all at once (DESIGN CHOICE, log entry 106). An engine
that it halts does not end its part (R233, R697). -/
def Dev.drainComplete (d : Dev) (t p : Nat) : Dev :=
  match (d.me p).drains with
  | [] => d
  | q :: rest =>
    if !(q.reading && d.drainSent p q.instr) then d
    else
      let b := d.drainSource p q
      let raw := drFmtO q.instr = 12
      let f := drainFactor q
      let xs := drainTile q b
      let ovf := (xs.filter (fun x => x.2.ovf)).length + (if f.ovf ∧ !raw then 1 else 0)
      let unf := (xs.filter (fun x => x.2.unf)).length + (if f.unf ∧ !raw then 1 else 0)
      let d := if raw then d else d.updateAmax (drYEnt q.instr) (xs.map (fun x => x.2.v))
      let d := d.numCounts p ovf unf
      let d := d.putMe p { d.me p with drains := rest }
      let d := d.releaseSource p q.instr
      let d := d.meDone p
      let d := d.trap t p (d.servedPath p) ⟨q.rmode, q.sat, q.nanCont, q.trapInf⟩ q.part q.pc F.ME_STAT.HALTED (drainEvents q xs)
      if (d.me p).ending && rest == [] && !d.flag p F.ME_STAT.HALTED then d.meEnd p else d

/-! ### The other instructions -/

/-- MCFG: the tile configuration (R256). -/
def Dev.mcfg (d : Dev) (p : Nat) : Dev :=
  if d.meReady p 3 then ((d.putMe p { d.me p with cfg := d.meInstr p }).meAdvance p).meDone p else d

/-- SETB. -/
def Dev.setb (d : Dev) (p : Nat) : Dev :=
  if d.meReady p 7 then
    let i := d.meInstr p
    let old := d.baseReg p (setbSel i)
    let d := d.wr p (baseFld (setbSel i)) (if setbAdd i then old + setbValue i else setbValue i)
    (d.meAdvance p).meDone p
  else d

/-- The SF tile's instruction at its PC, and whether it may issue. -/
def Dev.sfInstr (d : Dev) (p : Nat) : W128 := Tbl.get noWord128 (d.sf p).prog (d.rd p F.SF_STAT.PC)
def Dev.sfReady (d : Dev) (p op : Nat) : Bool :=
  kindOf p == some .sf && d.on p && d.flag p F.SF_STAT.RUNNING && !d.flag p F.SF_STAT.HALTED &&
  (d.sf p).op == none && sfOpcode (d.sfInstr p) == op
def Dev.sfAdvance (d : Dev) (p : Nat) : Dev :=
  ((d.wr p F.SF_STAT.PC (d.rd p F.SF_STAT.PC + 1)).wr p F.SF_STAT.GUARD_WAIT 0).count p F.SF_INSTR_CNT.COUNT 1

/-- A CCLK of waiting on a guard (SF_GUARD_CYC). -/
def Dev.sfGuardWait (d : Dev) (p : Nat) : Dev := (d.wr p F.SF_STAT.GUARD_WAIT 1).count p F.SF_GUARD_CYC.COUNT 1

/-- WAIT (R254, R255) on either kind of tile. -/
def Dev.tileWait (d : Dev) (p : Nat) : Dev :=
  if d.meReady p 6 then d.meGuarded p (fun d => (d.meAdvance p).meDone p)
  else if d.sfReady p 6 then
    d.tryGuard p (d.sfInstr p) (fun d => d.sfAdvance p) (fun d => d.sfGuardWait p)
  else d

/-- LOOP pushes its count; ENDL returns to the instruction after the matching LOOP until the count has run (R263).
A stack entry holds the index after the LOOP and the iterations still to run. The stack has four levels (R240): a fifth LOOP,
which only a program that no LOAD_PLAN checked can hold, drops the outermost (DESIGN CHOICE, log entry 13). -/
def loopPush (loops : List (Nat × Nat)) (pc count : Nat) : List (Nat × Nat) := ((pc + 1, count) :: loops).take 4
def loopEnd (loops : List (Nat × Nat)) (pc : Nat) : List (Nat × Nat) × Nat :=
  match loops with
  | [] => ([], pc + 1)
  | (a, c) :: rest => if c > 1 then ((a, c - 1) :: rest, a) else (rest, pc + 1)

def Dev.tileLoop (d : Dev) (p : Nat) : Dev :=
  if d.meReady p 8 then
    let m := d.me p
    let l := loopPush m.loops (d.rd p F.ME_STAT.PC) (loopCount (d.meInstr p))
    (((d.putMe p { m with loops := l }).wr p F.ME_STAT.LOOP_DEPTH l.length).meAdvance p).meDone p
  else if d.sfReady p 8 then
    let m := d.sf p
    let l := loopPush m.loops (d.rd p F.SF_STAT.PC) (loopCount (d.sfInstr p))
    ((d.putSf p { m with loops := l }).wr p F.SF_STAT.LOOP_DEPTH l.length).sfAdvance p
  else d

def Dev.tileEndl (d : Dev) (p : Nat) : Dev :=
  if d.meReady p 9 then
    let m := d.me p
    let r := loopEnd m.loops (d.rd p F.ME_STAT.PC)
    let d := (d.putMe p { m with loops := r.1 }).wr p F.ME_STAT.LOOP_DEPTH r.1.length
    (d.wr p F.ME_STAT.PC r.2).meDone p
  else if d.sfReady p 9 then
    let m := d.sf p
    let r := loopEnd m.loops (d.rd p F.SF_STAT.PC)
    let d := (d.putSf p { m with loops := r.1 }).wr p F.SF_STAT.LOOP_DEPTH r.1.length
    (d.wr p F.SF_STAT.PC r.2).count p F.SF_INSTR_CNT.COUNT 1
  else d

/-- The circuits of an SF tile's out-ports. -/
def Dev.outsEmpty (d : Dev) (p : Nat) : Bool :=
  d.circuits.all (fun c => c.srcPos != posOf p || (d.circ c.key).ready == [])

/-- END of an SF tile: complete when every output of earlier instructions has been sent (R541). -/
def Dev.sfEnd (d : Dev) (p : Nat) : Dev :=
  let m := d.sf p
  let d := d.putSf p { m with part := none }
  let d := (d.sfAdvance p).wr p F.SF_STAT.RUNNING 0
  (d.readersEnd p).partEnd p m.part

/-- END (R265, R541, R695). -/
def Dev.tileEnd (d : Dev) (p : Nat) : Dev :=
  if d.meReady p 0x1F then
    let d := d.meAdvance p
    if (d.me p).drains = [] then d.meEnd p else d.putMe p { d.me p with ending := true }
  else if d.sfReady p 0x1F then (if d.outsEmpty p then d.sfEnd p else d)
  else d

/-- NOP of a tile program: nothing but the next index. -/
def Dev.tileNop (d : Dev) (p : Nat) : Dev :=
  if d.meReady p 0 then (d.meAdvance p).meDone p else if d.sfReady p 0 then d.sfAdvance p else d

/-! ### Register commands of the tile programs (R241 to R244) -/

def isTile (p : Nat) : Bool := kindOf p == some .me || kindOf p == some .spare || kindOf p == some .sf

/-- GO (R241, R242): start the program at ENTRY; while RUNNING it is ignored and sets STATE_CMD. A unit that is not
ON does no work. -/
def Dev.tileGo (d : Dev) (t p : Nat) : Dev :=
  if !isTile p then d
  else if d.flag p F.ME_STAT.RUNNING then d.stateCmd t p
  else if !d.on p then d
  else if kindOf p = some .sf then d.startSf p (d.entryOf p) none
  else d.startMe p (d.entryOf p) none

/-- STOP: nothing further issues; what has issued completes. -/
def Dev.tileStop (d : Dev) (p : Nat) : Dev :=
  if isTile p then (d.wr p F.ME_STAT.RUNNING 0).wr p F.ME_STAT.GUARD_WAIT 0 else d

/-- The program word at an index, and its store. -/
def Dev.progWord (d : Dev) (p i : Nat) : W128 :=
  if kindOf p = some .sf then Tbl.get noWord128 (d.sf p).prog i else Tbl.get noWord128 (d.me p).prog i
def Dev.putProg (d : Dev) (p i : Nat) (w : W128) : Dev :=
  if kindOf p = some .sf then d.putSf p { d.sf p with prog := Tbl.set noWord128 (d.sf p).prog i w }
  else d.putMe p { d.me p with prog := Tbl.set noWord128 (d.me p).prog i w }
def Dev.progBuf (d : Dev) (p : Nat) : W128 := if kindOf p = some .sf then (d.sf p).progBuf else (d.me p).progBuf
def Dev.putProgBuf (d : Dev) (p : Nat) (w : W128) : Dev :=
  if kindOf p = some .sf then d.putSf p { d.sf p with progBuf := w } else d.putMe p { d.me p with progBuf := w }

/-- ADDR advances after an access to PROG_HI with AUTO_INC. -/
def Dev.progInc (d : Dev) (p : Nat) : Dev :=
  if d.flag p F.ME_PROG_ADDR.AUTO_INC then d.wr p F.ME_PROG_ADDR.ADDR (d.rd p F.ME_PROG_ADDR.ADDR + 1) else d

/-- ME_PROG_READ (R243): the read of PROG_LO copies all 128 bits at ADDR into the read buffer and answers the low
half. -/
def Dev.progRead (d : Dev) (p : Nat) : Dev :=
  if isTile p then
    let w := d.progWord p (d.rd p F.ME_PROG_ADDR.ADDR)
    { d.putProgBuf p w with rdata := BitVec.ofNat 512 (w.toNat % 2 ^ 64) }
  else d

/-- ME_PROG_WRITE (R242, R244): the write of PROG_HI commits the instruction with the staged low half. -/
def Dev.progWrite (d : Dev) (t p : Nat) (hi : Word) : Dev :=
  if !isTile p then d
  else if d.flag p F.ME_STAT.RUNNING then d.stateCmd t p
  else
    let w : W128 := BitVec.ofNat 128 (hi.toNat * 2 ^ 64 + d.rd p F.ME_PROG_LO.LO)
    (d.putProg p (d.rd p F.ME_PROG_ADDR.ADDR) w).progInc p

/-! ### The commands -/

def execMeGo (p : Nat) (s : State) := upd s (fun d => d.tileGo s.now p)
def execMeStop (p : Nat) (s : State) := upd s (fun d => d.tileStop p)
def execMeProgRead (p : Nat) (s : State) := upd s (fun d => d.progRead p)
def execMeProgWrite (p : Nat) (hi : Word) (s : State) := upd s (fun d => d.progWrite s.now p hi)
def execMma (p bits : Nat) (s : State) := work s (fun d => d.mma s.now p bits)
def execBankFull (p : Nat) (b : Bool) (s : State) := work s (fun d => d.bankFull p b)
def execShadowMove (p : Nat) (s : State) := work s (fun d => d.shadowMove p)
def execDrain (p : Nat) (s : State) := work s (fun d => d.drain s.now p)
def execDrainStart (p : Nat) (s : State) (bits : Nat := 0) := work s (fun d => d.drainStart s.now p bits)
def execDrainComplete (p : Nat) (s : State) := work s (fun d => d.drainComplete s.now p)
def execMcfg (p : Nat) (s : State) := work s (fun d => d.mcfg p)
def execLdw (p bits : Nat) (s : State) := work s (fun d => d.ldw s.now p bits)
def execLda (p : Nat) (s : State) := work s (fun d => d.lda s.now p)
def execWait (p : Nat) (s : State) := work s (fun d => d.tileWait p)
def execSetb (p : Nat) (s : State) := work s (fun d => d.setb p)
def execLoop (p : Nat) (s : State) := work s (fun d => d.tileLoop p)
def execEndl (p : Nat) (s : State) := work s (fun d => d.tileEndl p)
def execEndp (p : Nat) (s : State) := work s (fun d => d.tileEnd p)
def execTileNop (p : Nat) (s : State) := work s (fun d => d.tileNop p)

end Sys2Proof.Machine
end

