-- ==== Sys2Proof/Machine/Numeric.lean ====
section
/-!
DEFINITION. Sys2Proof/Machine/Numeric.lean: the amax/scale table's registers (R200 to R225) and the re-arming of a
trap record (R235).
-/

namespace Sys2Proof.Machine

/-- The read buffer and the staged words of the table stand in the banked data registers: index 0 the staged
words, index 1 the read buffer. -/
def amaxData (w : Nat) : Fld := ⟨0x50 + 8 * w, 0, 64⟩

/-- INDEX advances by one, modulo 4,096, when AUTO_INC is set. -/
def Dev.amaxInc (d : Dev) : Dev :=
  if d.flag P.amax F.CH_AMAX_INDEX.AUTO_INC then d.wr P.amax F.CH_AMAX_INDEX.INDEX (d.rd P.amax F.CH_AMAX_INDEX.INDEX + 1)
  else d

/-- A read of CH_AMAX_DATA0 (R206): all four words of entry INDEX enter the read buffer, and word 0 is answered. -/
def Dev.amaxRead (d : Dev) : Dev :=
  let e := d.rd P.amax F.CH_AMAX_INDEX.INDEX
  let d := (List.range 4).foldl (fun d w => d.wri P.amax 1 (amaxData w) (d.amaxWord e w)) d
  { d with rdata := BitVec.ofNat 512 (d.amaxWord e 0) }

/-- A read of CH_AMAX_DATA1 to CH_AMAX_DATA3 (R207, AUTO_INC). -/
def Dev.amaxReadWord (d : Dev) (w : Nat) : Nat × Dev :=
  (d.rdi P.amax 1 (amaxData w), if w = 3 then d.amaxInc else d)

/-- Word 3 with another FMT, bits [35:32]. -/
def withFmt (w3 fmt : Nat) : Nat := w3 - bitsOf w3 32 4 * 2 ^ 32 + fmt * 2 ^ 32

/-- A write of CH_AMAX_DATA3 (R204, R209): the staged words and word 3 become entry INDEX. Reserved bits stay 0; a reserved
format code leaves FMT as it is and sets ILLEGAL_WRITE (R18, R141). -/
def Dev.amaxCommit (d : Dev) (t w3 : Nat) : Dev :=
  let e := d.rd P.amax F.CH_AMAX_INDEX.INDEX
  let bad := fmtIsReserved (bitsOf w3 32 4)
  let w3 := if bad then withFmt w3 (bitsOf (d.amaxWord e 3) 32 4) else w3
  let d := if bad ∧ e ≠ 0 then d.illegalWrite t P.amax else d
  let d := d.wri P.amax 0 (amaxData 3) (w3 % 2 ^ 37)
  if e = 0 then (d.illegalWrite t P.amax).amaxInc
  else ((List.range 4).foldl (fun d w => d.putAmaxWord e w (d.rdi P.amax 0 (amaxData w))) d).amaxInc

/-- A roll of one entry (R218). -/
def Dev.amaxRollEntry (d : Dev) (e : Nat) : Dev :=
  let amax := d.amaxWord e 1 % 2 ^ 32
  let h0 := d.amaxWord e 1 / 2 ^ 32
  let h1 := d.amaxWord e 2 % 2 ^ 32
  let h2 := d.amaxWord e 2 / 2 ^ 32
  let d := d.putAmaxWord e 1 (amax * 2 ^ 32)
  let d := d.putAmaxWord e 2 (h0 + h1 * 2 ^ 32)
  d.putAmaxWord e 3 (d.amaxWord e 3 / 2 ^ 32 * 2 ^ 32 + h2)

/-- The next `n` entries of the roll in progress (R219: one per BCLK). -/
def Dev.rollOn (d : Dev) : Nat → Dev
  | 0 => d
  | n + 1 => match d.roll with
    | none => d
    | some (e, last) => (({ d with roll := if e < last then some (e + 1, last) else none } : Dev).amaxRollEntry e).rollOn n

/-- AMAX_ROLL_DONE: the roll reaches its last entry, and BUSY clears (R219). -/
def Dev.rollDone (d : Dev) : Dev := (d.rollOn 4096).wr P.amax F.CH_AMAX_ROLL.BUSY 0

/-- GO (R219 to R221): the entries from FIRST to LAST roll, one per BCLK; BUSY stands until the roll has ended. A range whose
first entry is behind its last is empty, and BUSY stands until AMAX_ROLL_DONE for it too; a GO that is ignored still leaves FIRST and
LAST as written (DESIGN CHOICE, log entry 105). -/
def Dev.amaxRoll (d : Dev) (t first last : Nat) : Dev :=
  let d := (d.wr P.amax F.CH_AMAX_ROLL.FIRST first).wr P.amax F.CH_AMAX_ROLL.LAST last
  if d.flag P.amax F.CH_AMAX_ROLL.BUSY then d.stateCmd t P.amax
  else
    { d with roll := if first % 4096 ≤ last % 4096 then some (first % 4096, last % 4096) else none }.wr P.amax F.CH_AMAX_ROLL.BUSY 1

/-- A unit's trap record is cleared; GC_TRAP_PC belongs to a clerk's record (R534). -/
def Dev.clearRecord (d : Dev) (p : Nat) : Dev :=
  match kindOf p with
  | some .me => d.clearTrap p
  | some .spare => d.clearTrap p
  | some .sf => d.clearTrap p
  | some .clerk => (d.clearTrap p).wr p F.GC_TRAP_PC.PC 0
  | _ => d

/-- Clears one non-finite trap record (R235), unless hardware has set VALID in this very cycle (R14). -/
def Dev.trapClear (d : Dev) (p : Nat) : Dev := if d.newMask p 0 F.TRAP0.VALID ≠ 0 then d else d.clearRecord p

def execAmaxRead (s : State) := upd s (fun d => d.amaxRead)
def execAmaxCommit (w3 : Word) (s : State) := upd s (fun d => d.amaxCommit s.now w3.toNat)
def execAmaxRoll (first last : Nat) (s : State) := upd s (fun d => d.amaxRoll s.now first last)
def execAmaxRollDone (s : State) := upd s (fun d => d.rollDone)
def execTrapClear (p : Nat) (s : State) := upd s (fun d => d.trapClear p)

end Sys2Proof.Machine
end

