-- ==== Sys2Proof/Machine/Sf.lean ====
section
/-!
DEFINITION. Sys2Proof/Machine/Sf.lean: SF tiles (R541 to R570): parameter registers, streams, the functions of
R552 and the optimiser kernels.

An SFOP that has begun (`SfSt.op`) requests rows over read circuits and takes flits of push circuits as they arrive; when every
in-port has yielded what it needs, it computes all its vectors at once (log entry 12).
-/

namespace Sys2Proof.Machine

/-! ### Parameter registers (R544, R545, R556) -/

/-- Parameter register `i`: 28 to 31 are the halves of RNG_STREAM and RNG_POS. -/
def Dev.preg (d : Dev) (p i : Nat) : Nat :=
  match i with
  | 28 => d.rd p F.RNG_STREAM.STREAM % 2 ^ 32
  | 29 => d.rd p F.RNG_STREAM.STREAM / 2 ^ 32
  | 30 => d.rd p F.RNG_POS.POS % 2 ^ 32
  | 31 => d.rd p F.RNG_POS.POS / 2 ^ 32
  | _ => d.rdi p i F.SF_PREG_DATA.VALUE

def Dev.putPreg (d : Dev) (p i v : Nat) : Dev :=
  let v := v % 2 ^ 32
  match i with
  | 28 => d.wr p F.RNG_STREAM.STREAM (d.rd p F.RNG_STREAM.STREAM / 2 ^ 32 * 2 ^ 32 + v)
  | 29 => d.wr p F.RNG_STREAM.STREAM (d.rd p F.RNG_STREAM.STREAM % 2 ^ 32 + v * 2 ^ 32)
  | 30 => d.wr p F.RNG_POS.POS (d.rd p F.RNG_POS.POS / 2 ^ 32 * 2 ^ 32 + v)
  | 31 => d.wr p F.RNG_POS.POS (d.rd p F.RNG_POS.POS % 2 ^ 32 + v * 2 ^ 32)
  | _ => d.wri p i F.SF_PREG_DATA.VALUE v

/-- The read cursor of an in-port: bits [18:0] of its register. -/
def Dev.rdCur (d : Dev) (p port : Nat) : Nat := d.preg p (16 + port) % 2 ^ 19

/-- SFCFG (R543). -/
def Dev.sfcfg (d : Dev) (p : Nat) : Dev :=
  if d.sfReady p 2 then
    let i := d.sfInstr p
    (d.putPreg p (sfcfgPreg i) (sfcfgValue i)).sfAdvance p
  else d

/-! ### FP32 values with their flags (R178 to R180) -/

/-- An FP32 code on its way to an output, and whether a conversion of its element overflowed or underflowed. -/
structure FV where
  code : Nat
  ovf : Bool := false
  unf : Bool := false
  deriving DecidableEq, Repr

def FV.num (x : FV) : Num := fp32 x.code
/-- One rounding to FP32 by RNE under SATMODE. An infinite result of special inputs is that of IEEE 754 (R552), and only its
conversion into FMTO saturates (R550, R181). -/
def fround (sat : Bool) (n : Num) (flags : List FV) : FV :=
  let r := toFp32 (sat && !n.isInf) n
  ⟨r.code, r.ovf || flags.any (·.ovf), r.unf || flags.any (·.unf)⟩
def fadd (sat : Bool) (a b : FV) : FV := fround sat (Num.add a.num b.num) [a, b]
def fsub (sat : Bool) (a b : FV) : FV := fround sat (Num.add a.num b.num.negate) [a, b]
def fmul (sat : Bool) (a b : FV) : FV := fround sat (Num.mul a.num b.num) [a, b]
def fdiv (sat : Bool) (a b : FV) : FV := fround sat (Num.div a.num b.num) [a, b]
def fsqrt (sat : Bool) (a : FV) : FV := fround sat a.num.sqrt [a]
/-- a × b + c with one rounding. -/
def ffma (sat : Bool) (a b c : FV) : FV := fround sat (Num.add (Num.mul a.num b.num) c.num) [a, b, c]
def fneg (a : FV) : FV := { a with code := Nat.xor a.code (2 ^ 31) }

def fOne : Nat := 0x3F800000
def fInf : Nat := 0x7F800000
def fNan : Nat := 0x7FC00000
def fSign : Nat := 0x80000000

/-- MAX and MIN (R552): a NaN operand gives NaN, +0 is greater than -0 (log entry 20). -/
def fmaxCode (a b : Nat) : Nat :=
  if fp32 a = .nan ∨ fp32 b = .nan then fNan
  else if Num.lt (fp32 a) (fp32 b) then b
  else if Num.lt (fp32 b) (fp32 a) then a
  else if a = 0 then a else b
def fminCode (a b : Nat) : Nat :=
  if fp32 a = .nan ∨ fp32 b = .nan then fNan
  else if Num.lt (fp32 a) (fp32 b) then a
  else if Num.lt (fp32 b) (fp32 a) then b
  else if a = fSign then a else b
def fmaxV (a b : FV) : FV := ⟨fmaxCode a.code b.code, a.ovf || b.ovf, a.unf || b.unf⟩
def fminV (a b : FV) : FV := ⟨fminCode a.code b.code, a.ovf || b.ovf, a.unf || b.unf⟩

/-- The special results of the functions 0x10 to 0x19 under IEEE 754 (R552); `none`: the value lies within the
function's error limit. GELU and SILU of -Inf multiply an infinity by zero in their expressions (DEDUCED, log entry 20). -/
def sfSpecial (fn a : Nat) : Option Nat :=
  let s := if a ≥ fSign then fSign else 0
  match fp32 a with
  | .nan => some fNan
  | .inf neg =>
    match fn with
    | 0x10 => some (if neg then 0 else fInf)
    | 0x11 => some (if neg then 0 else fInf)
    | 0x12 => some (if neg then fNan else fInf)
    | 0x13 => some s
    | 0x14 => some (if neg then fNan else 0)
    | 0x15 => some (s + fOne)
    | 0x16 => some (if neg then 0 else fOne)
    | 0x17 => some (s + fOne)
    | _ => some (if neg then fNan else fInf)
  | .fin neg n _ =>
    if n = 0 then
      match fn with
      | 0x10 => some fOne
      | 0x11 => some fOne
      | 0x12 => some (fSign + fInf)
      | 0x13 => some (s + fInf)
      | 0x14 => some (s + fInf)
      | 0x16 => some 0x3F000000
      | _ => some a
    else if neg ∧ (fn = 0x12 ∨ fn = 0x14) then some fNan
    else none

/-- A function 0x10 to 0x19 of an FP32 input (R552), with its overflow and underflow (R173, R179, R180), which go by the exact
value: the special results, the overflow of a value beyond FP32, else a value within the error limit (log entries 20, 95). -/
def sfApprox (fn : Nat) (sat : Bool) (a : FV) : FV :=
  match sfSpecial fn a.code with
  | some x => ⟨x, a.ovf, a.unf⟩
  | none =>
    let v := sfTrue fn a.num
    let r := toFp32 sat v
    if r.ovf then ⟨r.code, true, a.unf⟩
    else ⟨sfResult fn a.code v r.code, a.ovf, a.unf || (if sfExact fn a.num then r.unf else numTiny v)⟩

/-! ### Reductions (R553 to R555) -/

/-- Lanes of a row: element i of lane l is element 64 i + l. -/
def laneSums (sat : Bool) (xs : List FV) : List FV :=
  (List.range 64).map (fun l =>
    ((List.range (xs.length / 64)).drop 1).foldl (fun acc i => fadd sat acc (xs.getD (64 * i + l) ⟨0, false, false⟩))
      (xs.getD l ⟨0, false, false⟩))

/-- One level of the binary tree: adjacent pairs (DESIGN CHOICE, log entry 20). -/
def pairUp (f : FV → FV → FV) : List FV → List FV
  | a :: b :: rest => f a b :: pairUp f rest
  | xs => xs

def treeOf (f : FV → FV → FV) : Nat → List FV → FV
  | 0, xs => xs.headD ⟨0, false, false⟩
  | n + 1, xs => treeOf f n (pairUp f xs)

/-- ROWSUM of one row (R554). -/
def rowSum (sat : Bool) (xs : List FV) : FV := treeOf (fadd sat) 6 (laneSums sat xs)

/-- Groups of `l` consecutive elements. -/
def rowsOf' (l : Nat) (xs : List FV) : List (List FV) :=
  (List.range (xs.length / l)).map (fun r => (xs.drop (r * l)).take l)

/-- MEANVAR of one row (R555). -/
def meanVar (sat : Bool) (xs : List FV) : List FV :=
  let inv := fround sat (.fin false 1 xs.length) []
  let mean := fmul sat (rowSum sat xs) inv
  let dev := xs.map (fun x => let y := fsub sat x mean; fmul sat y y)
  [mean, fmul sat (rowSum sat dev) inv]

/-! ### Which streams a function reads and writes -/

def isRowFunc (fn : Nat) : Bool := 0x20 ≤ fn && fn ≤ 0x24
def isKernel (fn : Nat) : Bool := fn == 0x38 || fn == 0x39
def isBinary (fn : Nat) : Bool := [1, 2, 3, 4, 6, 7, 8, 9, 0x0B].contains fn
def isDrawing (i : W128) (rmode : Nat) : Bool :=
  sfFunc i == 0x30 || sfFunc i == 0x31 || rndMode (sfRnd i) rmode == 1

/-- A FUNC that R552 defines. -/
def sfFuncOk (fn : Nat) : Bool :=
  fn ≤ 0x0C || (0x10 ≤ fn && fn ≤ 0x19) || isRowFunc fn || fn == 0x28 || fn == 0x29 || fn == 0x30 || fn == 0x31 || isKernel fn

/-- Row length L (R553). -/
def sfLen (i : W128) : Nat := max 1 (sfImm i % 2 ^ 17)

/-- The in-ports of an SFOP with the format and number of the elements that it reads from each; a port that two
roles name is read once. Scale bytes are read as 8-bit codes (0x5). -/
def sfInputs (i : W128) : List (Nat × Nat × Nat) :=
  let n := 64 * sfNv i
  let f := sfFmtI i
  let a := (sfIn0 i, f, n)
  let two (m : Nat) (g : Nat) : List (Nat × Nat × Nat) := if sfIn0 i = sfIn1 i then [a] else [a, (sfIn1 i, g, m)]
  let fn := sfFunc i
  if isBinary fn then two n f
  else if fn = 0x23 ∨ fn = 0x24 then two (n / sfLen i) f
  else if fn = 0x29 then two (n / 32) 5
  else if fn = 0x31 then []
  else if fn = 0x38 then (List.range 4).map (fun j => ((sfIn0 i + j) % 8, 4, n))
  else if fn = 0x39 then (List.range 3).map (fun j => ((sfIn0 i + j) % 8, 4, n))
  else [a]

/-- Flits that `n` elements of a format take on a push circuit: whole rows of four, and what the rest needs. -/
def flitsFor (fmt n : Nat) : Nat :=
  let e := elemsPerRow fmt
  let r := n % e
  4 * (n / e) + (if r = 0 then 0 else (elemBit (fmtWidth fmt) (r - 1) + fmtWidth fmt + 1023) / 1024)

/-- The codes of `n` elements in bytes that hold rows of 512 B. -/
def codesIn (fmt n : Nat) (bs : List Byte) : List Nat :=
  let e := elemsPerRow fmt
  (List.range ((n + e - 1) / e)).flatMap (fun r =>
    let row := natOfBytes ((bs.drop (512 * r)).take 512)
    (List.range (min e (n - r * e))).map (fun j => elemOf fmt row j))

/-- Is an in-port fed by read circuits (R546)? -/
def Dev.sfReads (d : Dev) (p port : Nat) : Bool := (d.circsInto (posOf p) port).any (fun c => c.kind == 1)

/-- Flits already taken from a push in-port. -/
def SfOp.stagedOf (o : SfOp) (port : Nat) : List Byte := match o.staged.find? (fun x => x.1 == port) with
  | some x => x.2
  | none => []

/-- Take from a push in-port what the SFOP in progress still needs of it. -/
def Dev.sfStage (d : Dev) (p : Nat) (x : Nat × Nat × Nat) : Dev :=
  match (d.sf p).op, d.circsInto (posOf p) x.1 with
  | some o, c :: _ =>
    if c.kind = 1 then d
    else
      let have_ := o.stagedOf x.1
      let k := min (flitsFor x.2.1 x.2.2 - have_.length / 128) (d.circ c.key).queue.length
      let bytes := ((d.circ c.key).queue.take k).flatMap (·.payload)
      let d := d.consume c k
      d.putSf p { d.sf p with op := some { o with staged := (x.1, have_ ++ bytes) :: o.staged.filter (fun y => y.1 != x.1) } }
  | _, _ => d

/-- The rows that an SFOP reads over read circuits, from the read cursors of its in-ports (R546). -/
def Dev.sfRows (d : Dev) (p : Nat) (i : W128) : List RowKey :=
  ((sfInputs i).filter (fun x => d.sfReads p x.1)).flatMap (fun x =>
    Region.keys ⟨x.1, d.rdCur p x.1, regionRows x.2.1 x.2.2⟩)

/-- A cursor moves on by rows of an SFOP, but one that the page has written since: the next SFOP begins there (R545). -/
def Dev.moveCursor (d : Dev) (p : Nat) (o : SfOp) (r rows : Nat) : Dev :=
  if o.written.contains r then d
  else d.putPreg p r (d.preg p r / 2 ^ 19 * 2 ^ 19 + (d.preg p r % 2 ^ 19 + rows) % 2 ^ 19)

/-- The rows that find room are requested, and each moves its port's read cursor (R546, R347). -/
def Dev.sfAsk (d : Dev) (p : Nat) : Dev :=
  match (d.sf p).op with
  | none => d
  | some o =>
    let r := d.askRows (spanOf p) (posOf p) o.fetch.want
    let asked (port : Nat) : Nat := (o.fetch.want.filter (fun k => k.port == port)).length - (r.1.filter (fun k => k.port == port)).length
    let d := r.2.putSf p { r.2.sf p with op := some { o with fetch := { o.fetch with want := r.1 } } }
    (List.range 8).foldl (fun d port => if asked port = 0 then d else d.moveCursor p o (16 + port) (asked port)) d

/-- Has an in-port yielded all that the SFOP needs of it? A row without a read circuit never comes (log entry 20). -/
def Dev.sfHas (d : Dev) (p : Nat) (o : SfOp) (x : Nat × Nat × Nat) : Bool :=
  d.sfReads p x.1 || decide (flitsFor x.2.1 x.2.2 * 128 ≤ (o.stagedOf x.1).length)

/-- The element codes of an in-port. -/
def SfOp.codes (o : SfOp) (x : Nat × Nat × Nat) : List Nat :=
  let rows := o.fetch.rows.filter (fun k => k.port == x.1)
  codesIn x.2.1 x.2.2 (if rows = [] then o.stagedOf x.1 else rows.flatMap o.fetch.bytes)

/-- Does an output stream end at a scratchpad tile? -/
def toScratchpad (c : Circuit) : Bool := match tileAt c.dstPos with
  | some q => kindOf q == some .sp
  | none => false

/-- Rows that an output stream takes. -/
def outRows (fmt : Nat) (codes : List Nat) : Nat := (codes.length + elemsPerRow fmt - 1) / elemsPerRow fmt

/-- The flits of one output stream (R549): whole rows from a span row address on for a scratchpad write stream, KIND 0 data
otherwise; positions after the last element hold +0. -/
def sfFlits (toRows : Bool) (row fmt : Nat) (codes : List Nat) : List Flit :=
  let e := elemsPerRow fmt
  let bytes := (List.range (outRows fmt codes)).flatMap (fun r =>
    bytesOfNat 512 (packNat (fmtWidth fmt) 0 ((codes.drop (r * e)).take e)))
  if toRows then rowFlits row bytes
  else
    let n := flitsFor fmt codes.length
    (List.range n).map (fun j =>
      { epoch := 0, last := decide (j % 4 = 3 ∨ j + 1 = n), kind := 0, payload := (bytes.drop (128 * j)).take 128 : Flit })

/-- One output stream leaves by its out-port, to scratchpad at the write cursor (R546, R549). -/
def Dev.sfSend (d : Dev) (p : Nat) (o : SfOp) (port fmt : Nat) (codes : List Nat) : Dev :=
  match d.circFrom (posOf p) port with
  | none => d
  | some c =>
    let row := o.pregs.getD (24 + port) 0 % 2 ^ 19
    let d := if toScratchpad c then d.moveCursor p o (24 + port) (outRows fmt codes) else d
    d.offer c (sfFlits (toScratchpad c) row fmt codes)

/-! ### Computing an SFOP -/

/-- An input code as FP32 (R548): exact, ±Inf among them, but INT32, which rounds. -/
def sfIn (fmt code : Nat) : FV := ⟨(toFp32 false (decodeElem fmt code)).code, false, false⟩

/-- The sum of two INT32 codes, saturated. -/
def int32Sum (a b : Nat) : Conv := convInt 32 0 0 (.ofInt (signed 32 a + signed 32 b))

/-- One element of an element-wise function. -/
def sfElement (fn imm : Nat) (sat : Bool) (a b : FV) : FV :=
  let im : FV := ⟨imm, false, false⟩
  match fn with
  | 0x00 => a
  | 0x01 => fadd sat a b
  | 0x02 => fsub sat a b
  | 0x03 => fmul sat a b
  | 0x04 => ffma sat a im b
  | 0x05 => fmul sat a im
  | 0x06 => fmaxV a b
  | 0x07 => fminV a b
  | 0x08 => ⟨if Num.lt b.num a.num then fOne else 0, false, false⟩
  | 0x09 => if b.num.isZero then im else a
  | 0x0A => fmaxV a ⟨0, false, false⟩
  | 0x0B => fdiv sat a b
  | 0x0C => fsqrt sat a
  | 0x28 => a
  | _ => sfApprox fn sat a

/-- DROPOUT (R561): the keep threshold floor(IMM × 2^32) clamped, and 1/IMM. -/
def dropThreshold (imm : Nat) : Nat :=
  match fp32 imm with
  | .fin neg n d => if neg then 0 else min (2 ^ 32) (n * 2 ^ 32 / d)
  | .inf neg => if neg then 0 else 2 ^ 32
  | .nan => 0

/-- The values of the main output of an SFOP before R550. `ins` are its input streams in the order of `sfInputs`. -/
def sfValues (g : Gen) (i : W128) (sat : Bool) (ins : List (List FV)) (raw1 : List Nat) : List FV :=
  let fn := sfFunc i
  let zero : FV := ⟨0, false, false⟩
  let a := ins.getD 0 []
  let b := if ins.length < 2 then a else ins.getD 1 []
  let n := 64 * sfNv i
  let l := sfLen i
  if fn = 0x20 then (rowsOf' l a).map (fun r => r.tail.foldl fmaxV (r.headD zero))
  else if fn = 0x21 then (rowsOf' l a).map (rowSum sat)
  else if fn = 0x22 then (rowsOf' l a).flatMap (meanVar sat)
  else if fn = 0x23 then (List.range n).map (fun e => fsub sat (a.getD e zero) (b.getD (e / l) zero))
  else if fn = 0x24 then (List.range n).map (fun e => fmul sat (a.getD e zero) (b.getD (e / l) zero))
  else if fn = 0x29 then (List.range n).map (fun e =>
    fround sat (Num.mul (a.getD e zero).num (e8m0 (raw1.getD (e / 32) 0))) [])
  else if fn = 0x30 then
    let inv := fdiv sat ⟨fOne, false, false⟩ ⟨sfImm i, false, false⟩
    (List.range n).map (fun e => if g.draw e < dropThreshold (sfImm i) then fmul sat (a.getD e zero) inv else zero)
  else if fn = 0x31 then (List.range n).map (fun e => fround sat (.dyadic false (g.draw e / 256) (-24)) [])
  else if isBinary fn then (List.range n).map (fun e => sfElement fn (sfImm i) sat (a.getD e zero) (b.getD e zero))
  else a.map (fun x => sfElement fn (sfImm i) sat x zero)

/-- One element of ADAMW (R563): w, m and v. -/
def adamw (pregs : List Nat) (sat : Bool) (grad w m v : FV) : FV × FV × FV :=
  let r (k : Nat) : FV := ⟨pregs.getD k 0, false, false⟩
  let g := fmul sat grad (r 9)
  let m1 := ffma sat (r 0) m (fmul sat (r 2) g)
  let v1 := ffma sat (r 1) v (fmul sat (r 3) (fmul sat g g))
  let u := fdiv sat (fmul sat m1 (r 7)) (fadd sat (fsqrt sat (fmul sat v1 (r 8))) (r 4))
  let w1 := ffma sat (fneg (r 5)) (ffma sat (r 6) w u) w
  (w1, m1, v1)

/-- One element of SGDM (R564): w and m. -/
def sgdm (pregs : List Nat) (sat : Bool) (grad w m : FV) : FV × FV :=
  let r (k : Nat) : FV := ⟨pregs.getD k 0, false, false⟩
  let m1 := ffma sat (r 10) m (fmul sat grad (r 9))
  let w1 := ffma sat (fneg (r 5)) (ffma sat (r 6) w m1) w
  (w1, m1)

/-- An output element: its code and whether its conversions overflowed or underflowed. -/
structure SfOut where
  code : Nat
  ovf : Bool
  unf : Bool

/-- R550: v through steps 2 and 3 with entry ENT, FMTO, RND; the scaled product rounds once into FMTO. -/
def sfConvert (fmto rmode sat scale u : Nat) (x : FV) : SfOut :=
  let c := convTo fmto (sat == 1) rmode u (Num.mul x.num (fp32 scale))
  ⟨c.code, x.ovf || c.ovf, x.unf || c.unf⟩

/-- A block of 32 values, each times SCALE(ENT) (R550, log entry 20), packed into an MX format (R196 to R199): its
scale code and element codes. -/
def packBlock (fmt rmode scale : Nat) (us : List Nat) (xs : List FV) : Nat × List SfOut :=
  let scaled (x : FV) : Num := Num.mul x.num (fp32 scale)
  let sc := mxScaleCode fmt (xs.map scaled)
  (sc, (List.range xs.length).map (fun j =>
    let x := xs.getD j ⟨0, false, false⟩
    if sc = 255 then ⟨0, x.ovf, x.unf⟩
    else
      let c := convTo fmt true rmode (us.getD j 0) (Num.mul (scaled x) (.dyadic false 1 (127 - (sc : Int))))
      ⟨c.code, x.ovf || c.ovf, x.unf || c.unf⟩))

/-- The non-finite events of a stream of codes (R226, R1098), consumed vector after vector (R551); M is the row of the
stream, N the lane. -/
def sfEvents (inf produced : Bool) (fmt operand : Nat) (codes : List Nat) : List Event :=
  (List.range codes.length).flatMap (fun e =>
    eventOf inf produced (e / 64) (decodeElem fmt (codes.getD e 0)) fmt operand (e / elemsPerRow fmt) (e % 64) 0)

/-- MXUNPACK consumes the elements of a block with a NaN scale as NaN (R195). -/
def mxEvents (inf : Bool) (fmt : Nat) (codes scales : List Nat) : List Event :=
  (List.range codes.length).flatMap (fun e =>
    eventOf inf false (e / 64) (if scales.getD (e / 32) 0 = 255 then .nan else decodeElem fmt (codes.getD e 0)) fmt 0
      (e / elemsPerRow fmt) (e % 64) 0)

/-- How many elements the second role of a function reads, for a function with two (R552). -/
def sfSecond (i : W128) : Option Nat :=
  if isBinary (sfFunc i) then some (64 * sfNv i)
  else if sfFunc i = 0x23 ∨ sfFunc i = 0x24 then some (64 * sfNv i / sfLen i)
  else none

/-- The consumed events of an SFOP: one for each element and role (R1098), where one in-port serves both roles too. -/
def sfConsumed (inf : Bool) (i : W128) (inputs : List (Nat × Nat × Nat)) (codes : List (List Nat)) : List Event :=
  if sfFunc i = 0x29 then mxEvents inf (sfFmtI i) (codes.getD 0 []) (codes.getD 1 [])
  else
    (List.range codes.length).flatMap (fun j => sfEvents inf false ((inputs.getD j (0, 0, 0)).2.1) j (codes.getD j [])) ++
    (match sfSecond i with
      | some n => if codes.length < 2 then sfEvents inf false (sfFmtI i) 1 ((codes.getD 0 []).take n) else []
      | none => [])

/-- Finish an SFOP: outputs sent, AMAX, counts, and the traps. -/
def Dev.sfFinish (d : Dev) (t p : Nat) (o : SfOp) (outs : List (Nat × Nat × List Nat)) (amax : List Num) (ovf unf : Nat)
    (evs : List Event) : Dev :=
  let d := d.putSf p { d.sf p with op := none }
  let d := outs.foldl (fun d x => d.sfSend p o x.1 x.2.1 x.2.2) d
  let d := d.updateAmax (sfEnt o.instr) amax
  let d := d.numCounts p ovf unf
  let d := d.count p F.SF_INSTR_CNT.COUNT 1
  d.trap t p p o.ctl o.part o.pc F.SF_STAT.HALTED evs

/-- The draw of an output element under SR (R559). -/
def SfOp.draw (o : SfOp) (e : Nat) : Nat := if rndMode (sfRnd o.instr) o.ctl.rmode = 1 then drawU (o.gen.draw e) else 0

/-- The values of an SFOP before R550, and the outputs of an ordinary function. -/
def sfVals (o : SfOp) : List FV :=
  let inputs := sfInputs o.instr
  let codes := inputs.map o.codes
  let ins := (List.range codes.length).map (fun j => (codes.getD j []).map (sfIn ((inputs.getD j (0, 0, 0)).2.1)))
  sfValues o.gen o.instr o.ctl.sat ins (codes.getD 1 [])
def sfPlainOuts (o : SfOp) : List SfOut :=
  let vals := sfVals o
  (List.range vals.length).map (fun e =>
    sfConvert (sfFmtO o.instr) (rndMode (sfRnd o.instr) o.ctl.rmode) (bit o.ctl.sat) o.scale (o.draw e) (vals.getD e ⟨0, false, false⟩))
def sfPlainCodes (o : SfOp) : List Nat := (sfPlainOuts o).map (·.code)

/-- An ordinary function, MXPACK and MXUNPACK. The elements of a block that MXPACK writes with scale 0xFF raise no produced
events (DESIGN CHOICE, log entry 106). -/
def Dev.sfPlain (d : Dev) (t p : Nat) (o : SfOp) : Dev :=
  let i := o.instr
  let c := o.ctl
  let inputs := sfInputs i
  let fn := sfFunc i
  let codes := inputs.map o.codes
  let rmode := rndMode (sfRnd i) c.rmode
  let inEvs := sfConsumed c.trapInf i inputs codes
  if fn = 1 ∧ sfFmtI i = 12 ∧ sfFmtO i = 12 then
    let a := codes.getD 0 []
    let b := if codes.length < 2 then a else codes.getD 1 []
    let vals := (List.range a.length).map (fun e => int32Sum (a.getD e 0) (b.getD e 0))
    let outs := (List.range a.length).map (fun e =>
      let v := vals.getD e ⟨0, false, false⟩
      let r := convTo 12 c.sat rmode (o.draw e) (Num.mul (.ofInt (signed 32 v.code)) (fp32 o.scale))
      (⟨r.code, v.ovf || r.ovf, false⟩ : SfOut))
    d.sfFinish t p o [(sfOut i, 12, outs.map (·.code))]
      (vals.map (fun v => fp32 (toFp32 c.sat (.ofInt (signed 32 v.code))).code))
      (outs.filter (·.ovf)).length 0 []
  else
    let vals := sfVals o
    if fn = 0x28 then
      let fmt := sfFmtO i
      let blocks := (List.range (vals.length / 32)).map (fun b =>
        packBlock fmt rmode o.scale ((List.range 32).map (fun j => o.draw (32 * b + j))) ((vals.drop (32 * b)).take 32))
      let outs := blocks.flatMap (·.2)
      d.sfFinish t p o
        [(sfOut i, fmt, outs.map (·.code)), ((sfOut i + 1) % 4, 5, blocks.map (·.1))] (vals.map FV.num)
        (outs.filter (·.ovf)).length (outs.filter (·.unf)).length inEvs
    else
      let outs := sfPlainOuts o
      let oc := outs.map (·.code)
      d.sfFinish t p o [(sfOut i, sfFmtO i, oc)] (vals.map FV.num) (outs.filter (·.ovf)).length
        (outs.filter (·.unf)).length (inEvs ++ sfEvents c.trapInf true (sfFmtO i) 3 oc)

/-- ADAMW and SGDM (R563 to R566). DESIGN CHOICE, log entry 96: an index counts once in OVF_CNT and UNF_CNT over all its output
streams (R179 counts an output element and speaks of one), and with SKIP = 1 a NaN keeps its own code (R565 writes w, m and v
unchanged, where R143 and R144 give a written NaN its canonical code). -/
def Dev.sfKernel (d : Dev) (t p : Nat) (o : SfOp) : Dev :=
  let i := o.instr
  let c := o.ctl
  let adam := sfFunc i == 0x38
  let codes := (sfInputs i).map o.codes
  let col (j : Nat) : List FV := (codes.getD j []).map (fun x => ⟨x, false, false⟩)
  let zero : FV := ⟨0, false, false⟩
  let rmode := rndMode (sfRnd i) c.rmode
  let n := 64 * sfNv i
  let res : List (FV × FV × FV) := (List.range n).map (fun e =>
    let g := (col 0).getD e zero
    let w := (col 1).getD e zero
    let m := (col 2).getD e zero
    let v := (col 3).getD e zero
    if o.skip then (w, m, v)
    else if adam then adamw o.pregs c.sat g w m v
    else let r := sgdm o.pregs c.sat g w m; (r.1, r.2, zero))
  let work := (List.range n).map (fun e =>
    sfConvert (sfFmtO i) rmode (bit c.sat) o.scale (o.draw e) ((res.getD e (zero, zero, zero)).1))
  let ws := res.map (·.1)
  let ms := res.map (·.2.1)
  let vs := res.map (·.2.2)
  let flagged (f : FV → Bool) (g : SfOut → Bool) : Nat := ((List.range n).filter (fun e =>
    let r := res.getD e (zero, zero, zero)
    f r.1 || f r.2.1 || f r.2.2 || g (work.getD e ⟨0, false, false⟩))).length
  let cs (xs : List FV) : List Nat := xs.map (·.code)
  let wc := work.map (·.code)
  let outs : List (Nat × Nat × List Nat) :=
    if adam then [(sfOut i, 4, cs ws), ((sfOut i + 1) % 4, 4, cs ms), ((sfOut i + 2) % 4, 4, cs vs), ((sfOut i + 3) % 4, sfFmtO i, wc)]
    else [(sfOut i, 4, cs ws), ((sfOut i + 1) % 4, 4, cs ms), ((sfOut i + 2) % 4, sfFmtO i, wc)]
  let evs := (List.range codes.length).flatMap (fun j => sfEvents c.trapInf false 4 (min j 2) (codes.getD j [])) ++
    outs.flatMap (fun x => sfEvents c.trapInf true x.2.1 3 x.2.2)
  let d := if o.skip then d.count p F.SF_UPD_CTL.SKIP_CNT 1 else d
  d.sfFinish t p o outs (ws.map FV.num) (flagged (·.ovf) (·.ovf)) (flagged (·.unf) (·.unf)) evs

/-- An SFOP begins: it holds the issue stage with NUMCTL, scale, SKIP, parameter registers and generator of this moment
(R186, R211, R238, R545), and an SFOP that draws moves RNG_POS on (R558; log entry 92). The PC names the next instruction. -/
def Dev.sfBegin (d : Dev) (p : Nat) (i : W128) : Dev :=
  let c := d.numctl p
  let rows := d.sfRows p i
  let o : SfOp := { instr := i, pc := d.rd p F.SF_STAT.PC, ctl := c, scale := d.amaxWord (sfEnt i) 0 % 2 ^ 32,
                    skip := isKernel (sfFunc i) && d.flag p F.SF_UPD_CTL.SKIP, pregs := (List.range 32).map (d.preg p), gen := d.gen p,
                    part := (d.sf p).part, fetch := { rows := rows, want := rows } }
  let d := d.putSf p { d.sf p with op := some o }
  let d := if isDrawing i c.rmode then d.wr p F.RNG_POS.POS (o.gen.pos + 64 * sfNv i) else d
  (d.wr p F.SF_STAT.PC (o.pc + 1)).wr p F.SF_STAT.GUARD_WAIT 0

/-- The SFOP in progress takes flits, asks for rows, and completes once its in-ports have yielded all that it reads. -/
def Dev.sfPoll (d : Dev) (t p : Nat) : Dev :=
  match (d.sf p).op with
  | none => d
  | some o =>
    let inputs := sfInputs o.instr
    let d := inputs.foldl (fun d x => d.sfStage p x) d
    let d := d.sfAsk p
    match (d.sf p).op with
    | none => d
    | some o =>
      if o.fetch.done && inputs.all (d.sfHas p o) then (if isKernel (sfFunc o.instr) then d.sfKernel t p o else d.sfPlain t p o)
      else d

/-- A row at the head of a read circuit's queue is removed and kept, when the SFOP in progress reads it. -/
def Dev.sfTake (d : Dev) (t p : Nat) (c : Circuit) : Dev :=
  match (d.sf p).op with
  | none => d
  | some o =>
    if c.kind ≠ 1 then d.sfPoll t p
    else
      match d.rowAtHead c with
      | none => d
      | some (row, bs) =>
        let k : RowKey := ⟨c.dstPort, row⟩
        if o.fetch.rows.contains k && !o.fetch.got.any (fun g => g.1 == k) then
          let d := d.consume c 4
          (d.putSf p { d.sf p with op := some { o with fetch := { o.fetch with got := o.fetch.got ++ [(k, bs)] } } }).sfPoll t p
        else d

/-- SFOP (R541, R542, R546 to R566): it begins once its guard is met, and completes when its in-ports have yielded what it
reads. A FUNC that the table does not define, or an L that breaks R553, stands only in a program that no LOAD_PLAN checked:
nothing but the next index (log entry 13). -/
def Dev.sfop (d : Dev) (t p : Nat) : Dev :=
  if d.sfReady p 1 then
    let i := d.sfInstr p
    d.tryGuard p i (fun d => if !sfFuncOk (sfFunc i) then d.sfAdvance p else (d.sfBegin p i).sfPoll t p) (fun d => d.sfGuardWait p)
  else d

/-- SF_PREG_WRITE: a write of SF_PREG_DATA (R545). -/
def Dev.sfPregWrite (d : Dev) (p v : Nat) : Dev :=
  if kindOf p = some .sf then
    let r := d.rd p F.SF_PREG_SEL.PREG
    let m := d.sf p
    let d := match m.op with
      | some o => d.putSf p { m with op := some { o with written := r :: o.written } }
      | none => d
    d.putPreg p r v
  else d

def execSfop (p : Nat) (s : State) := work s (fun d => d.sfop s.now p)
def execSfcfg (p : Nat) (s : State) := work s (fun d => d.sfcfg p)
def execSfPregWrite (p : Nat) (v : W32) (s : State) := upd s (fun d => d.sfPregWrite p v.toNat)

end Sys2Proof.Machine
end

