-- ==== Sys2Proof/Machine/Tier.lean ====
section
/-!
DEFINITION. Sys2Proof/Machine/Tier.lean: the placement table (R571 to R582), the near tier's address spaces and outer
code (R584 to R608), tier addresses, failures and their messages (R676 to R682).
-/

namespace Sys2Proof.Machine

/-! ### Failure causes (R682) -/

def C.MAP_INVALID : Nat := 1
def C.MAP_ACCESS : Nat := 2
def C.RESERVE : Nat := 3
def C.NO_DESCRIPTOR : Nat := 4
def C.NEAR_UE : Nat := 5
def C.NEAR_POISON : Nat := 6
def C.NEAR_TIMEOUT : Nat := 7
def C.FAR_TIMEOUT : Nat := 8
def C.FAR_ABORT : Nat := 9
def C.FAR_POISON : Nat := 10
def C.FAR_DOWN : Nat := 11
def C.CODEC : Nat := 12

/-- The message kind of a cause. -/
def causeKind (c : Nat) : Nat :=
  match c with
  | 5 => K.NM_UE | 6 => K.NM_POISON | 7 => K.NM_TIMEOUT | 8 => K.FT_TIMEOUT | 9 => K.FT_ABORT
  | 10 => K.FT_POISON | 11 => K.FT_DOWN | 12 => K.FT_CODEC
  | _ => K.FT_MAP

/-- The DETAIL of TIER_ERROR (R680): `tier` is the placement code, 7 where no entry applies. -/
def tierDetail (cause tier addr : Nat) : Nat := cause + tier * 2 ^ 16 + (addr % 2 ^ 48 / 16) * 2 ^ 20

/-- The message of a failed request (R676, R682, R830). -/
def Dev.failMsg (d : Dev) (t path cause addr : Nat) (abort : Bool) : Dev :=
  d.send t path (causeKind cause) (if abort then Cls.DEFERRED else Cls.CONTAINED) addr 0

/-! ### Near address spaces (R588 to R591) -/

def MiB2 : Nat := 2 ^ 21

/-- The present stacks (NM_PRESENT), in ascending order, of the device or of one span. -/
def Dev.present (d : Dev) : List Nat := (List.range 32).filter (fun k => d.flag (P.nmChannel k) F.NM_CH_STAT.PRESENT)
def Dev.presentIn (d : Dev) (s : Nat) : List Nat := d.present.filter (fun k => k / 4 == s)

def Dev.localGranules (d : Dev) : Nat := d.rd P.nearMgr F.NM_CFG.LOCAL_GRANULES
def Dev.interleave (d : Dev) : Nat := if d.flag P.nearMgr F.NM_CFG.ILV then 2 ^ 16 else 2 ^ 12

/-- The striped near space and its reserve, and the local space of a span (R589, R590). -/
def Dev.stripedSize (d : Dev) : Nat := d.present.length * (46032 - d.localGranules) * MiB2
def Dev.reserveStart (d : Dev) : Nat := d.stripedSize - d.present.length * 2 ^ 25
def Dev.localSize (d : Dev) (s : Nat) : Nat := (d.presentIn s).length * d.localGranules * MiB2

/-- A near address: a striped one, or a local one of a span. Its key tells the spaces apart. -/
def nearKey (loc : Option Nat) (a : Nat) : Nat := match loc with
  | none => a
  | some s => 2 ^ 50 + s * 2 ^ 46 + a
def keyLoc (k : Nat) : Option Nat := if k < 2 ^ 50 then none else some ((k - 2 ^ 50) / 2 ^ 46)
def keyAddr (k : Nat) : Nat := if k < 2 ^ 50 then k else k % 2 ^ 46

/-- The remap table of a stack: the spare granule that stands in for a retired one (R619). -/
def Dev.remapOf (d : Dev) (stack k : Nat) : Option Nat :=
  ((List.range 48).find? (fun e =>
    d.rdi (P.nmChannel stack) e F.NM_REMAP_DATA.VALID == 1 && d.rdi (P.nmChannel stack) e F.NM_REMAP_DATA.GRANULE == k)).map
    (fun e => 46032 + d.rdi (P.nmChannel stack) e F.NM_REMAP_DATA.SPARE)

/-- The stack and data offset of a near address before remapping, and after it (R591). -/
def Dev.nearPlace0 (d : Dev) (key : Nat) : Option (Nat × Nat) :=
  let a := keyAddr key
  let g := d.interleave
  let places := match keyLoc key with
    | none => d.present
    | some s => d.presentIn s
  let base := match keyLoc key with
    | none => d.localGranules * MiB2
    | some _ => 0
  let i := a / g
  (places[i % places.length]?).map (fun k => (k, base + i / places.length * g + a % g))
def Dev.nearPlace (d : Dev) (key : Nat) : Option (Nat × Nat) :=
  (d.nearPlace0 key).map (fun x =>
    match d.remapOf x.1 (x.2 / MiB2) with
    | some sp => (x.1, sp * MiB2 + x.2 % MiB2)
    | none => x)

/-- The DRAM place of a data offset (R591): die, bank, DRAM row within the bank, and byte within the 2 KiB row. -/
structure DramPlace where
  die : Nat
  bank : Nat
  drow : Nat
  col : Nat
  deriving DecidableEq, Repr

def dramPlace (off : Nat) : DramPlace :=
  let r := off / 128 / 15
  { die := r % 16, bank := r / 16 % 16, drow := r / 256, col := 128 * (off / 128 % 15) + off % 128 }

/-- Keys of the near-tier stores: a data byte, and a code sector. -/
def byteKey (stack off : Nat) : Nat := stack * 2 ^ 37 + off
def sectorKey (stack off : Nat) : Nat := stack * 2 ^ 30 + off / 128

/-- What an unlisted byte of the near tier reads as (log entries 5 and 6). -/
def nearDflt (gen k : Nat) : Byte := if gen = 0 then 0 else Config.freeByte (2 ^ 128 * gen + k)

/-- The bytes that the near tier itself holds at a near address. -/
def Dev.stackBytes (d : Dev) (key n : Nat) : List Byte :=
  (List.range n).map (fun i => match d.nearPlace (key + i) with
    | some (k, off) => Tbl.get (nearDflt d.nearGen) d.near (byteKey k off)
    | none => 0)

/-- The device after the near tier itself took bytes at a near address. -/
def Dev.putStack (d : Dev) (key : Nat) (bs : List Byte) : Dev :=
  ((List.range bs.length).foldl (fun (d : Dev) i => match d.nearPlace (key + i) with
    | some (k, off) => { d with near := Tbl.set (nearDflt d.nearGen) d.near (byteKey k off) (bs.getD i 0) }
    | none => d) d)

def Dev.poisoned (d : Dev) (key : Nat) : Bool := match d.nearPlace key with
  | some (k, off) => Tbl.get noBool d.poison (sectorKey k off)
  | none => false
def Dev.setPoison (d : Dev) (key : Nat) (b : Bool) : Dev := match d.nearPlace key with
  | some (k, off) => { d with poison := Tbl.set noBool d.poison (sectorKey k off) b }
  | none => d

/-- What the near tier stores at a data offset of a stack, and the device after it took bytes there. -/
def Dev.stackAt (d : Dev) (stack off n : Nat) : List Byte :=
  (List.range n).map (fun i => Tbl.get (nearDflt d.nearGen) d.near (byteKey stack (off + i)))
def Dev.putStackAt (d : Dev) (stack off : Nat) (bs : List Byte) : Dev :=
  { d with near := (List.range bs.length).foldl (fun m i => Tbl.set (nearDflt d.nearGen) m (byteKey stack (off + i)) (bs.getD i 0)) d.near }

/-- The span cache that holds a sector, if one does (R470, R471). -/
def Dev.cachedIn (d : Dev) (sector : Nat) : Option (Nat × Sector) :=
  (List.range 8).findSome? (fun s => ((d.cache s).find? (fun x => x.addr == sector)).map (fun x => (s, x)))

/-- A byte of the near tier as every reader sees it: from the cache that holds its sector, else from the stack (R470). -/
def Dev.nearByte (d : Dev) (key : Nat) : Byte :=
  match d.cachedIn (key / 512) with
  | some (_, x) => x.data.getD (key % 512) 0
  | none => (d.stackBytes key 1).headD 0
def Dev.nearBytes (d : Dev) (key n : Nat) : List Byte := (List.range n).map (fun i => d.nearByte (key + i))

/-! ### Retirement candidates (R611 to R614) -/

def Dev.granuleCount (d : Dev) (stack g : Nat) : Nat := Tbl.get noNat d.ceCounts (stack * 2 ^ 16 + g)

/-- Counts of corrected errors run within one window [k W, (k + 1) W) of device time (R611). -/
def Dev.retRoll (d : Dev) (t : Nat) : Dev :=
  let k := t / (d.rd P.nearMgr F.NM_RET_CTL.WINDOW * 3600000000000)
  if k = d.retWindow then d else { d with retWindow := k, ceCounts := [], ceTold := [] }

/-- Is a spare granule of a stack free: not in its remap table and not the target of a migration? -/
def Dev.freeSpares (d : Dev) (stack : Nat) : List Nat :=
  (List.range 48).filter (fun sp =>
    !((List.range 48).any (fun e => d.rdi (P.nmChannel stack) e F.NM_REMAP_DATA.VALID == 1 &&
        d.rdi (P.nmChannel stack) e F.NM_REMAP_DATA.SPARE == sp)) &&
    !d.migrations.any (fun m => m.stack == stack && m.spare == sp))

/-- Is a granule already retired, migrating or waiting? -/
def Dev.retireKnown (d : Dev) (stack g : Nat) : Bool :=
  (d.remapOf stack g).isSome || d.migrations.any (fun m => m.stack == stack && m.granule == g) ||
  d.retires.any (fun m => m.stack == stack && m.granule == g)

/-- R622: a candidate finds no free spare; the stack reports it once. -/
def Dev.sparesEmpty (d : Dev) (t stack : Nat) : Dev :=
  if d.sparesOut.contains stack then d
  else { d with sparesOut := stack :: d.sparesOut }.send t (P.nmChannel stack) K.NM_SPARES_OUT Cls.DEFERRED 0 0

/-- R614: with AUTO = 0 the candidate is recorded and reported. -/
def Dev.recordCandidate (d : Dev) (t stack g : Nat) : Dev :=
  let p := P.nearMgr
  let d := (d.wr p F.NM_RET_CAND.GRANULE g).wr p F.NM_RET_CAND.STACK stack
  let d := (d.raiseBit p F.NM_RET_CAND.VALID 0).wr p F.NM_RET_CAND.TIME t
  d.send t (P.nmChannel stack) K.NM_RET_CAND Cls.INFO 0 0

/-- A granule becomes a candidate (R612 to R614, R622). A spare granule is none: R591 remaps a granule once, so that nothing could
stand in for it (DEDUCED, log entry 109). -/
def Dev.candidate (d : Dev) (t stack g cause : Nat) : Dev :=
  if d.retireKnown stack g ∨ g ≥ 46032 then d
  else
    let none_ := d.freeSpares stack = []
    if d.flag P.nearMgr F.NM_RET_CTL.AUTO then
      (if none_ then d.sparesEmpty t stack else { d with retires := d.retires ++ [⟨stack, g, cause⟩] })
    else
      let d := d.recordCandidate t stack g
      if none_ then d.sparesEmpty t stack else d

/-- One more corrected error of a granule in the window (R611). -/
def Dev.countCe (d : Dev) (stack g : Nat) : Dev :=
  { d with ceCounts := Tbl.set noNat d.ceCounts (stack * 2 ^ 16 + g) (d.granuleCount stack g + 1) }

/-- R600, R611, R612: an error of granule `g` has been corrected and the corrected codeword written back; a granule whose count
reaches the threshold becomes a candidate, once in a window. -/
def Dev.corrected (d : Dev) (t stack g addr : Nat) : Dev :=
  let p := P.nmChannel stack
  let k := stack * 2 ^ 16 + g
  let d := (((d.countSat p 0 F.NM_CE_CNT.COUNT 1).retRoll t).countCe stack g).send t p K.NM_CE Cls.CORRECTED addr 0
  if d.rd P.nearMgr F.NM_RET_CTL.THRESH ≤ d.granuleCount stack g ∧ !d.ceTold.contains k then
    { d with ceTold := k :: d.ceTold }.candidate t stack g 0
  else d

/-! ### The outer code (R597 to R606) -/

/-- CRC-32C (Castagnoli), bit by bit. -/
def crcBit (c : Nat) : Nat := if c % 2 = 1 then Nat.xor (c / 2) 0x82F63B78 else c / 2
def crcByte (c : Nat) (b : Byte) : Nat :=
  crcBit (crcBit (crcBit (crcBit (crcBit (crcBit (crcBit (crcBit (Nat.xor c b.toNat))))))))
def crc32c (bs : List Byte) : Nat := Nat.xor (bs.foldl crcByte 0xFFFFFFFF) 0xFFFFFFFF

/-- A field of a byte string, little-endian. -/
def fieldAt (bs : List Byte) (off n : Nat) : Nat := natOfBytes ((bs.drop off).take n)

/-- The product in GF(2^16) with the field polynomial x^16 + x^12 + x^3 + x + 1 (R598): by Horner's rule, from the highest
coefficient of `b` on. -/
def gfMul (a b : Nat) : Nat :=
  (List.range 16).foldl (fun acc i =>
    let acc := if acc ≥ 2 ^ 15 then Nat.xor (2 * acc) 0x1100B else 2 * acc
    if bitAt b (15 - i) then Nat.xor acc a else acc) 0 % 2 ^ 16

/-- A polynomial times x + r; the coefficient of x^0 stands first. -/
def gfTimes (p : List Nat) (r : Nat) : List Nat :=
  (List.range (p.length + 1)).map (fun j =>
    Nat.xor (if j = 0 then 0 else p.getD (j - 1) 0) (gfMul r (p.getD j 0)))

/-- g(x) = (x + α^0)(x + α^1)(x + α^2)(x + α^3), with α = x (R598). -/
def rsGenerator : List Nat := [1, 2, 4, 8].foldl gfTimes [1]

/-- One step of the division by g(x): the remainder takes in the next data symbol. -/
def checkStep (c : List Nat) (s : Nat) : List Nat :=
  let q := Nat.xor s (c.getD 3 0)
  (List.range 4).map (fun j => Nat.xor (if j = 0 then 0 else c.getD (j - 1) 0) (gfMul q (rsGenerator.getD j 0)))

/-- The check symbols of a code sector's 128 bytes of data: the coefficients of x^0 to x^3 (R598). -/
def rsCheck (data : List Byte) : List Nat :=
  ((List.range 64).map (fun i => fieldAt data (2 * (63 - i)) 2)).foldl checkStep [0, 0, 0, 0]

/-- The check bytes that a sector stores: those of its data, inverted where it is poisoned (R598, R602). -/
def checkBytes (data : List Byte) (poisoned : Bool) : List Byte :=
  (rsCheck data).flatMap (fun c => bytesOfNat 2 (if poisoned then 0xFFFF - c else c))

def Dev.scrubEpoch (d : Dev) (stack row : Nat) : Nat := Tbl.get noNat d.rowMeta (stack * 2 ^ 30 + row) % 2 ^ 16
def Dev.retireTag (d : Dev) (stack row : Nat) : Nat := Tbl.get noNat d.rowMeta (stack * 2 ^ 30 + row) / 2 ^ 16

/-- The 2 KiB of a DRAM row (R597): 15 sectors of data, their check bytes and the row's metadata. -/
def Dev.dramRow (d : Dev) (stack row : Nat) : List Byte :=
  let sector (j : Nat) : List Byte := d.stackAt stack ((15 * row + j) * 128) 128
  let bad (j : Nat) : Bool := Tbl.get noBool d.poison (sectorKey stack ((15 * row + j) * 128))
  let about := bytesOfNat 2 (d.scrubEpoch stack row) ++ bytesOfNat 2 (d.retireTag stack row) ++ bytesOfNat 2 0
  (List.range 15).flatMap sector ++ (List.range 15).flatMap (fun j => checkBytes (sector j) (bad j)) ++
    about ++ bytesOfNat 2 (crc32c about % 2 ^ 16)

/-- What the decoder does with a sector in which `n` symbols are in error (R599): 0 as stored, 1 corrected, 2
uncorrectable, 3 corrected into another codeword, 4 an error that it does not see. CMODE 0 miscorrects a small fraction of 3- and
4-symbol errors; beyond what the table detects the outcome is open. -/
def Dev.outerCode (d : Dev) (cmode n : Nat) : Nat × Dev :=
  let free (outcomes : List Nat) : Nat × Dev := let f := d.freeBelow outcomes.length; (outcomes.getD f.1 2, f.2)
  if n = 0 then (0, d)
  else if cmode = 0 then (if n ≤ 2 then (1, d) else if n ≤ 4 then free [2, 3] else free [2, 3, 4])
  else if cmode = 1 then (if n = 1 then (1, d) else if n ≤ 3 then (2, d) else free [2, 3, 4])
  else (if n ≤ 4 then (2, d) else free [2, 4])

/-- A near access as the channel serves it: the bytes, or a cause. -/
inductive NearResult where
  | bytes (bs : List Byte)
  | fail (cause : Nat)
  deriving DecidableEq, Repr

/-- R601: an uncorrectable sector is rewritten as poisoned and counted. -/
def Dev.poisonSector (d : Dev) (stack off : Nat) : Dev :=
  ({ d with poison := Tbl.set noBool d.poison (sectorKey stack off) true }.countSat (P.nmChannel stack) 0 F.NM_UE_CNT.COUNT 1).setErrBit
    (P.nmChannel stack) 16

/-- The code sector at a data offset, read with `symErrs` symbols in error (R600 to R603): its 128 bytes or a cause. What the decoder
makes of a miscorrection, and what it passes on of an error that it does not see, are free values; the first it also writes
back, counts and reports as a correction (R600). -/
def Dev.readSector (d : Dev) (t addr stack off symErrs : Nat) : NearResult × Dev :=
  let p := P.nmChannel stack
  let base := off / 128 * 128
  if Tbl.get noBool d.poison (sectorKey stack off) then (.fail C.NEAR_POISON, d.countSat p 0 F.NM_POISON_CNT.COUNT 1)
  else
    let r := d.outerCode (d.rd p F.NM_ECC_CTL.CMODE) symErrs
    let d := r.2
    let good := d.stackAt stack base 128
    match r.1 with
    | 0 => (.bytes good, d)
    | 1 => (.bytes good, d.corrected t stack (off / MiB2) addr)
    | 2 => (.fail C.NEAR_UE, (d.poisonSector stack off).candidate t stack (off / MiB2) 1)
    | 3 => let f := d.freeBytes 128; (.bytes f.1, (f.2.putStackAt stack base f.1).corrected t stack (off / MiB2) addr)
    | _ => let f := d.freeBytes 128; (.bytes f.1, f.2)

/-- The code sector of a near address. `addr` is the device address for messages. -/
def Dev.sectorRead (d : Dev) (t addr key symErrs : Nat) : NearResult × Dev :=
  match d.nearPlace key with
  | none => (.fail C.MAP_INVALID, d)
  | some (k, off) => d.readSector t addr k off symErrs

/-- The pieces of `[key, key + n)` that lie in one code sector each. -/
def sectorPieces (key n : Nat) : List (Nat × Nat) :=
  if n = 0 then []
  else (List.range ((key % 128 + n + 127) / 128)).map (fun j =>
    let lo := max key (key / 128 * 128 + 128 * j)
    (lo, min (key + n) (key / 128 * 128 + 128 * (j + 1)) - lo))

/-- The code sector that holds a near address, as a reader meets it: one that some span cache holds is served from it (R471). -/
def Dev.codeSector (d : Dev) (t addr key symErrs : Nat) : NearResult × Dev :=
  match d.cachedIn (key / 512) with
  | some (_, x) => (.bytes ((x.data.drop (key % 512 / 128 * 128)).take 128), d)
  | none => d.sectorRead t addr key symErrs

/-- Code sectors, in order, up to the first that fails; the first that no cache holds has `symErrs` symbols in error. -/
def Dev.codeSectors (d : Dev) (t addr symErrs : Nat) : List Nat → Except Nat (List (List Byte)) × Dev
  | [] => (.ok [], d)
  | key :: rest =>
    let r := d.codeSector t addr key symErrs
    match r.1 with
    | .fail c => (.error c, r.2)
    | .bytes bs =>
      let q := r.2.codeSectors t addr (if (d.cachedIn (key / 512)).isSome then symErrs else 0) rest
      match q.1 with
      | .error c => (.error c, q.2)
      | .ok l => (.ok (bs :: l), q.2)

/-- A near read of `n` bytes (R607): the first failure is the read's. -/
def Dev.nearRead (d : Dev) (t addr key n symErrs : Nat) : NearResult × Dev :=
  let r := d.codeSectors t addr symErrs ((sectorPieces key n).map (·.1))
  match r.1 with
  | .error c => (.fail c, r.2)
  | .ok l => (.bytes ((l.flatten.drop (key % 128)).take n), r.2)

/-- A near write of bytes (R604 to R606): whole sectors are stored valid; a partial one is read, merged and rewritten. The reads come
first: a write of which one fails stores nothing, and that failure is the answer. Cached copies of the sectors are updated by
their caller's rules. -/
def Dev.nearWrite (d : Dev) (t addr key : Nat) (data : List Byte) (symErrs : Nat) : Option Nat × Dev :=
  let r := (sectorPieces key data.length).foldl (fun (acc : Except Nat (List (Nat × List Byte)) × Dev × Nat) pc =>
    let bs := (data.drop (pc.1 - key)).take pc.2
    match acc.1 with
    | .error _ => acc
    | .ok ws =>
      if pc.2 = 128 then (.ok (ws ++ [(pc.1, bs)]), acc.2)
      else
        let r := acc.2.1.sectorRead t addr pc.1 acc.2.2
        match r.1 with
        | .bytes old => (.ok (ws ++ [(pc.1 / 128 * 128, old.take (pc.1 % 128) ++ bs ++ old.drop (pc.1 % 128 + pc.2))]), r.2, 0)
        | .fail c => (.error c, r.2, 0)) (.ok [], d, symErrs)
  match r.1 with
  | .error c => (some c, r.2.1)
  | .ok ws => (none, ws.foldl (fun d w => (d.putStack w.1 w.2).setPoison w.1 false) r.2.1)

/-! ### Translation (R571 to R582) -/

/-- A translated address: placement tier code, near key or tier address, span of an ONCHIP page, and the entry. -/
inductive Trans where
  | to (tier taddr span entry : Nat)
  | fail (cause tier : Nat) (abort : Bool)
  deriving DecidableEq, Repr

/-- Fields of a leaf entry (R573). -/
def eTier (e : Nat) : Nat := bitsOf e 2 3
def eStream (e : Nat) : Bool := bitAt e 5
def eCompress (e : Nat) : Bool := bitAt e 6
def eNoCache (e : Nat) : Bool := bitAt e 7
def eAbort (e : Nat) : Bool := bitAt e 8
def eWrite (e : Nat) : Bool := bitAt e 9
def eHcoh (e : Nat) : Bool := bitAt e 10
def eSpan (e : Nat) : Nat := bitsOf e 12 3
def eTarget (e : Nat) : Nat := bitsOf e 21 31 * MiB2

/-- Is a leaf well formed: valid, reserved fields zero, a defined tier? -/
def leafOk (e : Nat) : Bool :=
  bitAt e 0 && bitAt e 1 && decide (eTier e ≤ 4) && !bitAt e 11 && bitsOf e 15 6 == 0 && bitsOf e 52 12 == 0

/-- The failure mode where no entry applies (R677). -/
def Dev.dfltAbort (d : Dev) : Bool := d.flag P.farPath F.FT_CTL.DFLT_MODE

/-- Is CXL link `l` up? -/
def Dev.cxlUp (d : Dev) (l : Nat) : Bool := d.flag P.hostIf (if l = 0 then F.HI_LINK_STAT.UP0 else F.HI_LINK_STAT.UP1)
def Dev.anyCxl (d : Dev) : Bool := d.cxlUp 0 || d.cxlUp 1

/-- Is link 0, over which rings, records, plans and lists travel (R954), up, with no insecure IDE stream (R973)? -/
def Dev.hostUp (d : Dev) : Bool := d.cxlUp 0 && !d.ideBad.contains 0

/-- How the command's next read of a control structure comes back (R1104). -/
def Dev.takeCtl (d : Dev) : ReqOutcome × Dev := (d.env.ctl.headD .ok, { d with env.ctl := d.env.ctl.tail })

/-- A control read of near addresses that meets an uncorrectable error or a poisoned sector has the effects of R601 and R603. -/
def Dev.controlFails (d : Dev) (loc : Bool) (a c : Nat) : Dev :=
  match d.nearPlace a with
  | none => d
  | some (k, off) =>
    if !loc then d
    else if c = C.NEAR_UE then d.poisonSector k off
    else if c = C.NEAR_POISON then d.countSat (P.nmChannel k) 0 F.NM_POISON_CNT.COUNT 1
    else d

/-- Does a cause fit a control read: from the near tier, or from host memory? -/
def controlCause (loc : Bool) (c : Nat) : Bool := if loc then c == C.NEAR_UE || c == C.NEAR_TIMEOUT else decide (8 ≤ c) && decide (c ≤ 11)

/-- Eight bytes of the placement table at an address in the memory of FT_PT_BASE.LOC, as they stand; a poisoned sector, or host
memory behind no link, fails the read (R1104, log entry 82). -/
def Dev.ptWord (d : Dev) (a : Nat) : Except Nat Nat :=
  if d.flag P.placement F.FT_PT_BASE.LOC then
    (if a + 8 > d.stripedSize then .error C.MAP_INVALID
     else if (d.cachedIn (a / 512)).isNone && d.poisoned a then .error C.NEAR_POISON
     else .ok (natOfBytes (d.nearBytes a 8)))
  else if !d.anyCxl then .error C.FAR_DOWN
  else .ok (natOfBytes (d.hostBytes a 8))

/-- A read of such a word, with its effects. -/
def Dev.ptRead (d : Dev) (a : Nat) : Except Nat Nat × Dev :=
  let loc := d.flag P.placement F.FT_PT_BASE.LOC
  let r := d.takeCtl
  match d.ptWord a, r.1 with
  | .error c, _ => (.error c, r.2.controlFails loc a c)
  | .ok w, .failed c => if controlCause loc c then (.error c, r.2.controlFails loc a c) else (.ok w, r.2)
  | .ok w, _ => (.ok w, r.2)

/-- What a level-1 entry leads to: a leaf with its size, or the address of the level-2 entry; else the cause. -/
def tableStep (a e1 : Nat) : Except Nat ((Nat × Bool) ⊕ Nat) :=
  if !bitAt e1 0 then .error C.MAP_INVALID
  else if bitAt e1 1 then
    (if leafOk e1 && bitsOf e1 21 9 == 0 && eTier e1 != 4 then .ok (.inl (e1, true)) else .error C.MAP_INVALID)
  else if bitsOf e1 2 10 ≠ 0 ∨ bitsOf e1 52 12 ≠ 0 then .error C.MAP_INVALID
  else .ok (.inr (bitsOf e1 12 40 * 4096 + 8 * bitsOf a 21 9))
def leaf2 (e2 : Nat) : Except Nat (Nat × Bool) := if leafOk e2 then .ok (e2, false) else .error C.MAP_INVALID

/-- The address of the level-1 entry of a device address. -/
def Dev.level1 (d : Dev) (a : Nat) : Nat := d.rd P.placement F.FT_PT_BASE.BASE * MiB2 + 8 * bitsOf a 30 18

/-- The leaf of a device address as the table stands: the entry and whether it is a 1 GiB leaf; else the cause. -/
def Dev.walk (d : Dev) (a : Nat) : Except Nat (Nat × Bool) :=
  match d.ptWord (d.level1 a) with
  | .error c => .error c
  | .ok e1 =>
    match tableStep a e1 with
    | .error c => .error c
    | .ok (.inl x) => .ok x
    | .ok (.inr at_) =>
      match d.ptWord at_ with
      | .error c => .error c
      | .ok e2 => leaf2 e2

/-- The leaf that a miss reads from the table (R578), with the effects of the reads. -/
def Dev.walkRead (d : Dev) (a : Nat) : Except Nat (Nat × Bool) × Dev :=
  let r := d.ptRead (d.level1 a)
  match r.1 with
  | .error c => (.error c, r.2)
  | .ok e1 =>
    match tableStep a e1 with
    | .error c => (.error c, r.2)
    | .ok (.inl x) => (.ok x, r.2)
    | .ok (.inr at_) =>
      let q := r.2.ptRead at_
      match q.1 with
      | .error c => (.error c, q.2)
      | .ok e2 => (leaf2 e2, q.2)

/-- The conditions of R576 on a well-formed leaf, in the table's order. -/
def Dev.leafCheck (d : Dev) (e : Nat) (big : Bool) (a : Nat) (write carter : Bool) : Trans :=
  let ta := eTarget e + (if big then a % 2 ^ 30 else a % MiB2)
  -- R677: with MAP_INVALID no entry applies
  let bad (c : Nat) : Trans := if c = C.MAP_INVALID then .fail c 7 d.dfltAbort else .fail c (eTier e) (eAbort e)
  let expOk := (List.range 16).any (fun i =>
    d.rdi P.farPath i F.FT_EXP_BASE.VALID == 1 && decide (d.rdi P.farPath i F.FT_EXP_BASE.BASE * MiB2 ≤ ta) &&
    decide (ta < d.rdi P.farPath i F.FT_EXP_LIMIT.LIMIT * MiB2))
  if eTier e = 4 ∧ ta ≥ 2 ^ 28 then bad C.MAP_INVALID
  else if eCompress e ∧ eTier e ≠ 2 ∧ eTier e ≠ 3 then bad C.MAP_INVALID
  else if eTier e = 0 ∧ d.reserveStart ≤ ta ∧ ta < d.stripedSize then bad C.RESERVE
  else if (eTier e = 0 ∧ ta ≥ d.stripedSize) ∨ (eTier e = 1 ∧ ta ≥ d.localSize (eSpan e)) then bad C.MAP_INVALID
  else if eTier e = 3 ∧ !expOk then bad C.MAP_INVALID
  else if write ∧ !eWrite e then bad C.MAP_ACCESS
  else if eCompress e ∧ !d.flag P.farPath F.FT_CTL.COMP_EN then bad C.MAP_ACCESS
  else if (eCompress e ∨ eTier e = 4) ∧ !carter then bad C.MAP_ACCESS
  else .to (eTier e) (if eTier e = 0 then nearKey none ta else if eTier e = 1 then nearKey (some (eSpan e)) ta else ta) (eSpan e) e

/-- The cached leaf of an address in a translation cache. -/
def Dev.tcFind (d : Dev) (dom a : Nat) : Option TcEnt :=
  d.tcache.find? (fun x => x.dom == dom && x.page == (if x.big then a / 2 ^ 30 else a / MiB2))

/-- A new leaf enters a translation cache of 2,048 entries; which entry makes room is open (R578, log entry 15). -/
def Dev.tcFill (d : Dev) (x : TcEnt) : Dev :=
  let mine := d.tcache.filter (fun y => y.dom == x.dom)
  if mine.length < 2048 then { d with tcache := d.tcache ++ [x] }
  else
    let f := d.freeBelow mine.length
    match mine[f.1]? with
    | some y => { f.2 with tcache := (f.2.tcache.erase y) ++ [x] }
    | none => f.2

/-- FT_MAP_ERR holds the first failed translation. -/
def Dev.mapErr (d : Dev) (cause a : Nat) : Dev :=
  if d.flag P.placement F.FT_MAP_ERR.VALID then d
  else
    ((d.raiseBit P.placement F.FT_MAP_ERR.VALID 0).wr P.placement F.FT_MAP_ERR.CAUSE cause).wr P.placement F.FT_MAP_ERR.ADDR (a % 2 ^ 48)

/-- What an entry of a translation cache gives: the leaf that it holds. While the table names another, or none, the unit may use
either (R580): a free choice. No read of the table can fail then. -/
def Dev.cachedLeaf (d : Dev) (a : Nat) (x : TcEnt) : Except Nat (Nat × Bool) × Dev :=
  let old : Except Nat (Nat × Bool) := .ok (x.entry, x.big)
  let either (new : Except Nat (Nat × Bool)) : Except Nat (Nat × Bool) × Dev :=
    let f := d.freeBelow 2
    (if f.1 = 0 then old else new, f.2)
  match d.walk a with
  | .ok y => if y = (x.entry, x.big) then (old, d) else either (.ok y)
  | .error c => if c = C.MAP_INVALID then either (.error c) else (old, d)

/-- A miss (R578) counts, reads the table, and fills the cache with a leaf that it finds. -/
def Dev.missLeaf (d : Dev) (dom a : Nat) : Except Nat (Nat × Bool) × Dev :=
  let r := (d.count P.placement F.FT_TC_MISS_CNT.COUNT 1).walkRead a
  match r.1 with
  | .ok y => (r.1, r.2.tcFill ⟨dom, y.2, if y.2 then a / 2 ^ 30 else a / MiB2, y.1⟩)
  | .error _ => r

/-- A translation by cache `dom` (R571 to R580). -/
def Dev.translate (d : Dev) (dom a : Nat) (write carter : Bool) : Trans × Dev :=
  if a ≥ 2 ^ 48 then (.fail C.MAP_INVALID 7 d.dfltAbort, d.mapErr C.MAP_INVALID a)
  else
    let pick := match d.tcFind dom a with
      | some x => d.cachedLeaf a x
      | none => d.missLeaf dom a
    match pick.1 with
    | .error c => (.fail c 7 d.dfltAbort, pick.2.mapErr c a)
    | .ok (e, big) =>
      match pick.2.leafCheck e big a write carter with
      | .fail c tier m => (.fail c tier m, pick.2.mapErr c a)
      | ok => (ok, pick.2)

/-- The translation cache that a unit uses: its span's, or the base die's. -/
def domOf (p : Nat) : Nat := if p < 0x8000 then spanOf p else 8

/-- Far tier by address: the expander entry that holds it, and whether its path is up (R638, link down: FAR_DOWN). -/
def Dev.expOf (d : Dev) (a : Nat) : Option Nat :=
  (List.range 16).find? (fun i =>
    d.rdi P.farPath i F.FT_EXP_BASE.VALID == 1 && decide (d.rdi P.farPath i F.FT_EXP_BASE.BASE * MiB2 ≤ a) &&
    decide (a < d.rdi P.farPath i F.FT_EXP_LIMIT.LIMIT * MiB2))

/-- The device while a command runs whose control reads and accesses come back as named. -/
def Dev.withEnv (d : Dev) (ctl : List ReqOutcome) (acc : List AccessErr) (f : Dev → Dev) : Dev :=
  { f { d with env := { ctl := ctl, acc := acc } } with env := {} }

/-- Bytes of the far tier: host memory, or the fabric. -/
def Dev.farBytes (d : Dev) (tier ta n : Nat) : List Byte := if tier = 2 then d.hostBytes ta n else d.fabricBytes ta n
def Dev.putFar (d : Dev) (tier ta : Nat) (bs : List Byte) : Dev := if tier = 2 then d.putHost ta bs else d.putFabric ta bs

end Sys2Proof.Machine
end

