-- ==== Sys2Proof/Machine/Begin.lean ====
section
/-!
DEFINITION. Sys2Proof/Machine/Begin.lean: how a fetched docket begins: the order of one ring (R112 to R114, R139), the
refusals that every opcode shares (R110, R1093, R1094), and reads of control structures (R1104).
-/

namespace Sys2Proof.Machine

/-- A control structure as it stands: in the near tier for LOC = 1, where a poisoned sector fails its read, else in host
memory (R1104). -/
def Dev.controlBytes (d : Dev) (loc : Bool) (a n : Nat) : Except Nat (List Byte) :=
  if loc then
    (if a + n > d.stripedSize then .error C.MAP_INVALID
     else if (sectorPieces a n).any (fun p => (d.cachedIn (p.1 / 512)).isNone && d.poisoned p.1) then .error C.NEAR_POISON
     else .ok (d.nearBytes a n))
  else .ok (d.hostBytes a n)

/-- A read of a control structure (R1104), with its effects. `res` is how the request came back; host memory is not reached while its
link is down (R954, R973). -/
def Dev.controlRead (d : Dev) (loc : Bool) (a n : Nat) (res : ReqOutcome) : Except Nat (List Byte) × Dev :=
  let fail (c : Nat) : Except Nat (List Byte) × Dev := (.error c, d.controlFails loc a c)
  if !loc && !d.hostUp then fail C.FAR_DOWN
  else
    match d.controlBytes loc a n, res with
    | .error c, _ => fail c
    | .ok bs, .failed c => if controlCause loc c then fail c else (.ok bs, d)
    | .ok bs, _ => (.ok bs, d)

/-- The same for the command's next control read. -/
def Dev.controlNext (d : Dev) (loc : Bool) (a n : Nat) : Except Nat (List Byte) × Dev :=
  let r := d.takeCtl
  r.2.controlRead loc a n r.1

/-- The DETAIL of a failed control read: TIER 0 for the near tier, 2 for host memory. -/
def controlDetail (loc : Bool) (cause a : Nat) : Nat := tierDetail cause (if loc then 0 else 2) a

/-! ### Order on one ring -/

/-- The first fetched docket of ring `k` that has not begun. -/
def Dev.firstFetched (d : Dev) (k : Nat) : Option Docket := (d.ring k).q.find? (fun x => x.stage == .fetched)

/-- The docket of ring `k` that the rules of the ring let begin: in ring order (R113), not behind a BARRIER (R112),
and with ORDERED only when every earlier docket has its record (R1095); in
NO_SERVICE none begins (R52). -/
def Dev.nextDocket (d : Dev) (k : Nat) : Option Docket :=
  match (if d.noService then none else d.firstFetched k) with
  | none => none
  | some x =>
    let before := (d.ring k).q.filter (fun y => decide (y.n < x.n))
    if before.any (fun y => y.opcode == 7) then none
    else if x.ordered && before != [] then none
    else some x

/-- Opcodes of the device ring alone (R110). -/
def deviceOnly (op : Nat) : Bool := [1, 6, 8, 9, 10, 11, 12].contains op

/-- Byte offsets of a docket that hold a reserved bit which is not zero: FLAGS bits 7:2, bytes 6 and 7, and the ARGS
bits of `mask` (R1093). -/
def reservedAt (x : Docket) (mask : Nat → Nat) : List Nat :=
  (List.range 64).filter (fun o =>
    let m := if o = 5 then 0xFC else if o = 6 ∨ o = 7 then 0xFF else if o < 0x10 then 0 else mask o
    Nat.land ((x.bytes.getD o 0).toNat) m != 0)

/-- The reserved ARGS bits of each command (R1093 and the command's own chapter). DESIGN CHOICE, log entry 88: flag bits that
the command's chapter neither defines nor calls reserved count as reserved. -/
def argMask (x : Docket) (o : Nat) : Nat :=
  match x.opcode with
  | 0x01 => if o < 0x1C then 0 else if o = 0x1C then 0xFE else 0xFF
  | 0x02 => if o < 0x16 then 0 else if o = 0x16 then 0xFC else if o < 0x1C then 0 else 0xFF
  | 0x03 => if o < 0x1D then 0 else if o = 0x1D then 0xFC else if o = 0x1E then 0xFE else 0xFF
  | 0x04 => if o < 0x1C then 0 else if o ≤ 0x1D then 0xFF else if o = 0x1E then 0xFD else if o < 0x28 then 0 else 0xFF
  | 0x05 => if o < 0x1D then 0 else if o = 0x1D then (if bitAt (x.field 0x1E 1) 1 then 0 else 0xFC)
            else if o = 0x1E then 0xFC else if o < 0x28 then 0 else 0xFF
  | 0x06 => if o < 0x23 then 0 else if o = 0x23 then 0xFC else if o < 0x2A then 0 else if o < 0x2C then 0xFF
            else if o < 0x38 then 0 else 0xFF
  | 0x07 => if o < 0x14 then 0 else if o = 0x14 then 0xFE else 0xFF
  | _ => 0xFF

/-- The lowest of the offsets at which a docket is bad, as a BAD_ARGS refusal. -/
def badArgs (offs : List Nat) : Option (Nat × Nat) := match offs with
  | [] => none
  | o :: rest => some (St.BAD_ARGS, rest.foldl min o)

/-- The refusals of R1094 that come before a docket begins: opcode, ring, arguments. `mask` are the reserved ARGS bits,
`bad` the offsets at which the command's own chapter refuses it. -/
def refusal (k : Nat) (x : Docket) (mask : Nat → Nat) (bad : List Nat) : Option (Nat × Nat) :=
  if x.opcode > 0x0C then some (St.BAD_OPCODE, 0)
  else if k ≠ deviceRing ∧ deviceOnly x.opcode then some (St.BAD_RING, 0)
  else badArgs (reservedAt x mask ++ bad)

/-- A docket begins: it is in execution. -/
def Dev.beginDocket (d : Dev) (k n : Nat) : Dev :=
  d.putRing k { d.ring k with q := (d.ring k).q.map (fun x => if x.n = n then { x with stage := .begun, began := true } else x) }

/-- A docket's stage counts as in execution for R402 and R626: RUN_STEP, STREAM, OFFLOAD or FETCH. -/
def isStreaming (op : Nat) : Bool := op == 2 || op == 3 || op == 4 || op == 5
def Dev.streamingIn (d : Dev) : Bool := d.anyExecuting (fun x => isStreaming x.opcode)

/-- Is the capture point of a SNAPSHOT reached (R912, R915)? Only the oldest one can hold dockets. -/
def Snap.reached (d : Dev) (x : Snap) : Bool := match x.point with
  | some b => decide (b ≤ d.boundaries)
  | none => false

/-- From the capture point of a SNAPSHOT until its capture ends, R913 holds the dockets that it names; the capture point of one
that the device requests is the boundary that begins it (R929). -/
def Dev.captureHeld (d : Dev) : Bool := d.pr.autoDue.isSome || match d.snaps with
  | [] => false
  | x :: _ => !x.captured && x.reached d

/-- Until a LOAD_PLAN, NM_SCRUB, BIST_WINDOW or RESTORE that has begun has its record, no such docket begins (R402, R626,
R889, R942, R1095); nor during the hold of a capture (R913). -/
def Dev.streamingHeld (d : Dev) : Bool :=
  d.captureHeld || d.load.isSome || d.nmScrub.isSome || d.bistWin.isSome || d.restoring.isSome ||
  (d.ring deviceRing).q.any (fun y => [1, 9, 11, 12].contains y.opcode && y.executing)

end Sys2Proof.Machine
end

