-- ==== Sys2Proof/Machine/Plan.lean ====
section
/-!
DEFINITION. Sys2Proof/Machine/Plan.lean: plan images (R391 to R407, R539, R569, R1099, R1100): reading one, the checks of
LOAD_PLAN with their causes, and the slot tables that it builds (R334 to R344).
-/

namespace Sys2Proof.Machine

/-! ### Sections of an image (R391, R392) -/

/-- Bytes of a plan image, and the limit before which every section must lie. -/
structure Image where
  bytes : List Byte
  deriving DecidableEq, Repr

def Image.u (m : Image) (off n : Nat) : Nat := fieldAt m.bytes off n
def Image.len (m : Image) : Nat := m.bytes.length
def Image.secOff (m : Image) (k : Nat) : Nat := m.u (0x40 + 8 * k) 4
def Image.secCount (m : Image) (k : Nat) : Nat := m.u (0x44 + 8 * k) 4

/-- Bytes that the entry of section `k` at `off` takes. -/
def Image.entrySize (m : Image) (k off : Nat) : Nat :=
  match k with
  | 0 => 16
  | 1 => 8 + 16 * m.u (off + 4) 2
  | 2 => 8 + 16 * m.u (off + 4) 2
  | 3 => (16 + m.u (off + 4) 4 + m.u (off + 8) 4 + 15) / 16 * 16
  | 4 => 8
  | 5 => 32
  | 6 => 16
  | _ => 8

/-- Offsets of `n` entries of section `k` from `off` on; they stop where the image ends. -/
def Image.entriesFrom (m : Image) (k : Nat) : Nat → Nat → List Nat
  | 0, _ => []
  | n + 1, off => if off ≥ m.len then [off] else off :: Image.entriesFrom m k n (off + m.entrySize k off)
def Image.entries (m : Image) (k : Nat) : List Nat := m.entriesFrom k (min (m.secCount k) m.len) (m.secOff k)

/-- The first byte after a section. -/
def Image.secEnd (m : Image) (k : Nat) : Nat :=
  match (m.entries k).getLast? with
  | none => m.secOff k
  | some o => o + m.entrySize k o

/-! ### Entries -/

def Image.circuitAt (m : Image) (o : Nat) : Circuit :=
  let id := m.u o 2
  let src := m.u (o + 2) 2
  let dst := m.u (o + 4) 2
  let rt := m.u (o + 6) 1
  let joint := (m.entries 7).find? (fun j => m.u j 2 % 2 ^ 15 == id % 2 ^ 15)
  { num := bitsOf id 0 12, owner := bitsOf id 12 3, srcPos := bitsOf src 0 10, srcPort := bitsOf src 10 6,
    dstPos := bitsOf dst 0 10, dstPort := bitsOf dst 10 6, order := bitAt rt 0, kind := bitsOf rt 1 2,
    depth := m.u (o + 7) 1, slots := m.u (o + 8) 4,
    joints := if posSpan src = posSpan dst then none else joint.map (fun j => (m.u (j + 2) 1, m.u (j + 3) 1)) }

def Image.instrs (m : Image) (o n : Nat) : List W128 :=
  (List.range n).map (fun i => BitVec.ofNat 128 (m.u (o + 16 * i) 16))
def Image.progAt (m : Image) (o : Nat) : ProgEntry :=
  { pos := m.u o 2, entry := m.u (o + 2) 2, code := m.instrs (o + 8) (m.u (o + 4) 2) }
def Image.clerkAt (m : Image) (o : Nat) : ClerkImage :=
  { pos := m.u o 2, entry := m.u (o + 12) 4, trapHalt := !bitAt (m.u (o + 2) 2) 0,
    itcm := (m.bytes.drop (o + 16)).take (m.u (o + 4) 4),
    dtcm := (m.bytes.drop (o + 16 + m.u (o + 4) 4)).take (m.u (o + 8) 4) }
def Image.gateAt (m : Image) (o : Nat) : TollgateEntry :=
  { pos := m.u o 2, gate := m.u (o + 2) 1, op := m.u (o + 3) 1, grain := m.u (o + 4) 1 }
def Image.descAt (m : Image) (o : Nat) : DescEntry :=
  { pos := m.u o 2, num := m.u (o + 2) 1, pitch := m.u (o + 4) 4, addr := m.u (o + 8) 8, advance := signed 64 (m.u (o + 16) 8) }
def Image.winAt (m : Image) (o : Nat) : WinDecl :=
  { num := m.u o 2, span := m.u (o + 2) 1, first := m.u (o + 4) 4, count := m.u (o + 8) 4 }

/-- The plan that an image holds. -/
def Image.plan (m : Image) : Plan :=
  { id := m.u 0x0C 4, mask := m.u 0x14 1
    circuits := (m.entries 0).map m.circuitAt
    mePrograms := (m.entries 1).map m.progAt
    sfPrograms := (m.entries 2).map m.progAt
    images := (m.entries 3).map m.clerkAt
    tollgates := (m.entries 4).map m.gateAt
    descs := (m.entries 5).map m.descAt
    windows := (m.entries 6).map m.winAt }

/-! ### Routes (R326 to R339) -/

/-- In-ports, out-ports, local in-links and local out-links of a tile (R329). -/
def portCounts (k : UKind) : Nat × Nat × Nat × Nat :=
  match k with
  | .me => (5, 2, 3, 2) | .sf => (8, 4, 2, 2) | .sp => (8, 8, 4, 4) | .clerk => (4, 4, 1, 1) | .io => (64, 48, 4, 4)
  | _ => (0, 0, 1, 1)
def posKind (pos : Nat) : Option UKind := (tileAt pos).bind kindOf

/-- R330, R331: the local link of a port. -/
def outLink (pos port : Nat) : Nat := match posKind pos with
  | some k => port % (portCounts k).2.2.2
  | none => 0
def inLink (pos port : Nat) : Nat := match posKind pos with
  | some .me => if port = 0 then 0 else if port = 1 ∨ port = 3 then 1 else 2
  | some k => port % (portCounts k).2.2.1
  | none => 0

/-- A place that a circuit holds in a slot: `res` what (0 + local out-link, 2^16 + router output, 2^17 + joint switch
output), `input` the router input or source joint port, `at_` the slot after injection. -/
structure Hop where
  res : Nat
  input : Nat
  at_ : Nat
  deriving DecidableEq, Repr

/-- Directions of the steps from (r, c) to (r', c'): along the row first for ORDER 0 (0 north, 1 east, 2 south, 3 west). -/
def routeDirs (order : Bool) (r c r' c' : Nat) : List Nat :=
  let h := List.replicate (c' - c) 1 ++ List.replicate (c - c') 3
  let v := List.replicate (r' - r) 2 ++ List.replicate (r - r') 0
  if order then v ++ h else h ++ v

def stepPos (pos dir : Nat) : Nat :=
  match dir with
  | 0 => pos - 16 | 1 => pos + 1 | 2 => pos + 16 | _ => pos - 1
def opposite (dir : Nat) : Nat := (dir + 2) % 4

def routerRes (pos out : Nat) : Nat := 2 ^ 16 + pos * 16 + out
def jointRes (port : Nat) : Nat := 2 ^ 17 + port

/-- Hops along `dirs` from the router at `pos` reached over `input`, leaving the first router at `at_`; the last router
leaves by `last`. -/
def hopsAlong (pos input at_ : Nat) (dirs : List Nat) (last : Nat) : List Hop :=
  match dirs with
  | [] => [⟨routerRes pos last, input, at_⟩]
  | g :: rest => ⟨routerRes pos g, input, at_⟩ :: hopsAlong (stepPos pos g) (opposite g) (at_ + 1) rest last

/-- The position of a joint (R328). -/
def jointPos (s j : Nat) : Nat := mkPos s (if j % 2 = 0 then 1 else 5) (if j < 2 then 0 else 11)

/-- Everything that a circuit holds, one hop per resource, with slots after injection (R334, R335). -/
def Circuit.hops (c : Circuit) : List Hop :=
  let src := c.srcPos
  let dst := c.dstPos
  let out := outLink src c.srcPort
  let first : Hop := ⟨src * 16 + out, 0, 0⟩
  let last := 8 + inLink dst c.dstPort
  match c.joints with
  | none => first :: hopsAlong src (8 + out) 1 (routeDirs c.order (posRow src) (posCol src) (posRow dst) (posCol dst)) last
  | some (a, b) =>
    let ja := jointPos (posSpan src) a
    let jb := jointPos (posSpan dst) b
    let d1 := routeDirs c.order (posRow src) (posCol src) (posRow ja) (posCol ja)
    let t := d1.length + 1
    let d2 := routeDirs c.order (posRow jb) (posCol jb) (posRow dst) (posCol dst)
    let joint := routerRes ja 4
    let sw := jointRes (posSpan dst * 4 + b)
    let from_ := posSpan src * 4 + a
    let h1 := hopsAlong src (8 + out) 1 d1 4
    let input := match h1.getLast? with
      | some h => h.input
      | none => 8 + out
    first :: h1 ++ [⟨joint, input, t + 1⟩, ⟨sw, from_, t + 8⟩, ⟨sw, from_, t + 9⟩] ++ hopsAlong jb 4 (t + 16) d2 last

/-- The slots after injection at which a circuit leaves its source span's joint router. -/
def Circuit.jointSlot (c : Circuit) : Option Nat :=
  c.joints.map (fun j =>
    (routeDirs c.order (posRow c.srcPos) (posCol c.srcPos) (posRow (jointPos (posSpan c.srcPos) j.1))
      (posCol (jointPos (posSpan c.srcPos) j.1))).length + 1)

def injection (c : Circuit) : List Nat := (List.range 32).filter (fun k => bitAt c.slots k)

/-- (resource, slot) pairs that a circuit holds (R338). -/
def Circuit.holds (c : Circuit) : List (Nat × Nat) :=
  c.hops.flatMap (fun h => (injection c).map (fun k => (h.res, (k + h.at_) % 32)))

/-- The slot-table entry of a router output or joint switch output (R342 to R344). -/
def slotEntry (cs : List Circuit) (res slot : Nat) (isJoint : Bool) : Nat :=
  match cs.findSome? (fun c => (c.hops.find? (fun h => h.res == res && (injection c).any (fun k => (k + h.at_) % 32 == slot))).map
    (fun h => (c, h))) with
  | none => 0
  | some (c, h) => 1 + h.input % (if isJoint then 32 else 16) * 2 + c.num * 2 ^ 8 + c.owner * 2 ^ 20

/-! ### Checks of tile programs (R252 to R276, R267, R541 to R570, R1099) -/

/-- Index of the first element that satisfies `p`. -/
def firstWhere {α : Type} (p : α → Bool) : List α → Option Nat
  | [] => none
  | x :: xs => if p x then some 0 else (firstWhere p xs).map (· + 1)

/-- Bits of a matrix-engine instruction that no table lists. -/
def meReserved (i : W128) : Nat :=
  let hi (n : Nat) : Nat := i.toNat / 2 ^ n
  match opcodeOf i with
  | 0x01 => hi 113 | 0x02 => hi 86 | 0x03 => hi 101 | 0x04 => hi 61 | 0x05 => hi 75 | 0x06 => hi 33
  | 0x07 => hi 27 | 0x08 => hi 21
  | _ => hi 5

/-- A raw pad code that is NaN or Inf in its format. -/
def padBad (fmt raw : Nat) : Bool := !(decodeElem fmt (raw % 2 ^ fmtWidth fmt)).isFinite
/-- A pad selection that R267 refuses: the reserved one, or a raw code that is not finite. -/
def padRefused (sel fmt raw : Nat) : Bool := sel == 3 || (sel == 2 && padBad fmt raw)

/-- Does R267 refuse the instruction by itself? -/
def meInstrBad (i : W128) : Bool :=
  let op := opcodeOf i
  let guarded := [1, 2, 4, 5, 6].contains op
  !([0, 1, 2, 3, 4, 5, 6, 7, 8, 9, 0x1F].contains op) || meReserved i != 0 || (guarded && gKind i == 3) ||
  (op == 3 && (!fmtPairOk (cfgFmtA i) (cfgFmtB i) || padRefused (cfgAPadSel i) (cfgFmtA i) (cfgAPadV i) ||
    padRefused (cfgBPadSel i) (cfgFmtB i) (cfgBPadV i))) ||
  (op == 1 && ((mmaRes i && (decide (mmaM i > 128) || mmaBank i)) || (mmaHold i && !mmaRes i))) ||
  (op == 2 && (!fmtIsDrainOut (drFmtO i) || padRefused (drPadSel i) (drFmtO i) (drPadV i) ||
    (drPadSel i == 2 && decide (fmtWidth (drFmtO i) > 8)))) ||
  (op == 5 && ldaTgt i && decide (ldaM i > 128))

/-- R1099: LOOP and ENDL judged lexically; the count of open levels returns to zero after each END. -/
def loopsBad : List W128 → Nat → Bool
  | [], _ => false
  | i :: rest, n =>
    if opcodeOf i = 8 then (if n ≥ 4 then true else loopsBad rest (n + 1))
    else if opcodeOf i = 9 then (if n = 0 then true else loopsBad rest (n - 1))
    else if opcodeOf i = 0x1F then loopsBad rest 0
    else loopsBad rest n

/-- Does the path from ENTRY reach the end of the memory without END? Loops only return to earlier instructions, so
the path ends at the first END at or after ENTRY; instructions past the entry's are NOP. -/
def noEnd (e : ProgEntry) : Bool := !(e.code.drop e.entry).any (fun i => opcodeOf i == 0x1F)

/-- Does an entry of section 1 break R395, R267 or R1099? -/
def meProgBad (e : ProgEntry) : Bool :=
  posKind e.pos != some .me || decide (e.code.length > 4096) || decide (e.entry ≥ 4096) ||
  e.code.any meInstrBad || loopsBad e.code 0 || noEnd e

/-- Is a non-zero reserved bit set in an SF instruction? -/
def sfReserved (i : W128) : Nat :=
  match opcodeOf i with
  | 0x01 => i.toNat / 2 ^ 117 | 0x02 => i.toNat / 2 ^ 117 + bitsOf i.toNat 10 75 | 0x06 => i.toNat / 2 ^ 33
  | 0x08 => i.toNat / 2 ^ 21
  | _ => i.toNat / 2 ^ 5

/-- Formats that a function accepts (R1103). -/
def sfFmtOk (i : W128) : Bool :=
  let fi := sfFmtI i
  let fo := sfFmtO i
  let plain (f : Nat) : Bool := f ≤ 6 || f == 12
  if sfFunc i = 0x29 then fmtIsMx fi && plain fo
  else if sfFunc i = 0x28 then plain fi && fmtIsMx fo
  else if isKernel (sfFunc i) then fi == 4 && plain fo
  else plain fi && plain fo

/-- The out-ports of an SFOP. -/
def sfOutputs (i : W128) : List Nat :=
  let o := sfOut i
  if sfFunc i = 0x38 then [o, (o + 1) % 4, (o + 2) % 4, (o + 3) % 4]
  else if sfFunc i = 0x39 then [o, (o + 1) % 4, (o + 2) % 4]
  else if sfFunc i = 0x28 then [o, (o + 1) % 4]
  else [o]

/-- A row length that breaks R553. -/
def sfLenBad (i : W128) : Bool :=
  let l := sfImm i % 2 ^ 17
  isRowFunc (sfFunc i) && (l % 64 != 0 || decide (l < 64) || decide (l > 65536) || 64 * sfNv i % l != 0)

/-- Does R570 refuse the instruction by itself, at the tile `pos` of a plan with the circuits `cs`? -/
def sfInstrBad (cs : List Circuit) (pos : Nat) (i : W128) : Bool :=
  let op := opcodeOf i
  !([0, 1, 2, 6, 8, 9, 0x1F].contains op) || sfReserved i != 0 || ((op == 1 || op == 6) && gKind i == 3) ||
  (op == 1 && (!sfFuncOk (sfFunc i) || !sfFmtOk i || sfLenBad i ||
    (sfInputs i).any (fun x => !cs.any (fun c => c.dstPos == pos && c.dstPort == x.1)) ||
    (sfOutputs i).any (fun o => !cs.any (fun c => c.srcPos == pos && c.srcPort == o))))

/-- Does an SF out-port circuit end at an I/O tile (R570)? -/
def sfToIo (cs : List Circuit) (pos : Nat) : Bool := cs.any (fun c => c.srcPos == pos && posKind c.dstPos == some .io)

def sfProgBad (cs : List Circuit) (e : ProgEntry) : Bool :=
  posKind e.pos != some .sf || decide (e.code.length > 4096) || decide (e.entry ≥ 4096) ||
  e.code.any (sfInstrBad cs e.pos) || sfToIo cs e.pos || loopsBad e.code 0 || noEnd e

/-! ### R34 as R399 applies it -/

/-- Segments: runs of instructions up to and with an END. -/
def segments : List W128 → List W128 → List (List W128)
  | [], acc => [acc.reverse]
  | i :: rest, acc => if opcodeOf i = 0x1F then (i :: acc).reverse :: segments rest [] else segments rest (i :: acc)

/-- In-ports that an instruction reads, with the MX formats of its segment. -/
def readPorts (seg : List W128) (i : W128) : List Nat :=
  match opcodeOf i with
  | 0x01 =>
    [0, 1] ++ (if seg.any (fun c => opcodeOf c == 3 && fmtIsMx (cfgFmtA c)) then [2] else []) ++
      (if seg.any (fun c => opcodeOf c == 3 && fmtIsMx (cfgFmtB c)) then [3] else [])
  | 0x04 => [1]
  | 0x05 => [4]
  | _ => []

/-- Does a window hold a row of a tile? -/
def winInTile (w : WinDecl) (pos : Nat) : Bool :=
  match tileAt pos with
  | none => false
  | some p => kindOf p == some .sp && spanOf p == w.span &&
    decide (tileNo p * 2 ^ 14 < w.first + w.count) && decide (w.first < (tileNo p + 1) * 2 ^ 14) && decide (0 < w.count)

/-- The first instruction of a segment that reads a STREAM window without a guard on it. -/
def segUnguarded (pl : Plan) (pos : Nat) (seg : List W128) : Bool :=
  (List.range seg.length).any (fun j =>
    let i := seg.getD j 0
    pl.windows.any (fun w =>
      (readPorts seg i).any (fun port => pl.circuits.any (fun c =>
        c.dstPos == pos && c.dstPort == port && c.kind == 1 && winInTile w c.srcPos)) &&
      !((seg.take (j + 1)).any (fun g => [1, 2, 4, 5, 6].contains (opcodeOf g) && gKind g == 1 && gIdx g == w.num))))

/-! ### The checks in the order of their causes (R406, R407) -/

/-- A refusal: section and index of the first offending entry. -/
abbrev Bad := Option (Nat × Nat)

/-- The first index of a section whose entry satisfies `p`; `p` sees the entries before it. -/
def firstIn {α : Type} (sec : Nat) (p : List α → α → Bool) (xs : List α) : Bad :=
  (firstWhere (fun j => match xs[j]? with
    | some x => p (xs.take j) x
    | none => false) (List.range xs.length)).map (fun j => (sec, j))

def Bad.or (a b : Bad) : Bad := match a with
  | some x => some x
  | none => b

def headerBad (m : Image) : Bad :=
  if m.u 0 4 ≠ 0x4C505A54 ∨ m.u 4 2 ≠ 1 ∨ m.u 6 2 ≠ 192 ∨ m.u 8 4 % 16 ≠ 0 ∨ m.u 8 4 ≠ m.len ∨ m.u 0x10 1 ≠ 8 ∨
      m.u 0x11 1 ≠ 4 ∨ m.u 0x12 1 ≠ 8 ∨ m.u 0x13 1 ≠ 12 then some (0xFF, 0)
  else
    let secs := (List.range 8).filter (fun k => decide (0 < m.secCount k))
    (secs.find? (fun k => decide (m.secOff k < 192) || decide (m.secEnd k > m.len - 4) ||
      secs.any (fun j => decide (k < j) && decide (m.secOff k < m.secEnd j) && decide (m.secOff j < m.secEnd k)))).map
      (fun k => (0xFF, k))

def crcBad (m : Image) : Bad :=
  if crc32c (m.bytes.take (m.len - 4)) = m.u (m.len - 4) 4 then none else some (0xFF, 0)

/-- Reserved bytes and fields of section entries. -/
def entryReserved (m : Image) (k o : Nat) : Bool :=
  match k with
  | 0 => bitAt (m.u o 2) 15 || m.u (o + 6) 1 / 8 != 0 || m.u (o + 12) 4 != 0
  | 1 => m.u (o + 6) 2 != 0
  | 2 => m.u (o + 6) 2 != 0
  | 3 => m.u (o + 2) 2 / 2 != 0
  | 4 => m.u (o + 5) 3 != 0
  | 5 => m.u (o + 3) 1 != 0 || m.u (o + 24) 8 != 0
  | 6 => m.u o 2 / 2 ^ 10 != 0 || m.u (o + 3) 1 != 0 || m.u (o + 4) 4 / 2 ^ 19 != 0 || m.u (o + 12) 4 != 0
  | _ => bitAt (m.u o 2) 15 || m.u (o + 4) 4 != 0

def reservedBad (m : Image) : Bad :=
  let secs := ((List.range 8).findSome? (fun k => (firstWhere (entryReserved m k) (m.entries k)).map (fun j => (k, j))))
  let head : Bad := if m.u 0x15 43 ≠ 0 then some (0xFF, 0)
    else ((List.range 8).find? (fun k => m.u (0x80 + 8 * k) 8 != 0)).map (fun k => (0xFF, 8 + k))
  Bad.or secs head

/-- R56: is neither the unit at a position nor the spare that covers it ON? -/
def Dev.positionDown (d : Dev) (pos : Nat) : Bool :=
  match d.unitAt pos with
  | none => false
  | some p => !d.on p

def Dev.downBad (d : Dev) (pl : Plan) : Bad :=
  Bad.or (firstIn 0 (fun _ c => d.positionDown c.srcPos || d.positionDown c.dstPos) pl.circuits) <|
  Bad.or (firstIn 1 (fun _ e => d.positionDown e.pos) pl.mePrograms) <|
  Bad.or (firstIn 2 (fun _ e => d.positionDown e.pos) pl.sfPrograms) <|
  Bad.or (firstIn 3 (fun _ e => d.positionDown e.pos) pl.images) <|
  Bad.or (firstIn 4 (fun _ e => d.positionDown e.pos) pl.tollgates) <|
  firstIn 5 (fun _ e => d.positionDown e.pos) pl.descs

/-- R326 to R340 and R393 on one circuit, and its number unique in its span. -/
def circuitBad (before : List Circuit) (c : Circuit) : Bool :=
  let token := posKind c.dstPos == some .io && decide (16 ≤ c.dstPort) && c.dstPort % 3 == 0
  let read := posKind c.srcPos == some .sp
  match posKind c.srcPos, posKind c.dstPos with
  | some ks, some kd =>
    decide (c.srcPort ≥ (portCounts ks).2.1) || decide (c.dstPort ≥ (portCounts kd).1) || c.owner != posSpan c.srcPos ||
    before.any (fun b => b.owner == c.owner && b.num == c.num) || c.kind == 3 ||
    (c.kind == 1) != read || (c.kind == 2) != token || (read && token) ||
    (posSpan c.srcPos != posSpan c.dstPos &&
      (match c.joints with | none => true | some (a, b) => decide (a > 3) || decide (b > 3)))
  | _, _ => true

/-- A joint entry names a circuit of the plan and joints 0 to 3. -/
def jointBad (m : Image) (pl : Plan) (o : Nat) : Bool :=
  let id := m.u o 2
  !pl.circuits.any (fun c => c.num == bitsOf id 0 12 && c.owner == bitsOf id 12 3) ||
  decide (m.u (o + 2) 1 > 3) || decide (m.u (o + 3) 1 > 3)

def circuitsBad (m : Image) (pl : Plan) : Bad :=
  Bad.or (firstIn 0 circuitBad pl.circuits) ((firstWhere (jointBad m pl) (m.entries 7)).map (fun j => (7, j)))

def slotsBad (pl : Plan) : Bad :=
  firstIn 0 (fun before c => c.holds.any (fun x => before.any (fun b => b.holds.contains x))) pl.circuits

def jointSlotsBad (pl : Plan) : Bad :=
  firstIn 0 (fun _ c => match c.jointSlot with
    | none => false
    | some t => (injection c).any (fun k => (k + t) % 2 == 1)) pl.circuits

def portsBad (pl : Plan) : Bad :=
  firstIn 0 (fun before c =>
    let same := before.filter (fun b => b.dstPos == c.dstPos && b.dstPort == c.dstPort)
    before.any (fun b => b.srcPos == c.srcPos && b.srcPort == c.srcPort) ||
    (same != [] && (c.kind != 1 || same.any (fun b => b.kind != 1 || b.srcPos == c.srcPos) || decide (same.length ≥ 8)))) pl.circuits

def depthsBad (pl : Plan) : Bad :=
  firstIn 0 (fun before c => c.depth == 0 || decide (c.depth > 128) ||
    (c.kind == 1 && before.any (fun b => b.kind == 1 && b.dstPos == c.dstPos && b.dstPort == c.dstPort && b.depth != c.depth))) pl.circuits

def mesBad (pl : Plan) : Bad :=
  firstIn 1 (fun before e => before.any (fun b => b.pos == e.pos) || meProgBad e) pl.mePrograms

/-- R141: a reserved format code in any field that no earlier cause covers: those of SFOPs. -/
def formatsBad (pl : Plan) : Bad :=
  firstIn 2 (fun _ e => e.code.any (fun i => opcodeOf i == 1 && (fmtIsReserved (sfFmtI i) || fmtIsReserved (sfFmtO i)))) pl.sfPrograms

def unguardedBad (pl : Plan) : Bad :=
  firstIn 1 (fun _ e => (segments e.code []).any (segUnguarded pl e.pos)) pl.mePrograms

def sfsBad (pl : Plan) : Bad :=
  firstIn 2 (fun before e => before.any (fun b => b.pos == e.pos) || sfProgBad pl.circuits e) pl.sfPrograms

def imagesBad (m : Image) (pl : Plan) : Bad :=
  firstIn 3 (fun before e =>
    let o := (m.entries 3).getD before.length 0
    posKind e.pos != some .clerk || before.any (fun b => b.pos == e.pos) || m.u (o + 4) 4 % 4 != 0 || decide (m.u (o + 4) 4 > 131072) ||
    m.u (o + 8) 4 % 8 != 0 || decide (m.u (o + 8) 4 > 65536) || e.entry % 2 != 0 || decide (e.entry ≥ m.u (o + 4) 4)) pl.images

/-- R352: ports that the operation of a Tollgate does not use have no circuit. -/
def gateUnused (e : TollgateEntry) : List Nat × List Nat :=
  match e.op with
  | 1 => ([17 + 3 * e.gate], [])
  | 2 => ([], [17 + 2 * e.gate])
  | _ => ([17 + 3 * e.gate], [17 + 2 * e.gate])

def gatesBad (pl : Plan) : Bad :=
  firstIn 4 (fun before e =>
    posKind e.pos != some .io || decide (e.gate > 15) || e.op == 0 || decide (e.op > 3) || e.grain == 0 || decide (e.grain > 64) ||
    before.any (fun b => b.pos == e.pos && b.gate == e.gate) ||
    pl.circuits.any (fun c => (c.dstPos == e.pos && (gateUnused e).1.contains c.dstPort) ||
      (c.srcPos == e.pos && (gateUnused e).2.contains c.srcPort))) pl.tollgates

/-- R397: the vector size of a descriptor. -/
def vectorSize (pl : Plan) (e : DescEntry) : Nat :=
  let p := (tileAt e.pos).getD 0
  let progs := pl.mePrograms.filter (fun g => match tileAt g.pos with
    | some q => spanOf q == spanOf p && bayOf q == bayOf p
    | none => false)
  let widths := progs.flatMap (fun g => g.code.filterMap (fun i =>
    if opcodeOf i = 2 ∧ drDKind i ∧ drDOff i % 256 = e.num then some (128 * ((fmtWidth (drFmtO i) + 7) / 8)) else none))
  widths.foldl max 128

def descsBad (pl : Plan) : Bad :=
  firstIn 5 (fun before e => posKind e.pos != some .io || before.any (fun b => b.pos == e.pos && b.num == e.num) ||
    decide (e.pitch < vectorSize pl e)) pl.descs

def windowsBad (pl : Plan) : Bad :=
  firstIn 6 (fun before w => before.any (fun b => b.num == w.num) || decide (w.span > 7) || decide (w.num > 1023) ||
    decide (w.first + w.count > 2 ^ 19)) pl.windows

/-- The check of an image (R399, R406, R407, R595): cause, section and index of the first failure. -/
def Dev.checkImage (d : Dev) (m : Image) : Option (Nat × Nat × Nat) :=
  let pl := m.plan
  let checks : List (Nat × Bad) :=
    [(5, d.downBad pl), (6, circuitsBad m pl), (7, slotsBad pl), (8, jointSlotsBad pl), (9, portsBad pl), (10, depthsBad pl),
     (11, mesBad pl), (12, formatsBad pl), (14, unguardedBad pl), (15, sfsBad pl), (16, imagesBad m pl), (17, gatesBad pl),
     (18, descsBad pl), (19, windowsBad pl),
     (20, if d.present.length < 2 ∧ !d.flag P.placement F.FT_STORE_BASE.VALID then some (0xFF, 0) else none)]
  match headerBad m with
  | some (s, i) => some (1, s, i)
  | none =>
    match crcBad m with
    | some (s, i) => some (2, s, i)
    | none =>
      match reservedBad m with
      | some (s, i) => some (4, s, i)
      | none => checks.findSome? (fun c => c.2.map (fun x => (c.1, x.1, x.2)))

/-- The DETAIL of PLAN_REJECTED. -/
def rejectDetail (x : Nat × Nat × Nat) : Nat := x.1 + x.2.1 * 2 ^ 16 + x.2.2 * 2 ^ 32

end Sys2Proof.Machine
end

