-- ==== Sys2Proof/Machine/Cache.lean ====
section
/-!
DEFINITION. Sys2Proof/Machine/Cache.lean: span caches (R463 to R477), accesses of units to device addresses (R465, R501,
R571, R635, R676 to R681), and the opening and closing of windows (R450 to R460).
-/

namespace Sys2Proof.Machine

/-! ### Stalls and estimates (R666, R683 to R687) -/

def noCarter (_ : Nat) : CarterSt := {}
def Dev.carter (d : Dev) (s : Nat) : CarterSt := Tbl.get noCarter d.carters s
def Dev.putCarter (d : Dev) (s : Nat) (c : CarterSt) : Dev := { d with carters := Tbl.set noCarter d.carters s c }

/-- The estimate of a placement tier: 0 near, 1 FAR_HOST, 2 FAR_EXP. ONCHIP has none of its own and uses the near tier's; a request
whose address no entry places (tier 7) is counted with FAR_EXP's (DESIGN CHOICE, log entry 98). -/
def estTier (tier : Nat) : Nat := if tier ≤ 1 ∨ tier = 4 then 0 else min (tier - 1) 2

/-- R666: one completed request of a Carter with latency `x`. -/
def CarterSt.update (c : CarterSt) (e : Nat) (x : Int) : CarterSt :=
  let a := c.avg.getD e 0
  let v := c.dev.getD e 0
  let a' := a + (x - a).tdiv 16
  let v' := v + (((x - a').natAbs : Int) - v).tdiv 16
  { c with avg := c.avg.set e a', dev := c.dev.set e v' }

/-- The windows on which delivery guards of a span wait. -/
def Dev.guardWindows (d : Dev) (s : Nat) : List Nat :=
  (spanUnits s).filterMap (fun p =>
    let of (w : Bool) (i : W128) : Option Nat := if w && gKind i == 1 then some (gIdx i) else none
    match kindOf p with
    | some .me => of (d.flag p F.ME_STAT.GUARD_WAIT) (d.meInstr p)
    | some .spare => of (d.flag p F.ME_STAT.GUARD_WAIT) (d.meInstr p)
    | some .sf => of (d.flag p F.SF_STAT.GUARD_WAIT) (d.sfInstr p)
    | some .clerk => (match (d.clerk p).cwait with | some (k, w) => if k = 1 then some w else none | none => none)
    | _ => none)

/-- Is a span in a stall (R683)? -/
def Dev.stallHolds (d : Dev) (t s : Nat) : Bool :=
  let ws := d.guardWindows s
  d.fills.any (fun f => ws.contains f.win && d.reqs.any (fun r => r.owner == f.owner)) ||
  d.reqs.any (fun r => isSpanPath r.path && spanOf r.path == s && kindOf r.path != some .carter &&
    decide (t > r.sent + (if r.tier ≤ 1 then 2000 else 10000)))

/-- The stall of a span ends (R684). -/
def Dev.endStall (d : Dev) (t s : Nat) : Dev :=
  match d.stalls.find? (fun x => x.span == s) with
  | none => d
  | some x =>
    let p := P.carter s
    let i := x.tier * 8 + x.cause
    let d := d.countTo p i F.CA_STALL_NS.COUNT (d.rdi p i F.CA_STALL_NS.COUNT + (t - x.since))
    let c := d.carter s
    { d.putCarter s { c with stallNs := c.stallNs ++ [(t, t - x.since)] } with stalls := d.stalls.erase x }

/-- Stalls of which neither condition of R683 holds any more end. -/
def Dev.settleStalls (d : Dev) (t : Nat) : Dev :=
  d.stalls.foldl (fun d x => if d.stallHolds t x.span then d else d.endStall t x.span) d

/-- A request leaves the outstanding ones; a stall of its span that no longer holds ends with it. -/
def Dev.dropReq (d : Dev) (t : Nat) (r : Req) : Dev :=
  let s := spanOf r.path
  let d := { d with reqs := d.reqs.filter (fun x => x.id != r.id) }
  if isSpanPath r.path && !d.stallHolds t s then d.endStall t s else d

/-- A request ends at its greatest lifetime: so does the stall of its span (R687). -/
def Dev.endLate (d : Dev) (t : Nat) (r : Req) : Dev := if isSpanPath r.path then d.endStall t (spanOf r.path) else d

/-- A completed request of a Carter updates its estimate; a scratchpad page is no tier of R666. -/
def Dev.measure (d : Dev) (t : Nat) (r : Req) : Dev :=
  if kindOf r.path = some .carter ∧ r.tier ≠ 4 then
    let s := spanOf r.path
    d.putCarter s ((d.carter s).update (estTier r.tier) (t - r.sent : Nat))
  else d

/-! ### Span caches -/

/-- The set of a sector (R463), by the bits of its near address. -/
def setOf (sector : Nat) : Nat := Nat.xor (sector % 2 ^ 13) (sector / 2 ^ 13 % 2 ^ 13)

/-- A dirty sector is written back (R468): four whole code sectors. -/
def Dev.scWriteBack (d : Dev) (t s : Nat) (x : Sector) : Dev :=
  if x.dirty then ((d.nearWrite t 0 (x.addr * 512) x.data 0).2).count (P.spanCache s) F.SC_WB_CNT.COUNT 1 else d

/-- Drop a sector from a cache without write-back. -/
def Dev.scDrop (d : Dev) (s sector : Nat) : Dev := d.putCache s ((d.cache s).filter (fun x => x.addr != sector))

/-- The nodes on the way to a way of a set, from the root (1) on, each with the side on which the way lies: 12 ways are the
first leaves of a tree of 16 (DESIGN CHOICE, log entry 14: R463 names tree pseudo-LRU and no tree). -/
def plruPath (way : Nat) : List (Nat × Nat) := (List.range 4).map (fun l => ((16 + way) / 2 ^ (4 - l), bitsOf way (3 - l) 1))

/-- The tree after an access to a way: every node on its path points to the other side. -/
def plruTouch (tree way : Nat) : Nat :=
  (plruPath way).foldl (fun m x => if bitAt m x.1 = (x.2 == 0) then m else Nat.xor m (2 ^ x.1)) tree

/-- The way to which the tree points; a node whose right side holds no way points left. -/
def plruVictim (tree : Nat) : Nat :=
  (List.range 4).foldl (fun node l =>
    let absent := decide (12 ≤ (2 * node + 1) * 2 ^ (3 - l) - 16)
    2 * node + (if bitAt tree node && !absent then 1 else 0)) 1 - 16

/-- The sector of a cache is accessed (R463). -/
def Dev.scTouch (d : Dev) (s : Nat) (x : Sector) : Dev :=
  let k := s * 2 ^ 13 + setOf x.addr
  { d with plru := Tbl.set noNat d.plru k (plruTouch (Tbl.get noNat d.plru k) x.way) }

/-- Allocate a sector: in a free way of its set, the lowest, or in the way to which the set's tree points (R463). -/
def Dev.scAlloc (d : Dev) (t s : Nat) (x : Sector) : Dev :=
  let d := d.scDrop s x.addr
  let mine := (d.cache s).filter (fun y => setOf y.addr == setOf x.addr)
  let way := match (List.range 12).find? (fun w => mine.all (fun y => y.way != w)) with
    | some w => w
    | none => plruVictim (Tbl.get noNat d.plru (s * 2 ^ 13 + setOf x.addr))
  let d := match mine.find? (fun y => y.way == way) with
    | some y => (d.scDrop s y.addr).scWriteBack t s y
    | none => d
  let x := { x with way := way }
  (d.putCache s (d.cache s ++ [x])).scTouch s x

/-- May the cache of span `s` allocate (R466, R467)? -/
def Dev.scMay (d : Dev) (s : Nat) (noCache : Bool) : Bool := d.flag (P.spanCache s) F.SC_CTL.ALLOC && !noCache

/-- Part of a sector that the cache of span `s` does not hold is read, with `symErrs` symbols in error in its first code sector. Where
the cache may allocate, the fill reads the sector's other code sectors too, with `fillErrs` symbols in error in the first of them;
one that fails leaves the sector unallocated (R608) and fails no request (R607). -/
def Dev.scMiss (d : Dev) (t s addr key n symErrs fillErrs : Nat) (noCache : Bool) : NearResult × Dev :=
  let base := key / 512 * 512
  let keys := (List.range 4).map (fun j => base + 128 * j)
  let named (k : Nat) : Bool := decide (k < key + n) && decide (key < k + 128)
  let r := d.codeSectors t addr symErrs (keys.filter named)
  match r.1 with
  | .error c => (.fail c, r.2)
  | .ok l =>
    let answer : NearResult := .bytes ((l.flatten.drop (key % 128)).take n)
    if !r.2.scMay s noCache then (answer, r.2)
    else
      let q := r.2.codeSectors t addr fillErrs (keys.filter (fun k => !named k))
      match q.1 with
      | .error _ => (answer, q.2)
      | .ok rest =>
        let all := (keys.filter named).zip l ++ (keys.filter (fun k => !named k)).zip rest
        let data := keys.flatMap (fun k => ((all.find? (fun x => x.1 == k)).map (·.2)).getD [])
        (answer, q.2.scAlloc t s { addr := key / 512, dirty := false, data := data })

/-- A read of part of one sector through the cache of span `s` (R466, R469 to R474, R608): `bits` bits of the cached
word in error, `symErrs` symbols of the code sector if it must be read. -/
def Dev.scRead (d : Dev) (t s addr key n bits symErrs : Nat) (noCache : Bool) (fillErrs : Nat := 0) : NearResult × Dev :=
  let p := P.spanCache s
  let sector := key / 512
  let d := d.count p F.SC_RD_CNT.COUNT 1
  match (d.cache s).find? (fun x => x.addr == sector) with
  | none => d.scMiss t s addr key n symErrs fillErrs noCache
  | some x =>
    let d := (d.count p F.SC_HIT_CNT.COUNT 1).scTouch s x
    let good : NearResult := .bytes ((x.data.drop (key % 512)).take n)
    let e := d.secded bits
    let d := e.2
    let ce (d : Dev) : Dev := (d.count p F.SC_ECC_CNT.COUNT 1).send t p K.SC_CE Cls.CORRECTED addr 0
    if bits = 0 then (good, d)
    else if bits = 1 then (good, ce d)
    else if e.1 = 2 then
      (if x.dirty then
        let f := d.freeBytes n
        (.bytes f.1, f.2.setErr t p 16 K.SC_UE Cls.CONTAINED addr 0)
       else (ce (d.scDrop s sector)).scMiss t s addr key n symErrs fillErrs noCache)
    else
      let f := d.freeBytes n
      (.bytes f.1, if e.1 = 1 then ce f.2 else f.2)

/-- R471: the sector leaves every other span cache; a dirty copy is written back first (R468). -/
def Dev.scInvalidateOthers (d : Dev) (t s sector : Nat) : Dev :=
  (List.range 8).foldl (fun d j =>
    if j = s then d
    else match (d.cache j).find? (fun x => x.addr == sector) with
      | none => d
      | some x => (d.scWriteBack t j x).scDrop j sector) d

/-- A write of part of one sector through the cache of span `s` (R467 to R471). -/
def Dev.scWrite (d : Dev) (t s addr key : Nat) (data : List Byte) (symErrs : Nat) (noCache : Bool) : Option Nat × Dev :=
  let sector := key / 512
  let whole := data.length == 512
  let d := d.scInvalidateOthers t s sector
  match (d.cache s).find? (fun x => x.addr == sector) with
  | some x =>
    let o := key % 512
    let y : Sector := { x with dirty := true, data := x.data.take o ++ data ++ x.data.drop (o + data.length) }
    (none, (d.putCache s ((d.cache s).map (fun z => if z.addr = sector then y else z))).scTouch s y)
  | none =>
    if whole && d.scMay s noCache then (none, d.scAlloc t s { addr := sector, dirty := true, data := data })
    else d.nearWrite t addr key data symErrs

/-- A write to the near tier from outside the spans: every span cache gives up the sector (R470). -/
def Dev.baseWrite (d : Dev) (t addr key : Nat) (data : List Byte) (symErrs : Nat) : Option Nat × Dev :=
  (d.scInvalidateOthers t 8 (key / 512)).nearWrite t addr key data symErrs

/-- FLUSH: every dirty sector is written back and stays clean. -/
def Dev.scFlushAll (d : Dev) (t s : Nat) : Dev :=
  let d := (d.cache s).foldl (fun d x => d.scWriteBack t s x) d
  d.putCache s ((d.cache s).map (fun x => { x with dirty := false }))

/-- FLUSH and INVALIDATE (R475, R476): `inv` also invalidates. -/
def Dev.scOp (d : Dev) (t s : Nat) (inv : Bool) : Dev :=
  let p := P.spanCache s
  if s ≥ 8 then d
  else if d.flag p F.SC_CTL.BUSY then d.stateCmd t p
  else
    let d := d.scFlushAll t s
    (if inv then d.putCache s [] else d).wr p F.SC_CTL.BUSY 1

/-! ### Host copies (R966 to R968) -/

/-- The lines of a near range of which the host holds a copy that a device access must take back: any copy before a
write, an exclusive one before a read. -/
def Dev.heldLines (d : Dev) (write : Bool) (key n : Nat) : List SfLine :=
  if n = 0 ∨ !d.flag P.hostIf F.HI_HDM_CTL.DB_EN then []
  else d.snoop.filter (fun l => decide (key / 64 ≤ l.line) && decide (l.line ≤ (key + n - 1) / 64) && (write || l.excl))

/-- The back-invalidation of a line. -/
def bisnp (write : Bool) (l : SfLine) : CxlOut := if write then .bisnpInv l.line else .bisnpData l.line

/-- Back-invalidations of an access that the model makes at once: the host's responses are taken as received (log entry
63). -/
def Dev.snoopNow (d : Dev) (write : Bool) (key n : Nat) : Dev :=
  let hit := d.heldLines write key n
  if hit = [] then d
  else
    let rest : List SfLine := if write then d.snoop.filter (fun l => !hit.contains l)
      else d.snoop.map (fun (l : SfLine) => if hit.contains l then { l with excl := false, asked := false } else l)
    { d.count P.hostIf F.HI_BISNP_CNT.COUNT hit.length with snoop := rest, cxl := d.cxl ++ hit.map (bisnp write) }

/-- Back-invalidations of a request that then waits for the host's responses (R967, R968); true: it need not wait. -/
def Dev.snoopAsk (d : Dev) (write : Bool) (key n : Nat) : Bool × Dev :=
  let hit := d.heldLines write key n
  let new := hit.filter (fun l => !(l.asked && (l.inv || !write)))
  if hit = [] then (true, d)
  else (false, { d.count P.hostIf F.HI_BISNP_CNT.COUNT new.length with
    snoop := d.snoop.map (fun (l : SfLine) => if new.contains l then { l with asked := true, inv := write } else l)
    cxl := d.cxl ++ new.map (bisnp write) })

/-! ### Accesses to device addresses -/

/-- Naturally aligned pieces of at most 512 B of a range (R635). -/
def pieces512 (a n : Nat) : List (Nat × Nat) :=
  if n = 0 then []
  else (List.range ((a % 512 + n + 511) / 512)).map (fun j =>
    let lo := max a (a / 512 * 512 + 512 * j)
    (lo, min (a + n) (a / 512 * 512 + 512 * (j + 1)) - lo))

/-- The link of a far-tier address: by its bit 12 with two links (R954), the other when that is down (R955). -/
def Dev.farLink (d : Dev) (ta : Nat) : Nat :=
  let want := if d.rd P.hostIf F.HI_LINK_STAT.MODE = 1 then bitsOf ta 12 1 else 0
  if d.cxlUp want then want else 1 - want

/-- How a far-tier request goes out (R633, R634): to FAR_HOST as CXL.cache requests of whole lines with HCOH, else as a
CXL.io memory request; to FAR_EXP as unordered I/O. -/
def farForm (tier ta n : Nat) (write hcoh : Bool) : List CxlOut :=
  if tier = 2 then
    (if hcoh then (List.range ((ta % 64 + n + 63) / 64)).map (fun j => .cacheLine write (ta / 64 + j))
     else [.ioMem write ta n])
  else if tier = 3 then [.uio write ta n]
  else []
def Dev.sendFar (d : Dev) (tier ta n : Nat) (write hcoh : Bool) : Dev := { d with cxl := d.cxl ++ farForm tier ta n write hcoh }

/-- Does a request's link refuse its traffic, its IDE stream being insecure (R973)? -/
def Dev.farMute (d : Dev) (ta : Nat) : Bool := d.ideBad.contains (d.farLink ta)

/-- The cause with which a far request would fail at once: its path is down (R638, R973). -/
def Dev.farDown (d : Dev) (tier ta : Nat) : Bool :=
  if tier = 2 then !d.anyCxl
  else match d.expOf ta with
    | some e => d.expDown.contains e || !d.anyCxl
    | none => true

/-- The docket or RUN_STEP of an owner suffers a failure under ABORT_REQ (R679, R680): the first one stays. -/
def Dev.ownerError (d : Dev) (o : Owner) (det : Nat) : Dev :=
  match o with
  | .ring k n => { d.noteTierError k n det with
      colls := d.colls.map (fun (c : Coll) => if c.owner = o then { c with failure := c.failure.or (some det) } else c) }
  | .sub _ _ => { d with
      colls := d.colls.map (fun (c : Coll) => if c.owner = o then { c with failure := c.failure.or (some det) } else c) }
  | .nobody => d

/-- Put a request among the outstanding ones, with the next number. -/
def Dev.issue (d : Dev) (r : Req) : Dev := { d with reqs := d.reqs ++ [{ r with id := d.nextReq }], nextReq := d.nextReq + 1 }

/-- A request failed (R676, R678, R681): under ABORT_REQ a DEFERRED message and the owner's TIER_ERROR; under STALL
the request is held and a CONTAINED message is sent. -/
def Dev.requestFailed (d : Dev) (t : Nat) (r : Req) (cause tier : Nat) (abort : Bool) : Dev :=
  let det := tierDetail cause tier r.addr
  let d := { d.failMsg t r.path cause r.addr abort with env.err := d.env.err.or (some det) }
  if abort then d.ownerError r.owner det else d.issue { r with held := true }

/-- The near key of a device address, where it maps to the near tier. -/
def Dev.nearKeyOf (d : Dev) (a : Nat) : Option Nat :=
  match d.walk a with
  | .error _ => none
  | .ok (e, big) => match d.leafCheck e big a false true with
    | .to tier ta _ _ => if tier ≤ 1 then some ta else none
    | .fail _ _ _ => none

/-- Does the link of the stack that serves a near key retrain? Accesses to it wait (R587). -/
def Dev.keyRetrains (d : Dev) (key : Nat) : Bool :=
  d.retraining != [] && (match d.nearPlace key with | some (k, _) => d.retraining.contains k | none => false)

/-- Does a range of device addresses hold one that is served by such a stack? -/
def Dev.rangeRetrains (d : Dev) (a n : Nat) : Bool :=
  d.retraining != [] && (List.range ((a % 4096 + n + 4095) / 4096)).any (fun i =>
    match d.nearKeyOf (a / 4096 * 4096 + 4096 * i) with
    | some key => d.keyRetrains key
    | none => false)

/-- How often a far request that never gets its completion goes out: once under ABORT_REQ, else with every reissue (R676). -/
def Dev.farSends (d : Dev) (abort : Bool) : Nat := if abort then 1 else 1 + d.rd P.farPath F.FT_CTL.REISSUE_MAX

/-- Does a cause fit a near or a far request? What the state decides is no outcome. -/
def accessCause (near : Bool) (c : Nat) : Bool := if near then c == C.NEAR_UE || c == C.NEAR_TIMEOUT else decide (8 ≤ c) && decide (c ≤ 11)

/-- The near tier serves an access of a unit, whose code sector and cached word have the errors of `e`. -/
def Dev.nearAccess (d : Dev) (t : Nat) (r : Req) (symErrs bits fillErrs : Nat) : Except Nat (List Byte) × Dev :=
  let d := d.snoopNow r.write r.taddr r.len
  let span := isSpanPath r.path
  let s := spanOf r.path
  if r.write then
    let x := if span then d.scWrite t s r.addr r.taddr r.data symErrs r.noCache else d.baseWrite t r.addr r.taddr r.data symErrs
    (match x.1 with | none => .ok [] | some c => .error c, x.2)
  else
    let x := if span then d.scRead t s r.addr r.taddr r.len bits symErrs r.noCache fillErrs else d.nearRead t r.addr r.taddr r.len symErrs
    (match x.1 with | .bytes bs => .ok bs | .fail c => .error c, x.2)

/-- What the far tier does for an access whose request reached it. -/
def Dev.farData (d : Dev) (r : Req) : Except Nat (List Byte) × Dev :=
  if r.write then (.ok [], (d.putFar r.tier r.taddr r.data).count P.farPath F.FT_WR_BYTES.COUNT r.len)
  else (.ok (d.farBytes r.tier r.taddr r.len), d.count P.farPath F.FT_RD_BYTES.COUNT r.len)

/-- The far tier serves an access of a unit that comes back with `res` (R633 to R639, R676); `sent`: its request is out. -/
def Dev.farAccess (d : Dev) (r : Req) (res : ReqOutcome) (abort sent : Bool) : Except Nat (List Byte) × Dev :=
  let go (d : Dev) : Dev := d.sendFar r.tier r.taddr r.len r.write r.hcoh
  if d.farDown r.tier r.taddr then (.error C.FAR_DOWN, d)
  else if d.farMute r.taddr ∨ res = .failed C.FAR_TIMEOUT then
    let n := d.farSends abort
    (.error C.FAR_TIMEOUT, ((List.range (if sent then n - 1 else n)).foldl (fun d _ => go d) d).count P.farPath F.FT_TIMEOUT_CNT.COUNT n)
  else
    let d := if sent then d else go d
    match res with
    | .failed c => if accessCause false c then (.error c, d) else d.farData r
    | _ => d.farData r

/-- A translated access of a unit is served: `none` with its bytes where it failed or is held. With `never` set it fails under either
mode (R1104). -/
def Dev.perform (d : Dev) (t : Nat) (r : Req) (e : AccessErr) (fillErrs : Nat) (never sent : Bool) : Option (List Byte) × Dev :=
  let x : Except Nat (List Byte) × Dev :=
    if r.tier ≤ 1 then
      match e.res with
      | .failed c =>
        if c = C.NEAR_TIMEOUT then (.error c, d)
        else if c = C.NEAR_UE ∧ (d.cachedIn (r.taddr / 512)).isNone ∧ !d.poisoned r.taddr ∧ !(r.write && r.len % 128 == 0) then
          (.error c, match d.nearPlace r.taddr with
            | some (k, off) => (d.poisonSector k off).candidate t k (off / MiB2) 1
            | none => d)
        else d.nearAccess t r e.symErrs e.bits fillErrs
      | _ => d.nearAccess t r e.symErrs e.bits fillErrs
    else d.farAccess r e.res (r.abort || never) sent
  match x.1 with
  | .ok bs => (some bs, x.2)
  | .error c => (none, x.2.requestFailed t r c r.tier (r.abort || never))

/-- The access of a unit that is outstanding, late (R676). -/
def Dev.lateReq (d : Dev) (path addr : Nat) (write : Bool) : Option Req :=
  d.reqs.find? (fun r => r.kind == 6 && r.path == path && r.addr == addr && r.write == write && !r.held)

/-- One access of a unit to at most 512 B of a device address: `none` with its bytes where it failed, is held or is late. A late one
stays outstanding, and the unit's next attempt is its answer. -/
def Dev.access (d : Dev) (t path : Nat) (o : Owner) (addr n : Nat) (write : Bool) (data : List Byte) (e : AccessErr := {})
    (fillErrs : Nat := 0) (never : Bool := false) : Option (List Byte) × Dev :=
  match d.lateReq path addr write with
  | some r =>
    if r.timedOut then (none, d.dropReq t r)
    else if e.res = .late then (none, d)
    else (d.dropReq t r).perform t r e fillErrs never true
  | none =>
    let tr := d.translate (domOf path) addr write false
    let d := tr.2
    let r : Req := {
      id := d.nextReq, path := path, owner := o, kind := 6, tier := 7, addr := addr, len := n, write := write, data := data
      epoch := if isSpanPath path then d.epoch (spanOf path) else 0
      sent := t }
    match tr.1 with
    | .fail c tier m => (none, d.requestFailed t { r with tier := tier } c tier (m || never))
    | .to tier ta _ en =>
      let r := { r with tier := tier, taddr := ta, noCache := eNoCache en, abort := eAbort en, hcoh := eHcoh en }
      if e.res = .late ∧ !never then
        if tier = 2 ∨ tier = 3 then
          (if d.farDown tier ta then d.perform t r {} fillErrs never false
           else (none, (d.sendFar tier ta n write r.hcoh).issue r))
        else (none, d.issue r)
      else d.perform t r e fillErrs never false

/-- How the command's next access comes back. -/
def Dev.takeAcc (d : Dev) : AccessErr × Dev := (d.env.acc.headD {}, { d with env.acc := d.env.acc.tail })

/-- The same for the command's next access, of a unit that the command sees wait out a late one (log entry 82). -/
def Dev.accessNext (d : Dev) (t path : Nat) (o : Owner) (addr n : Nat) (write : Bool) (data : List Byte) (never : Bool := false) :
    Option (List Byte) × Dev :=
  let e := d.takeAcc
  let e' := if e.1.res = .late then { e.1 with res := .ok } else e.1
  e.2.access t path o addr n write data e' 0 never

/-- A write of a unit to a range, request by request (R635). -/
def Dev.writeRange (d : Dev) (t path : Nat) (o : Owner) (a : Nat) (data : List Byte) : Dev :=
  (pieces512 a data.length).foldl (fun d p => (d.accessNext t path o p.1 p.2 true ((data.drop (p.1 - a)).take p.2)).2) d

/-! ### Windows (R450 to R460) -/

def Dev.winSel (d : Dev) : Nat := d.rd P.kyWindows F.KY_WIN_SEL.WIN

/-- Does a window's range lie inside its target with its alignment (R452)? A near range must translate, 4 KiB by
4 KiB, to near pages that allow writes. -/
def Dev.winRange (d : Dev) (w : Nat) : Bool × Dev :=
  let base := d.rdi P.kyWindows w F.KY_WIN_BASE.BASE
  let size := d.rdi P.kyWindows w F.KY_WIN_SIZE.BYTES
  if d.rdi P.kyWindows w F.KY_WIN_CTL.TGT = 0 then
    (decide (base < 2 ^ 19) && size % 512 == 0 && decide (size ≤ 2 ^ 28) && decide (base + size / 512 ≤ 2 ^ 19), d)
  else if base % 4096 ≠ 0 ∨ size % 4096 ≠ 0 then (false, d)
  else (List.range (size / 4096)).foldl (fun acc j =>
    if !acc.1 then acc
    else
      let tr := acc.2.translate 8 (base + 4096 * j) true false
      match tr.1 with
      | .to tier _ _ _ => (decide (tier ≤ 1), tr.2)
      | .fail _ _ _ => (false, tr.2)) (true, d)

/-- WINDOW_OPEN (R451 to R453): a write of KY_WIN_CTL with OPEN = 1 to the selected window. -/
def Dev.winOpen (d : Dev) (t v : Nat) : Dev :=
  let w := d.winSel
  let p := P.kyWindows
  let same := d.rdi p w F.KY_WIN_CTL.TGT == bitsOf v 1 1 && d.rdi p w F.KY_WIN_CTL.SPAN == bitsOf v 8 3
  if d.rdi p w F.KY_WIN_CTL.OPEN = 1 then (if same then d else d.stateCmd t p)
  else
    let d := (d.wri p w F.KY_WIN_CTL.TGT (bitsOf v 1 1)).wri p w F.KY_WIN_CTL.SPAN (bitsOf v 8 3)
    let r := d.winRange w
    if r.1 then (r.2.wri p w F.KY_WIN_CTL.OPEN 1).wri p w F.KY_WIN_BYTES.BYTES 0 else r.2.illegalWrite t p

/-- WINDOW_CLOSE (R451, R460): a write with OPEN = 0. -/
def Dev.winClose (d : Dev) (t v : Nat) : Dev :=
  let w := d.winSel
  let p := P.kyWindows
  let same := d.rdi p w F.KY_WIN_CTL.TGT == bitsOf v 1 1 && d.rdi p w F.KY_WIN_CTL.SPAN == bitsOf v 8 3
  if d.rdi p w F.KY_WIN_CTL.OPEN = 1 then
    let d := d.wri p w F.KY_WIN_CTL.OPEN 0
    if same then d else d.stateCmd t p
  else (d.wri p w F.KY_WIN_CTL.TGT (bitsOf v 1 1)).wri p w F.KY_WIN_CTL.SPAN (bitsOf v 8 3)

/-! ### The commands -/

/-- The bytes that a read answers; a failed one answers zero. -/
def Dev.answerNear (r : NearResult × Dev) : Dev := match r.1 with
  | .bytes bs => { r.2 with rdata := BitVec.ofNat 512 (natOfBytes (bs.take 64)) }
  | .fail _ => { r.2 with rdata := 0 }

/-- SC_READ of a whole sector; the first 64 bytes stand in the answer. While a link retrains, accesses to its stack wait (R587). -/
def Dev.scReadCmd (d : Dev) (t s addr bits : Nat) : Dev :=
  if d.keyRetrains addr then d
  else if s < 8 ∧ addr < d.stripedSize then
    Dev.answerNear ((d.snoopNow false (addr / 512 * 512) 512).scRead t s addr (addr / 512 * 512) 512 bits 0 false)
  else { d with rdata := 0 }

def Dev.scWriteCmd (d : Dev) (t s addr : Nat) (data : List Byte) : Dev :=
  if s < 8 ∧ addr + data.length ≤ d.stripedSize ∧ addr % 512 + data.length ≤ 512 ∧ !d.keyRetrains addr then
    ((d.snoopNow true addr data.length).scWrite t s addr addr data 0 false).2
  else d

def execScRead (span addr bits : Nat) (s : State) := work s (fun d => d.scReadCmd s.now span addr bits)
def execScWrite (span addr : Nat) (data : List Byte) (s : State) := work s (fun d => d.scWriteCmd s.now span addr data)
def execScFlush (span : Nat) (s : State) := upd s (fun d => d.scOp s.now span false)
def execScInvalidate (span : Nat) (s : State) := upd s (fun d => d.scOp s.now span true)
def execScOpDone (span : Nat) (s : State) := work s (fun d => d.wr (P.spanCache span) F.SC_CTL.BUSY 0)
def execWindowOpen (v : Word) (s : State) (ctl : List ReqOutcome := []) := upd s (fun d => d.withEnv ctl [] (fun d => d.winOpen s.now v.toNat))
def execWindowClose (v : Word) (s : State) := upd s (fun d => d.winClose s.now v.toNat)

end Sys2Proof.Machine
end

