-- ==== Sys2Proof/Machine/Trestle.lean ====
section
/-!
DEFINITION. Sys2Proof/Machine/Trestle.lean: the commands of the fabric (spec 05): flits and credits, Tollgates, the
watchdog, LOAD_PLAN with its phases, and vectors of I/O-tile write streams.
-/

namespace Sys2Proof.Machine

/-! ### Credits -/

def Dev.creditCmd (d : Dev) (circ : Nat) : Dev := match d.circuit circ with
  | none => d
  | some c => d.creditReturn c

/-! ### Tollgates (R351 to R363) -/

/-- The circuit into an in-port of an I/O tile that no read circuit feeds. -/
def Dev.pushInto (d : Dev) (pos port : Nat) : Option Circuit := (d.circsInto pos port).find? (fun c => c.kind != 1)

/-- Tokens of a token flit (R353). -/
def tokensOf (f : Flit) : List Bool :=
  (List.range (f.payload.headD 0).toNat).map (fun j => bitAt ((f.payload.getD (1 + j / 8) 0).toNat) (j % 8))

/-- The tokens that a Tollgate holds by a flit: none by one that stops it (R354). -/
def legalTokens (f : Flit) : List Bool := if (f.payload.headD 0).toNat > 127 then [] else tokensOf f

/-- Token flits with n = 0 leave the queue, and one with n above 127 stops the Tollgate (R354, R355). While no token is held, the
tokens of the flit at the queue's head are; the flit leaves the queue with its last token (DEDUCED, log entry 97: so at most
128 × 127 tokens are held, as TG_STAT.TOKENS has it). -/
def Dev.takeTokens (d : Dev) (t io gate : Nat) : Nat → Dev
  | 0 => d
  | fuel + 1 =>
    let g := d.tg (io * 16 + gate)
    if g.stopped ∨ g.tokens ≠ [] then d
    else
      match d.pushInto (posOf io) (18 + 3 * gate) with
      | none => d
      | some c =>
        match (d.circ c.key).queue with
        | [] => d
        | f :: _ =>
          let n := (f.payload.headD 0).toNat
          if n > 127 then
            (d.putTg (io * 16 + gate) { g with stopped := true }).send t io K.TG_TOKEN Cls.CONTAINED 0 0
          else if n = 0 then Dev.takeTokens (d.consume c 1) t io gate fuel
          else d.putTg (io * 16 + gate) { g with tokens := tokensOf f }

/-- The token flit at the head of a Tollgate's token input leaves the queue. -/
def Dev.tokensDone (d : Dev) (io gate : Nat) : Dev := match d.pushInto (posOf io) (18 + 3 * gate) with
  | none => d
  | some c => d.consume c 1

/-- Tokens that a Tollgate holds: what is left of the flit at the head of its queue, and those of the flits behind it (R353,
R363). -/
def Dev.tokensHeld (d : Dev) (io gate : Nat) : Nat :=
  let own := (d.tg (io * 16 + gate)).tokens
  match d.pushInto (posOf io) (18 + 3 * gate) with
  | none => own.length
  | some c =>
    let q := (d.circ c.key).queue
    own.length + ((if own = [] then q else q.tail).map (fun f => (legalTokens f).length)).sum

/-- Room in a four-flit output buffer (R358). -/
def Dev.outRoom (d : Dev) (pos port : Nat) : Bool := match d.circFrom pos port with
  | none => false
  | some c => decide ((d.circ c.key).ready.length < 4)

/-- GRAIN_START (R356, R358): the head token selects the grain. -/
def Dev.grainStart (d : Dev) (t io gate : Nat) : Dev :=
  let k := io * 16 + gate
  if kindOf io ≠ some .io ∨ gate > 15 ∨ (d.tg k).op = 0 ∨ (d.tg k).stopped then d
  else
    let d := d.takeTokens t io gate 129
    let g := d.tg k
    match g.moving, g.tokens with
    | none, tok :: _ =>
      let inp := if g.op = 2 ∧ tok then 17 + 3 * gate else 16 + 3 * gate
      let out : Option Nat :=
        if g.op = 1 then some (16 + 2 * gate + bit tok)
        else if g.op = 2 then some (16 + 2 * gate)
        else if tok then some (16 + 2 * gate) else none
      let present := match d.pushInto (posOf io) inp with
        | none => false
        | some c => (d.circ c.key).queue != []
      let room := match out with
        | none => true
        | some o => d.outRoom (posOf io) o
      if present && room then d.putTg k { g with moving := some (inp, out, g.grain) } else d
    | _, _ => d

/-- GRAIN_FLIT_MOVE (R359 to R362): one flit of the grain in progress moves, or leaves under a GATE drop; with the last
one the token retires. -/
def Dev.grainMove (d : Dev) (io gate : Nat) : Dev :=
  let k := io * 16 + gate
  let g := d.tg k
  if kindOf io ≠ some .io ∨ gate > 15 then d
  else match g.moving with
  | none => d
  | some (inp, out, left) =>
    match d.pushInto (posOf io) inp with
    | none => d
    | some c =>
      match (d.circ c.key).queue with
      | [] => d
      | f :: _ =>
        let room := match out with
          | none => true
          | some o => d.outRoom (posOf io) o
        if !room then d
        else
          let d := d.consume c 1
          let d := match out.bind (d.circFrom (posOf io)) with
            | some oc => d.offer oc [f]
            | none => d
          if left > 1 then d.putTg k { g with moving := some (inp, out, left - 1) }
          else
            let d := d.putTg k { g with moving := none, tokens := g.tokens.tail }
            let d := if g.tokens.tail = [] then d.tokensDone io gate else d
            let d := d.countTo io gate F.TG_GRAIN_CNT.COUNT (d.rdi io gate F.TG_GRAIN_CNT.COUNT + 1)
            if out = none then d.countTo io gate F.TG_DROP_CNT.COUNT (d.rdi io gate F.TG_DROP_CNT.COUNT + 1) else d

/-! ### The watchdog (R368 to R373, R409) -/

/-- Does a delivery guard of span `s` wait: a tile instruction with GKIND = 1, or a kind-1 TZ.CWAIT (R37, R515)? -/
def Dev.deliveryWait (d : Dev) (s : Nat) : Bool :=
  (spanUnits s).any (fun p =>
    match kindOf p with
    | some .me => d.flag p F.ME_STAT.GUARD_WAIT && gKind (d.meInstr p) == 1
    | some .spare => d.flag p F.ME_STAT.GUARD_WAIT && gKind (d.meInstr p) == 1
    | some .sf => d.flag p F.SF_STAT.GUARD_WAIT && gKind (d.sfInstr p) == 1
    | some .clerk => (match (d.clerk p).cwait with | some (k, _) => k == 1 | none => false)
    | _ => false)

/-- Do the counts of span `s` hold: it is sealed, or a delivery guard of it waits (R37, R38, R373)? -/
def Dev.watchHeld (d : Dev) (s : Nat) : Bool := d.isSealed s || d.deliveryWait s

/-- The circuit by which a port waits: an in-port with a flit in its queue, an out-port with a flit ready and no credit
(R368). -/
def Dev.waitingOn (d : Dev) (pos port : Nat) (out : Bool) : Option Circuit :=
  if out then (d.circFrom pos port).filter (fun c => c.kind != 1 && (d.circ c.key).ready != [] && (d.circ c.key).credits == 0)
  else (d.circsInto pos port).find? (fun c => (d.circ c.key).queue != [])

/-- The ports that wait. -/
def Dev.waitingPorts (d : Dev) : List Nat :=
  (d.circuits.filterMap (fun c => if (d.waitingOn c.srcPos c.srcPort true).isSome then some (portKey c.srcPos c.srcPort true) else none) ++
   d.circuits.filterMap (fun c => if (d.waitingOn c.dstPos c.dstPort false).isSome then some (portKey c.dstPos c.dstPort false) else none)).eraseDups

/-- The watchdog count of a port. -/
def Dev.watchCount (d : Dev) (k : Nat) : Nat := Tbl.get noNat d.watch.counts k

/-- `n` CCLK pass: the count of each waiting port rises, but where it holds (R369, R373). -/
def Dev.watchTick (d : Dev) (n : Nat) : Dev :=
  d.waitingPorts.foldl (fun d k =>
    if d.watchHeld (posSpan (k / 128)) then d
    else { d with watch.counts := Tbl.set noNat d.watch.counts k (min (d.watchCount k + n) (2 ^ 24 - 1)) }) d

/-- The TR_STALL message of a waiting port, and its record (R370). -/
def Dev.stallMessage (d : Dev) (t pos port : Nat) (out : Bool) (c : Circuit) : Dev :=
  let p := P.trestle (posSpan pos)
  let d := { d with watch.told := portKey pos port out :: d.watch.told }
  let d := d.wr p F.TR_STALL_LAST.POS pos
  let d := d.wr p F.TR_STALL_LAST.PORT port
  let d := d.wr p F.TR_STALL_LAST.OUT (bit out)
  let d := d.wr p F.TR_STALL_LAST.TIME t
  let d := d.count p F.TR_STALL_CNT.COUNT 1
  d.send t p K.TR_STALL Cls.DEFERRED (pos + port * 2 ^ 10 + bit out * 2 ^ 16 + c.num * 2 ^ 20) 0

/-- TR_STALL: the watchdog count of a waiting port has reached TR_WATCHDOG, and the port has sent no message since its last
progress (R370 to R372). -/
def Dev.trStall (d : Dev) (t pos port : Nat) (out : Bool) : Dev :=
  let k := portKey pos port out
  match d.waitingOn pos port out with
  | none => d
  | some c =>
    if pos < 1024 ∧ d.rd (P.trestle (posSpan pos)) F.TR_WATCHDOG.LIMIT ≤ d.watchCount k ∧ !d.watch.told.contains k then
      d.stallMessage t pos port out c
    else d

/-- TR_WATCHDOG_WRITE (R409): 2,700 to 16,777,215 CCLK. A count that exceeds the new, lower limit sends its message at once. -/
def Dev.watchdogWrite (d : Dev) (t span : Nat) (isSeal : Bool) (v : Nat) : Dev :=
  let p := P.trestle span
  if span > 7 then d
  else if v < 2700 ∨ v ≥ 2 ^ 24 then d.illegalWrite t p
  else if isSeal then d.wr p F.TR_SEAL_TIMEOUT.LIMIT v
  else
    (d.waitingPorts.filter (fun k => posSpan (k / 128) == span && decide (v < d.watchCount k))).foldl (fun d k =>
      d.trStall t (k / 128) (k % 64) (k / 64 % 2 == 1)) (d.wr p F.TR_WATCHDOG.LIMIT v)

/-! ### LOAD_PLAN (R400 to R407) and UNSEAL -/

/-- The program memory of a unit from a program entry: instructions past the entry's are zero, NOP (R395). -/
def progTable (code : List W128) : Tbl W128 :=
  (List.range code.length).filterMap (fun i => if code.getD i 0 = 0 then none else some (i, code.getD i 0))

/-- Load of one program: into the tile, and into the spare that serves it (R318). -/
def Dev.loadProg (d : Dev) (e : ProgEntry) : Dev :=
  match tileAt e.pos with
  | none => d
  | some p =>
    let one (d : Dev) (q : Nat) : Dev :=
      let d := if kindOf q = some .sf then d.putSf q { d.sf q with prog := progTable e.code }
               else d.putMe q { d.me q with prog := progTable e.code }
      d.wr q F.ME_CTL.ENTRY e.entry
    let spare := P.spare (spanOf p)
    let d := one d p
    if kindOf p = some .me ∧ d.flag spare F.ME_REMAP.ACTIVE ∧ d.rd spare F.ME_REMAP.SERVED = p then one d spare else d

/-- Load of a clerk image (R539). -/
def Dev.loadImage (d : Dev) (e : ClerkImage) : Dev :=
  match tileAt e.pos with
  | none => d
  | some p =>
    let c := d.clerk p
    let d := d.putClerk p { c with itcm := Tbl.setAll zeroByte [] 0 e.itcm, dtcm := Tbl.setAll zeroByte [] 0 e.dtcm }
    (d.wr p F.GC_CTL.ENTRY e.entry).wr p F.GC_CTL.TRAP_HALT (bit e.trapHalt)

/-- The network without a plan: no circuits, tile programs, Tollgates or descriptors (R389, R404). -/
def Dev.clearNetwork (d : Dev) : Dev := { d with plan := none, circs := [], tgs := [], descs := [] }

/-- Load (R381, R648, R671, R539): circuits at full credit, programs, images, Tollgates, descriptors; the delivery
counts of the windows are 0 and their readers clear; each lead is CA_LEAD_MIN. -/
def Dev.loadNetwork (d : Dev) (pl : Plan) : Dev :=
  let d := { d with
    plan := some pl
    circs := pl.circuits.foldl (fun t c => Tbl.set noCirc t c.key { depth := c.depth, credits := c.depth }) []
    tgs := pl.tollgates.foldl (fun t e => Tbl.set noTg t ((tileAt e.pos).getD 0 * 16 + e.gate) { op := e.op, grain := e.grain }) []
    descs := pl.descs.foldl (fun t e =>
      Tbl.set noDesc t ((tileAt e.pos).getD 0 * 256 + e.num) { loaded := true, pitch := e.pitch, addr := e.addr, advance := e.advance }) []
    readers := []
    fills := [] }
  let d := pl.mePrograms.foldl Dev.loadProg d
  let d := pl.sfPrograms.foldl Dev.loadProg d
  let d := pl.images.foldl Dev.loadImage d
  let d := pl.windows.foldl (fun d w =>
    (d.wri (P.carter w.span) w.num F.CA_WIN_STAT.DELIV 0).wri (P.carter w.span) w.num F.CA_WIN_STAT.FILLING 0) d
  (List.range 8).foldl (fun d s => d.wr (P.carter s) F.CA_LEAD.ROWS (d.rd (P.carter s) F.CA_LEAD_MIN.ROWS)) d

/-- TR_STAT.PHASE of every span and of the joint switch. -/
def Dev.setAllPhases (d : Dev) (ph : Nat) : Dev := (d.setPhase allSpans ph).wr P.joints F.TR_STAT.PHASE ph

/-- Is the scope quiet: every queue and link of it empty (R376)? -/
def Dev.quiet (d : Dev) (spans : List Nat) : Bool :=
  d.circuits.all (fun c =>
    let x := d.circ c.key
    !(inScopeSrc spans c || inScopeDst spans c) || (x.queue == [] && x.inFlight == [] && x.back == 0))

/-- Does the device keep the plan store in the near tier (R594), or in the host area that FT_STORE_BASE names (R595)? -/
def Dev.storeNear (d : Dev) : Bool := decide (2 ≤ d.present.length)
def Dev.storeBase (d : Dev) : Nat := if d.storeNear then d.reserveStart else d.rd P.placement F.FT_STORE_BASE.BASE * 2 ^ 21

/-- The plan store of R401 takes an image, in whole code sectors (R604). -/
def Dev.putStore (d : Dev) (bs : List Byte) : Dev :=
  let a := d.storeBase
  let bs := bs ++ List.replicate ((128 - bs.length % 128) % 128) 0
  if d.storeNear then
    (pieces512 a bs.length).foldl (fun d p => (d.nearWrite 0 0 p.1 ((bs.drop (p.1 - a)).take p.2) 0).2) d
  else (pieces512 a bs.length).foldl (fun d p => d.sendFar 2 p.1 p.2 true false) (d.putHost a bs)

/-- Bytes of the plan store. -/
def Dev.storeBytes (d : Dev) (n : Nat) : List Byte := if d.storeNear then d.stackBytes d.storeBase n else d.hostBytes d.storeBase n

/-- The image that the plan store holds; its header names its length (R391). Over CXL it is read in requests of 512 B (R595). -/
def Dev.storedImage (d : Dev) : Image × Dev :=
  let n := min (fieldAt (d.storeBytes 12) 8 4) (2 ^ 26)
  (⟨d.storeBytes n⟩, if d.storeNear then d else (pieces512 d.storeBase n).foldl (fun d p => d.sendFar 2 p.1 p.2 false false) d)

/-- Can the plan store be read: in the near tier, or over a link that is up (R595)? -/
def Dev.storeUp (d : Dev) : Bool := d.storeNear || d.anyCxl

/-- Has the quiesce that began at a CCLK count reached the least TR_SEAL_TIMEOUT of the spans (R376)? DESIGN CHOICE, log entry
71: each span has its own limit, and the spec names none for a scope of several. -/
def Dev.quiesceOver (d : Dev) (at_ : Nat) : Bool :=
  allSpans.any (fun s => decide (at_ + 15 * d.rd (P.trestle s) F.TR_SEAL_TIMEOUT.LIMIT ≤ d.cclk))

/-- Quiesce ends, quiet or timed out, with its check of the credits (R349, R377); flush follows. -/
def Dev.endQuiesce (d : Dev) (t : Nat) : Dev := (d.checkCredits t allSpans).setAllPhases 3

/-- The load phase (R381, R404): the plan store takes the image, and the network the plan, unless a position is now down. -/
def Dev.loadPhase (d : Dev) (l : LoadSt) : Dev :=
  let d := d.setAllPhases 5
  match l.image with
  | none => { d.clearNetwork with load := some { l with phase := 5 } }
  | some pl =>
    match d.downBad pl with
    | some (s, i) => { d.clearNetwork with load := some { l with phase := 5, reject := some (rejectDetail (5, s, i)) } }
    | none => { (d.putStore l.bytes).loadNetwork pl with load := some { l with phase := 5 } }

/-- The load goes on by one phase of R374: it waits for streaming dockets (R402), then seals; without a loaded plan it skips
quiesce and flush (R403); quiesce ends when the scope is quiet or its time is over (R376); then flush, and load. -/
def Dev.loadGo (d : Dev) (t : Nat) : Dev :=
  match d.load with
  | none => d
  | some l =>
    let go (d : Dev) (ph : Nat) : Dev := { d with load := some { l with phase := ph } }
    match l.phase with
    | 0 => if d.streamingIn then d else go (d.setAllPhases 1) 1
    | 1 =>
      if d.plan.isNone then go (d.setAllPhases 4) 4
      else { d.setAllPhases 2 with load := some { l with phase := 2, quiesceAt := d.cclk } }
    | 2 => if d.quiet allSpans || d.quiesceOver l.quiesceAt then go (d.endQuiesce t) 3 else d
    | 3 => go ((d.flush t allSpans P.joints).setAllPhases 4) 4
    | 4 => d.loadPhase l
    | _ => d

/-- A LOAD_PLAN docket begins (R1100, R400, R407, R1104, R139): the whole image is read and checked. -/
def Dev.beginLoad (d : Dev) (t : Nat) (x : Docket) (res : ReqOutcome) : Dev :=
  let k := deviceRing
  let addr := x.field 0x10 8
  let len := x.field 0x18 4
  let loc := bitAt (x.field 0x1C 1) 0
  if d.kill.isSome then d.endDocket k x.n St.BAD_ARGS 0
  else if d.captureHeld then d
  else match refusal k x (argMask x) (if addr % 4096 = 0 then [] else [0x10]) with
  | some (st, det) => d.endDocket k x.n st det
  | none =>
    if len > 2 ^ 26 ∨ len < 196 then d.endDocket k x.n St.PLAN_REJECTED (rejectDetail (3, 0xFF, 0))
    else
      let r := d.controlRead loc addr len res
      let d := r.2
      match r.1 with
      | .error c =>
        (d.failMsg t P.dkCtl c addr true).endDocket k x.n St.TIER_ERROR (controlDetail loc c addr)
      | .ok bs =>
        match d.checkImage ⟨bs⟩ with
        | some r => d.endDocket k x.n St.PLAN_REJECTED (rejectDetail r)
        | none =>
          { d.beginDocket k x.n with load := some { ring := k, n := x.n, phase := 0, image := some (Image.plan ⟨bs⟩), bytes := bs, digest := Config.sha384 bs } }.loadGo t

/-- LOAD_PLAN: the device ring's next docket begins when it is one, once its image has come (R1104); a load in progress goes on. -/
def Dev.loadPlan (d : Dev) (t : Nat) (res : ReqOutcome) : Dev :=
  match d.load with
  | some _ => d.loadGo t
  | none =>
    match d.nextDocket deviceRing with
    | none => d
    | some x => if x.opcode = 1 ∧ res ≠ .late then d.beginLoad t x res else d

/-- QUIESCE_TIMEOUT (R377): the quiesce of a LOAD_PLAN or KILL reaches TR_SEAL_TIMEOUT and ends with traffic left; flush
follows. -/
def Dev.quiesceTimeout (d : Dev) (t : Nat) : Dev :=
  match d.load with
  | some l => if l.phase = 2 ∧ d.quiesceOver l.quiesceAt then { d.endQuiesce t with load := some { l with phase := 3 } } else d
  | none =>
    match d.kill with
    | some x => if x.phase = 2 ∧ x.net = 2 ∧ d.quiesceOver x.quiesceAt then { d.endQuiesce t with kill := some { x with net := 3 } } else d
    | none => d

/-! ### Write streams (R364 to R367) -/

/-- The vector at the head of a circuit's queue: its flits up to LAST, once they are all there (R365). -/
def Dev.vectorAtHead (d : Dev) (circ : Nat) : Option (List Flit) :=
  let q := (d.circ circ).queue
  (q.findIdx? (fun f => f.last)).map (fun i => q.take (i + 1))

/-- The bytes that the masks of a vector's flits mark. -/
def maskedBytes (fs : List Flit) : List Byte :=
  fs.flatMap (fun f => (List.range f.payload.length).filterMap (fun j =>
    if f.mask.getLsbD j then some (f.payload.getD j 0) else none))

/-! ### The commands -/

def execCreditReturn (circ : Nat) (s : State) := work s (fun d => d.creditCmd circ)
def execGrainStart (io gate : Nat) (s : State) := work s (fun d => d.grainStart s.now io gate)
def execGrainFlitMove (io gate : Nat) (s : State) := work s (fun d => d.grainMove io gate)
def execTrStall (pos port : Nat) (out : Bool) (s : State) := upd s (fun d => d.trStall s.now pos port out)
def execTrWatchdogWrite (span : Nat) (isSeal : Bool) (v : Nat) (s : State) :=
  upd s (fun d => d.watchdogWrite s.now span isSeal v)
def execLoadPlan (res : ReqOutcome) (s : State) := upd s (fun d => d.loadPlan s.now res)
def execQuiesceTimeout (s : State) := upd s (fun d => d.quiesceTimeout s.now)

end Sys2Proof.Machine
end

