-- ==== Sys2Proof/Machine/Near.lean ====
section
/-!
DEFINITION. Sys2Proof/Machine/Near.lean: tier requests that are outstanding, how they end (R635 to R639, R666, R673 to R687),
and the near tier's own commands: accesses, patrol scrub, retirement, NM_SCRUB and NM_CFG (R584 to R632).
-/

namespace Sys2Proof.Machine

/-! ### Compressed objects (R641 to R647) -/

/-- Code lengths of the high-nibble values (R643). -/
def nibLens (w : Nat) : List Nat := (List.range 16).map (fun v => bitsOf w (4 * v) 4)

/-- The canonical code of a value: (length, code), by RFC 1951 (R644). -/
def nibCode (lens : List Nat) (v : Nat) : Nat × Nat :=
  let l := lens.getD v 0
  let shorter := (List.range 16).foldl (fun acc u => let m := lens.getD u 0; if m ≠ 0 ∧ m < l then acc + 2 ^ (l - m) else acc) 0
  let same := ((List.range v).filter (fun u => lens.getD u 0 == l)).length
  (l, shorter + same)

def kraftOk (lens : List Nat) : Bool :=
  decide ((lens.foldl (fun acc l => if l = 0 then acc else acc + 2 ^ (15 - l)) 0) ≤ 2 ^ 15)

/-- Bits of bytes, from bit 0 of byte 0. -/
def bitsOfBytes (bs : List Byte) : List Bool := bs.flatMap (fun b => (List.range 8).map (fun j => bitAt b.toNat j))

/-- Decode `n` values from a code stream; `none` where no value has the code or the stream ends. -/
def nibDecode (table : List (Nat × Nat × Nat)) : Nat → Nat → Nat → List Bool → Option (List Nat)
  | 0, _, _, _ => some []
  | _, _, _, [] => none
  | n + 1, len, code, b :: rest =>
    let len := len + 1
    let code := 2 * code + bit b
    if len > 15 then none
    else
      match table.find? (fun x => x.1 == len && x.2.1 == code) with
      | some x => if n = 0 then some [x.2.2] else (nibDecode table n 0 0 rest).map (x.2.2 :: ·)
      | none => nibDecode table (n + 1) len code rest

/-- One stored block of `n` decoded bytes (R641 to R645): the bytes and its stored length. -/
def decodeBlock (bs : List Byte) (n : Nat) : Option (List Byte × Nat) :=
  let clen := fieldAt bs 0 2
  let mode := fieldAt bs 2 1
  let payload := (bs.drop 8).take clen
  let out : Option (List Byte) :=
    if mode = 0 then (if clen = n then some payload else none)
    else if mode = 1 then
      let lens := nibLens (fieldAt payload 0 8)
      let half := (n + 1) / 2
      if !kraftOk lens ∨ payload.length < 8 + half then none
      else
        let table := (List.range 16).filterMap (fun v => if lens.getD v 0 = 0 then none else
          some ((nibCode lens v).1, (nibCode lens v).2, v))
        match nibDecode table n 0 0 (bitsOfBytes (payload.drop (8 + half))) with
        | none => none
        | some hi =>
          let used := (hi.map (fun v => lens.getD v 0)).foldl (· + ·) 0
          if clen ≠ 8 + half + (used + 7) / 8 then none
          else some ((List.range n).map (fun i =>
            BitVec.ofNat 8 (hi.getD i 0 * 16 + bitsOf ((payload.getD (8 + i / 2) 0).toNat) (4 * (i % 2)) 4)))
    else none
  match out with
  | none => none
  | some b => if crc32c b = fieldAt bs 4 4 then some (b, (8 + clen + 7) / 8 * 8) else none

/-- Pack bits into bytes from bit 0 up, the last byte padded with zeros. -/
def packBits (bs : List Bool) : List Byte :=
  (List.range ((bs.length + 7) / 8)).map (fun k =>
    BitVec.ofNat 8 ((List.range 8).foldl (fun acc j => acc + bit (bs.getD (8 * k + j) false) * 2 ^ j) 0))

/-- One block as stored with code lengths `w`; NIBBLE only when it is valid and shorter than RAW (R647). -/
def encodeBlock (w : Nat) (bs : List Byte) : List Byte :=
  let n := bs.length
  let lens := nibLens w
  let hi := bs.map (fun b => b.toNat / 16)
  let half := (List.range ((n + 1) / 2)).map (fun i =>
    BitVec.ofNat 8 ((bs.getD (2 * i) 0).toNat % 16 + (bs.getD (2 * i + 1) 0).toNat % 16 * 16))
  let bits := hi.flatMap (fun v =>
    let c := nibCode lens v
    (List.range c.1).map (fun j => bitAt c.2 (c.1 - 1 - j)))
  let nib := bytesOfNat 8 w ++ half ++ packBits bits
  let ok := kraftOk lens && hi.all (fun v => lens.getD v 0 != 0) && decide (nib.length < n)
  let body := if ok then nib else bs
  let raw := bytesOfNat 2 body.length ++ bytesOfNat 1 (bit ok) ++ bytesOfNat 1 0 ++ bytesOfNat 4 (crc32c bs) ++ body
  raw ++ List.replicate ((8 - raw.length % 8) % 8) 0

/-- An object as the device stores it; the code lengths of each block are the device's choice: free values. -/
def Dev.encodeObject (d : Dev) : Nat → List Byte → List Byte × Dev
  | 0, _ => ([], d)
  | fuel + 1, bs =>
    if bs = [] then ([], d)
    else
      let f := d.freeWord
      let r := Dev.encodeObject f.2 fuel (bs.drop 4096)
      (encodeBlock f.1 (bs.take 4096) ++ r.1, r.2)

/-! ### Ends of work -/

/-- The docket or sub-docket of an owner ends. -/
def Dev.endOwner (d : Dev) (o : Owner) (st det : Nat) : Dev :=
  match o with
  | .ring k n => d.endDocket k n st det
  | .sub s h =>
    let parent := (d.subs.find? (fun b => b.span == s && b.entry == h)).map (fun b => b.parent)
    let d := { d with subs := d.subs.map (fun b => if b.span = s ∧ b.entry = h then { b with stage := .ended st det } else b) }
    match parent with
    | some q => d.finishRun q.ring q.n
    | none => d
  | .nobody => d

/-- A failure under ABORT_REQ of a fill or copy: the first one stays (R679, R680). -/
def Dev.noteWork (d : Dev) (o : Owner) (det : Nat) : Dev :=
  { d.ownerError o det with
    fills := d.fills.map (fun f => if f.owner = o then { f with failure := f.failure.or (some det) } else f)
    copies := d.copies.map (fun f => if f.owner = o then { f with failure := f.failure.or (some det) } else f) }

/-- A request goes out to its tier. -/
def Dev.sendReq (d : Dev) (r : Req) : Dev := (d.sendFar r.tier r.taddr r.len r.write r.hcoh).issue r

/-- A request that cannot be sent fails or is held at once (R676, R678); `lost` is what its work makes of the failure. -/
def Dev.failUnsent (d : Dev) (t : Nat) (r : Req) (cause : Nat) (lost : Dev → Dev := id) : Dev :=
  let d := d.failMsg t r.path cause r.addr r.abort
  if r.abort then lost (d.noteWork r.owner (tierDetail cause r.tier r.addr)) else d.issue { r with held := true }

/-- A request as its translation places it. -/
def Req.at (r : Req) (tier ta span e : Nat) : Req :=
  { r with
    tier := tier
    taddr := if tier = 4 then span * 2 ^ 28 + ta else ta
    noCache := eNoCache e
    abort := eAbort e
    hcoh := eHcoh e }

/-- A request of Carter or of a descriptor drain is translated and goes out, or fails (R576, R638). -/
def Dev.launch (d : Dev) (t : Nat) (r : Req) (lost : Dev → Dev := id) : Dev :=
  let tr := d.translate (domOf r.path) r.addr r.write (r.kind != 3)
  match tr.1 with
  | .fail c tier m => tr.2.failUnsent t { r with tier := tier, abort := m } c lost
  | .to tier ta span e =>
    let r := r.at tier ta span e
    if (tier = 2 ∨ tier = 3) ∧ tr.2.farDown tier ta then tr.2.failUnsent t r C.FAR_DOWN lost else tr.2.sendReq r

/-- A write without more than its data to it. -/
def Dev.sendWrite (d : Dev) (t : Nat) (r : Req) : Dev := d.launch t r

/-! ### Copies (R635, R636, R663, R678) -/

/-- A copy's write has been stored: its bytes count, and the last CXL.io write on each link is kept (R636). -/
def Dev.stored (d : Dev) (r : Req) : Dev :=
  let l := d.farLink r.taddr
  let io (c : Copy) : List (Nat × Nat × Nat × Bool) :=
    if r.tier = 2 ∧ !r.hcoh then (l, r.taddr, r.addr, r.abort) :: c.ioAt.filter (fun x => x.1 != l) else c.ioAt
  { d with copies := d.copies.map (fun (c : Copy) => if c.owner = r.owner then { c with stored := c.stored + r.len, ioAt := io c } else c) }

/-- A read at the target of a CXL.io write, so that the writes before it are visible (R636). -/
def Dev.sendVisible (d : Dev) (t path : Nat) (o : Owner) (ta addr : Nat) (abort : Bool) : Dev :=
  let r : Req := { id := 0, path := path, owner := o, kind := 10, tier := 2, taddr := ta, addr := addr, len := 8, write := false, span := spanOf path, epoch := d.epoch (spanOf path), sent := t, abort := abort }
  if d.farDown 2 ta then d.failUnsent t r C.FAR_DOWN else d.sendReq r

/-- Has an owner no request outstanding and no object being read? -/
def Dev.ownerIdle (d : Dev) (o : Owner) : Bool := d.reqs.all (fun r => r.owner != o) && d.decomps.all (fun x => x.owner != o)

def Dev.copyOf (d : Dev) (o : Owner) : Option Copy := d.copies.find? (fun c => c.owner == o)

/-- The request of a copy's Carter for some of its data. -/
def Dev.copyReq (d : Dev) (t : Nat) (c : Copy) (addr : Nat) (data : List Byte) : Req :=
  { id := 0, path := P.carter c.span, owner := c.owner, kind := 2, tier := 7, addr := addr, len := data.length, write := true, data := data, span := c.span, epoch := d.epoch c.span, sent := t }

/-- Data of a copy goes to its destination in requests of at most 512 B (R635). -/
def Dev.copyWrite (d : Dev) (t : Nat) (c : Copy) (a : Nat) (bs : List Byte) : Dev :=
  (pieces512 a bs.length).foldl (fun d p => d.sendWrite t (d.copyReq t c p.1 ((bs.drop (p.1 - a)).take p.2))) d

/-- The object of a compressed destination, read whole, is encoded and written as it is stored (R641, R647). -/
def Dev.writeObject (d : Dev) (t : Nat) (c : Copy) : Dev :=
  match c.obj with
  | none => d
  | some (dst, n) =>
    let e := d.encodeObject (n / 4096 + 1) (Tbl.getN zeroByte c.parts 0 n)
    let d := e.2.count P.farPath F.FT_CODEC_RAW.COUNT n
    let d := { d with copies := d.copies.map (fun (x : Copy) => if x.owner = c.owner then { x with obj := none, parts := [] } else x) }
    d.copyWrite t c dst e.1

/-- The reads that follow a copy's last CXL.io writes (R636). -/
def Dev.copyVisible (d : Dev) (t : Nat) (c : Copy) : Dev :=
  let d := { d with copies := d.copies.map (fun (x : Copy) => if x.owner = c.owner then { x with ioAt := [] } else x) }
  c.ioAt.foldl (fun d x => d.sendVisible t (P.carter c.span) c.owner x.2.1 x.2.2.1 x.2.2.2) d

/-- A copy whose last request has ended writes its object, if it has one, then makes its writes visible, and then completes (R636,
R663, R679). -/
def Dev.finishCopy (d : Dev) (t : Nat) (o : Owner) : Dev :=
  let still (d : Dev) : Option Copy := (d.copyOf o).filter (fun c => !c.stopped && c.rows == [] && d.ownerIdle o)
  let d := match still d with
    | some c => d.writeObject t c
    | none => d
  let d := match still d with
    | some c => d.copyVisible t c
    | none => d
  match still d with
  | none => d
  | some c =>
    let d := { d with copies := d.copies.erase c }
    match c.failure with
    | some det => d.endOwner o St.TIER_ERROR det
    | none => d.endOwner o St.OK c.stored

/-- Data that a copy has read for device address `dest` goes to its destination: as write requests, or into the object. -/
def Dev.copyData (d : Dev) (t : Nat) (o : Owner) (dest : Nat) (bs : List Byte) : Dev :=
  match d.copyOf o with
  | none => d
  | some c =>
    match c.obj with
    | some (dst, _) => { d with copies := d.copies.map (fun (x : Copy) =>
        if x.owner = o then { x with parts := Tbl.setAll zeroByte x.parts (dest - dst) bs } else x) }
    | none => d.copyWrite t c dest bs

/-- Bytes that a copy could not read (R678): a FETCH writes them as zero; an OFFLOAD does not write them, and in an object, which is
stored whole, they are zero (DESIGN CHOICE, log entry 110). -/
def Dev.copyLost (d : Dev) (t : Nat) (o : Owner) (dest n : Nat) : Dev :=
  match d.copyOf o with
  | none => d
  | some c => if c.fetch then d.copyData t o dest (List.replicate n 0) else d

/-! ### Fill rows (R649, R650, R665) -/

/-- The write port over which Carter's I/O tile reaches a row's tile: the in-port of the plan's circuit (R649). -/
def Dev.fillCircuit (d : Dev) (s row : Nat) : Option Circuit :=
  let k := tileOfRow row
  (d.circFrom (posOf (P.io s (k / 8))) (8 + k % 8)).filter (fun c => c.dstPos == posOf (spPath s k) && c.kind != 1)

/-- The first row of a fill of `n` rows, by index, whose tile the plan gives no circuit (R650). -/
def Dev.fillStop (d : Dev) (w : WinDecl) (n : Nat) : Option Nat :=
  ((0 :: (List.range (n / 16384 + 1)).map (fun k => 16384 * (k + 1) - w.first % 16384)).filter (fun i => decide (i < n))).find? (fun i =>
    (d.fillCircuit w.span (w.first + i)).isNone)

/-- Rows of a fill go out at Carter's I/O tiles to their tiles' write streams (R649), from row index `i` on; none from the first
row on that Carter does not reach (R650). -/
def Dev.fillWrite (d : Dev) (w : WinDecl) (n i : Nat) (bs : List Byte) : Dev :=
  let stop := (d.fillStop w n).getD n
  (List.range ((bs.length + 511) / 512)).foldl (fun d j =>
    match (if i + j < stop then d.fillCircuit w.span (w.first + i + j) else none) with
    | some c => d.offer c (rowFlits (w.first + i + j) ((bs.drop (512 * j)).take 512))
    | none => d) d

/-- Rows of a fill from span row address `row` on have come: written, or staged while the fill may not yet write (R665). -/
def Dev.fillData (d : Dev) (o : Owner) (row : Nat) (bs : List Byte) : Dev :=
  match d.fills.find? (fun f => f.owner == o) with
  | none => d
  | some f =>
    match d.winDecl f.win with
    | none => d
    | some w =>
      let i := row - w.first
      let put (g : Fill → Fill) : Dev := { d with fills := d.fills.map (fun (x : Fill) => if x.owner = o then g x else x) }
      let n := (bs.length + 511) / 512
      if f.writing then (put (fun x => { x with came := x.came + n })).fillWrite w f.rows i bs
      else put (fun x => { x with came := x.came + n, staged := x.staged ++ [(i, bs)] })

/-- Do rows of a fill's window still wait on the way to their tiles, or at them for their write port? -/
def Dev.fillOnWay (d : Dev) (s first rows : Nat) : Bool :=
  let mine (f : Flit) : Bool := decide ((f.row + 2 ^ 19 - first % 2 ^ 19) % 2 ^ 19 < rows)
  d.circuits.any (fun c => isIoPos c.srcPos && posSpan c.srcPos == s && decide (8 ≤ c.srcPort) &&
    (let x := d.circ c.key
     (x.ready ++ x.inFlight ++ x.queue).any mine))

/-! ### Compressed objects being read (R635, R641 to R645) -/

def Dev.putDecomp (d : Dev) (x : Decomp) : Dev := { d with decomps := d.decomps.map (fun y => if y.owner = x.owner then x else y) }
def Dev.decompOf (d : Dev) (o : Owner) : Option Decomp := d.decomps.find? (fun x => x.owner == o)

/-- Decoded bytes of an object from offset `pos` on go to its transfer; `none`: they are lost. -/
def Dev.objectData (d : Dev) (t : Nat) (x : Decomp) (pos n : Nat) (bs : Option (List Byte)) : Dev :=
  if x.kind = 0 then d.fillData x.owner (x.dest + pos / 512) (bs.getD (List.replicate n 0))
  else
    match bs with
    | some bs => d.copyData t x.owner (x.dest + pos) bs
    | none => d.copyLost t x.owner (x.dest + pos) n

/-- A piece of 512 stored bytes is requested, once. -/
def Dev.askPiece (d : Dev) (t : Nat) (o : Owner) (j : Nat) : Dev :=
  match d.decompOf o with
  | none => d
  | some x =>
    if x.asked.contains j then d
    else
      let lost (d : Dev) : Dev := match d.decompOf o with
        | some y => d.putDecomp { y with lost := j :: y.lost }
        | none => d
      (d.putDecomp { x with asked := j :: x.asked }).launch t
        { id := 0, path := P.carter x.span, owner := o, kind := 9, tier := 7, addr := x.src + 512 * j, len := 512, write := false, dest := j, span := x.span, epoch := d.epoch x.span, sent := t } lost

/-- The stored bytes that have come from stored offset `off` on. -/
def Decomp.bytesAt (x : Decomp) (off n : Nat) : List Byte :=
  let js := (List.range ((off % 512 + n + 511) / 512)).map (fun i => off / 512 + i)
  ((js.flatMap (fun j => ((x.got.find? (fun g => g.1 == j)).map (·.2)).getD [])).drop (off % 512)).take n

/-- The pieces of a block. -/
def blockPieces (b : Nat × Nat × Nat) : List Nat := (List.range ((b.1 % 512 + b.2.2 + 511) / 512)).map (fun i => b.1 / 512 + i)

/-- The next block is found: its header's CLEN gives its length and the place of the one after it (R641). The header's piece is asked
for first; where it is lost, so is the rest of the object, whose blocks nothing can find. `none`: nothing to do now. -/
def Dev.findBlock (d : Dev) (t : Nat) (x : Decomp) : Option Dev :=
  let j := x.off / 512
  let n := min 4096 (x.len - x.pos)
  if min x.limit x.len ≤ x.pos then none
  else if x.lost.contains j then some ((d.putDecomp { x with pos := x.len }).objectData t x x.pos (x.len - x.pos) none)
  else if x.got.any (fun g => g.1 == j) then
    let len := (8 + fieldAt (x.bytesAt x.off 8) 0 2 + 7) / 8 * 8
    let b := (x.off, x.pos, len)
    some ((blockPieces b).foldl (fun d i => d.askPiece t x.owner i)
      (d.putDecomp { x with off := x.off + len, pos := x.pos + n, blocks := x.blocks ++ [b] }))
  else if x.asked.contains j then none
  else some (d.askPiece t x.owner j)

/-- The failure mode and tier of a device address, for a failure that its tier did not report. -/
def Dev.modeAt (d : Dev) (a : Nat) : Bool × Nat := match d.walk a with
  | .ok (e, _) => (eAbort e, eTier e)
  | .error _ => (d.dfltAbort, 7)

/-- A block whose pieces have all ended is decoded and delivered. One that lost a piece, or fails (R645), is lost under ABORT_REQ;
under STALL a failed one is held, and the others go on (R635). `none`: no such block. -/
def Dev.takeBlock (d : Dev) (t : Nat) (x : Decomp) : Option Dev :=
  (x.blocks.find? (fun b => (blockPieces b).all (fun j => x.got.any (fun g => g.1 == j) || x.lost.contains j))).map (fun b =>
    let n := min 4096 (x.len - b.2.1)
    let d := d.putDecomp { x with blocks := x.blocks.erase b }
    if (blockPieces b).any (fun j => x.lost.contains j) then d.objectData t x b.2.1 n none
    else
      match decodeBlock (x.bytesAt b.1 b.2.2) n with
      | some o => (d.count P.farPath F.FT_CODEC_RAW.COUNT n).objectData t x b.2.1 n (some o.1)
      | none =>
        let m := d.modeAt (x.src + b.1)
        d.failUnsent t { id := 0, path := P.carter x.span, owner := x.owner, kind := 9, tier := m.2, addr := x.src + b.1, len := b.2.2, write := false, span := x.span, epoch := d.epoch x.span, sent := t, abort := m.1 }
          C.CODEC (fun d => d.objectData t x b.2.1 n none))

/-- An object goes on: blocks are found and delivered while there is something to do; one that has ended leaves. -/
def Dev.decompGo (d : Dev) (t : Nat) (o : Owner) : Nat → Dev
  | 0 => d
  | fuel + 1 =>
    match d.decompOf o with
    | none => d
    | some x =>
      if x.len ≤ x.pos ∧ x.blocks = [] then { d with decomps := d.decomps.filter (fun y => y.owner != o) }
      else
        match d.findBlock t x with
        | some d => d.decompGo t o fuel
        | none =>
          match d.takeBlock t x with
          | some d => d.decompGo t o fuel
          | none => d

/-- The steps that an object can take at once: for each block its header's piece, its place and its delivery, and the end. -/
def Decomp.fuel (x : Decomp) : Nat := 3 * (x.len / 4096 + 1) + 2

/-- A piece of an object has come, or is lost. -/
def Dev.pieceEnds (d : Dev) (t : Nat) (r : Req) (bs : Option (List Byte)) : Dev :=
  match d.decompOf r.owner with
  | none => d
  | some x =>
    (d.putDecomp (match bs with
      | some bs => { x with got := (r.dest, bs) :: x.got }
      | none => { x with lost := r.dest :: x.lost })).decompGo t r.owner x.fuel

/-- An object begins to be read, or more of it may be (R577). -/
def Dev.readObject (d : Dev) (t : Nat) (x : Decomp) : Dev :=
  let y := (d.decompOf x.owner).getD x
  let d := if (d.decompOf x.owner).isSome then d else { d with decomps := d.decomps ++ [x] }
  (d.putDecomp { y with limit := max y.limit x.limit }).decompGo t x.owner x.fuel

/-! ### How requests end -/

/-- A descriptor drain's CXL.io write that leaves no other outstanding on its link is followed by a read (R636). -/
def Dev.drainVisible (d : Dev) (t : Nat) (r : Req) : Dev :=
  let io (x : Req) : Bool := x.kind == 3 && x.tier == 2 && !x.hcoh && x.owner == r.owner && x.path == r.path && d.farLink x.taddr == d.farLink r.taddr
  if r.kind = 3 ∧ io r ∧ !d.reqs.any (fun x => io x && !x.held) then d.sendVisible t r.path r.owner r.taddr r.addr r.abort else d

/-- The work of a request's owner may now be over. -/
def Dev.settleOwner (d : Dev) (t : Nat) (o : Owner) : Dev :=
  let d := d.finishCopy t o
  match o with
  | .ring k n => d.finishRun k n
  | _ => d

/-- A request fails for good (R676, R678, R681); that of discarded work leaves without a trace. The unit whose late access failed
learns of it at its next attempt. -/
def Dev.failReq (d : Dev) (t : Nat) (r : Req) (cause : Nat) : Dev :=
  if r.kind = 7 then d.dropReq t r
  else
    let d := d.failMsg t r.path cause r.addr r.abort
    let put (g : Req → Req) : Dev := { d with reqs := d.reqs.map (fun (x : Req) => if x.id = r.id then g x else x) }
    if !r.abort then put (fun x => { x with held := true })
    else if r.kind = 6 then (put (fun x => { x with timedOut := true })).ownerError r.owner (tierDetail cause r.tier r.addr)
    else
      let d := (d.dropReq t r).noteWork r.owner (tierDetail cause r.tier r.addr)
      let d :=
        if r.kind = 0 then d.fillData r.owner r.dest (List.replicate r.len 0)
        else if r.kind = 1 then d.copyLost t r.owner r.dest r.len
        else if r.kind = 9 then d.pieceEnds t r none
        else d
      d.settleOwner t r.owner

/-- A reply to a request of discarded work: its flits carry the request's epoch, and one of an old epoch is discarded where it
arrives (R384, R385, R488). -/
def Dev.staleReply (d : Dev) (t : Nat) (r : Req) : Dev :=
  let s := spanOf r.path
  if isSpanPath r.path ∧ !r.write ∧ r.epoch ≠ d.epoch s then d.staleFlits t s ((r.len + 127) / 128) else d

/-- Data that a read has delivered goes where it belongs. -/
def Dev.deliver (d : Dev) (t : Nat) (r : Req) (bs : List Byte) : Dev :=
  match r.kind with
  | 0 => d.fillData r.owner r.dest bs
  | 1 => d.copyData t r.owner r.dest bs
  | 7 => d.staleReply t r
  | 8 => d
  | 9 => d.pieceEnds t r (some bs)
  | 10 => d
  | _ => { d with rdata := BitVec.ofNat 512 (natOfBytes (bs.take 64)) }

/-- A request has completed: it is measured and leaves, and its data or its write goes where it belongs. -/
def Dev.completeReq (d : Dev) (t : Nat) (r : Req) (bs : List Byte) : Dev :=
  let d := (d.measure t r).dropReq t r
  let d := if r.write then (d.stored r).drainVisible t r else d.deliver t r bs
  d.settleOwner t r.owner

/-- Has a near request reached its greatest lifetime (R673)? -/
def nearOver (t : Nat) (r : Req) : Bool := decide (r.sent + 50000 ≤ t)

/-- A near request is served by its channel (R465, R600 to R606); one that has not completed in 50 µs fails (R673). -/
def Dev.serveNear (d : Dev) (t : Nat) (r : Req) (symErrs : Nat) (bits : Nat := 0) (fillErrs : Nat := 0) : Dev :=
  if nearOver t r then (d.endLate t r).failReq t r C.NEAR_TIMEOUT
  else
    let s := spanOf r.path
    let span := isSpanPath r.path
    if r.write then
      let x := if span then d.scWrite t s r.addr r.taddr r.data symErrs r.noCache else d.baseWrite t r.addr r.taddr r.data symErrs
      match x.1 with
      | none => x.2.completeReq t r []
      | some c => x.2.failReq t r c
    else
      let x := if span then d.scRead t s r.addr r.taddr r.len bits symErrs r.noCache fillErrs else d.nearRead t r.addr r.taddr r.len symErrs
      match x.1 with
      | .bytes bs => x.2.completeReq t r bs
      | .fail c => x.2.failReq t r c

/-- A far request is answered (R633 to R636). -/
def Dev.serveFar (d : Dev) (t : Nat) (r : Req) : Dev :=
  if r.write then ((d.putFar r.tier r.taddr r.data).count P.farPath F.FT_WR_BYTES.COUNT r.len).completeReq t r []
  else (d.count P.farPath F.FT_RD_BYTES.COUNT r.len).completeReq t r (d.farBytes r.tier r.taddr r.len)

/-- The lifetime of a far request, ns. -/
def Dev.farLimit (d : Dev) : Nat := d.rd P.farPath F.FT_TIMEOUT.MICROS * 1000

/-- The far request with a number, unless it is held. -/
def Dev.farReq (d : Dev) (id : Nat) : Option Req := d.reqs.find? (fun r => r.id == id && !r.held && (r.tier == 2 || r.tier == 3))

/-- FAR_REPLY (R635, R639): a reply to a request that no longer waits, or that has timed out, is late. A unit's late access takes its
data at the unit's next attempt. -/
def Dev.farReply (d : Dev) (t id : Nat) (res : ReqOutcome) : Dev :=
  let late : Dev := d.count P.farPath F.FT_LATE_CNT.COUNT 1
  match d.farReq id with
  | none => if id < d.nextReq then late else d
  | some r =>
    if d.farMute r.taddr then d
    else if r.timedOut ∨ r.sent + d.farLimit ≤ t then late
    else
      match res with
      | .failed c => if accessCause false c && c != C.FAR_TIMEOUT then d.failReq t r c else d
      | .ok => if r.kind = 6 then d else d.serveFar t r
      | .late => d

/-- A far request goes out again as a new one (R676), unless its path is down (R638). -/
def Dev.reissue (d : Dev) (t : Nat) (r : Req) : Dev :=
  let ep := if isSpanPath r.path then d.epoch (spanOf r.path) else 0
  let r := { r with sent := t, epoch := ep, timedOut := false }
  let d := d.dropReq t r
  if d.farDown r.tier r.taddr then
    let r := { r with id := d.nextReq }
    (d.issue r).failReq t r C.FAR_DOWN
  else d.sendReq r

/-- FAR_TIMEOUT (R639, R675, R676, R687). -/
def Dev.farTimeout (d : Dev) (t id : Nat) : Dev :=
  match d.farReq id with
  | none => d
  | some r =>
    let sealed_ := isSpanPath r.path && d.isSealed (spanOf r.path)
    if t < r.sent + d.farLimit ∨ r.timedOut ∨ (sealed_ ∧ d.load.isSome ∧ r.kind = 6) then d
    else
      let d := (d.count P.farPath F.FT_TIMEOUT_CNT.COUNT 1).endLate t r
      if sealed_ ∧ d.load.isSome then { d with reqs := d.reqs.map (fun (x : Req) => if x.id = r.id then { x with timedOut := true } else x) }
      else if sealed_ || d.kill.isSome then d.dropReq t r
      else if !r.abort ∧ r.reissues < d.rd P.farPath F.FT_CTL.REISSUE_MAX then d.reissue t { r with reissues := r.reissues + 1 }
      else d.failReq t r C.FAR_TIMEOUT

/-- Requests that timed out while their scope was sealed for LOAD_PLAN go on under R676 at the unseal (R675): under STALL each is
reissued, under ABORT_REQ it fails. -/
def Dev.resumeTimedOut (d : Dev) (t : Nat) : Dev :=
  (d.reqs.filter (fun r => r.timedOut && r.kind != 6)).foldl (fun d r =>
    if r.abort then d.failReq t r C.FAR_TIMEOUT else d.reissue t r) d

/-- NM_TIMEOUT (R673). -/
def Dev.nmTimeout (d : Dev) (t id : Nat) : Dev :=
  match d.reqs.find? (fun r => r.id == id && !r.held && !r.timedOut && decide (r.tier ≤ 1)) with
  | none => d
  | some r => if nearOver t r then (d.endLate t r).failReq t r C.NEAR_TIMEOUT else d

/-! ### UNSEAL (R382, R383) -/

/-- Spans sealed for a discard that wait for their unseal; a substitution unseals its own span (R316). -/
def Dev.sealedSpans (d : Dev) : List Nat := allSpans.filter (fun s => d.phase s == 3 && !d.substs.any (fun x => x.span == s))

/-- UNSEAL (R382, R383): a load ends, with its record, and the requests that timed out meanwhile go on (R675); spans sealed for a
discard resume. While a KILL runs its own phases unseal. -/
def Dev.unseal (d : Dev) (t : Nat) : Dev :=
  match d.load with
  | some l =>
    if l.phase = 5 ∧ !d.epochBusy allSpans then
      let d := { (d.unsealSpans allSpans).wr P.joints F.TR_STAT.PHASE 0 with load := none, planDigest := l.digest }
      let d := d.resumeTimedOut t
      match l.reject with
      | some det => d.endDocket l.ring l.n St.PLAN_REJECTED det
      | none => d.endDocket l.ring l.n St.OK 0
    else d
  | none =>
    if d.kill.isSome then d
    else
      let d := d.sealedSpans.foldl (fun d s => if d.epochBusy [s] then d else d.unsealSpans [s]) d
      if d.sealedSpans = [] then d.wr P.joints F.TR_STAT.PHASE 0 else d

/-! ### DESCRIPTOR_WRITE (R364 to R367, R636) -/

/-- One request of a descriptor drain; `res` says whether it fails at once. -/
def Dev.drainWrite (d : Dev) (t : Nat) (r : Req) (res : ReqOutcome) : Dev :=
  let id := d.nextReq
  let d := d.sendWrite t r
  match res, d.reqs.find? (fun x => x.id == id && !x.held) with
  | .failed c, some x => if accessCause (decide (x.tier ≤ 1)) c then d.failReq t x c else d
  | _, _ => d

/-- DESCRIPTOR_WRITE: the vector that has come of the oldest drain at an I/O tile is removed from its queue, and its masked bytes
go out in write requests at ADDR + m × PITCH; after the last, ADDR advances modulo 2^64. A drain that names an empty descriptor
writes nothing and fails once with NO_DESCRIPTOR (R367). -/
def Dev.descriptorWrite (d : Dev) (t io : Nat) (res : ReqOutcome) : Dev :=
  match d.ioDrains.find? (fun x => x.io == io && (d.vectorAtHead x.circ).isSome) with
  | none => d
  | some x =>
    match d.vectorAtHead x.circ, d.circuit x.circ with
    | some fs, some c =>
      let d := d.consume c fs.length
      let last := x.count ≤ x.done + 1
      let d := { d with ioDrains := if last then d.ioDrains.erase x else d.ioDrains.replace x { x with done := x.done + 1 } }
      let ds := d.desc (io * 256 + x.desc)
      let o : Owner := match x.part with
        | some q => .ring q.ring q.n
        | none => .nobody
      let r : Req := {
        id := 0, path := io, owner := o, kind := 3, tier := 7, addr := 0, len := 0, write := true, span := spanOf io, sent := t, epoch := d.epoch (spanOf io) }
      let d :=
        if !ds.loaded then (if x.done ≠ 0 then d else d.failUnsent t { r with abort := d.dfltAbort } C.NO_DESCRIPTOR)
        else
          let a := (ds.addr + x.done * ds.pitch) % 2 ^ 64
          let bs := maskedBytes fs
          let d := (pieces512 a bs.length).foldl (fun d p =>
            d.drainWrite t { r with addr := p.1, len := p.2, data := (bs.drop (p.1 - a)).take p.2 } res) d
          if last then d.putDesc (io * 256 + x.desc) { ds with addr := (((ds.addr : Int) + ds.advance) % 2 ^ 64).toNat } else d
      d.settleOwner t o
    | _, _ => d

/-! ### NEAR_READ and NEAR_WRITE -/

/-- The stack that serves a device address, where it maps to the near tier. -/
def Dev.stackOf (d : Dev) (a : Nat) : Option Nat := match d.nearKeyOf a with
  | some key => (d.nearPlace key).map (·.1)
  | none => none

/-- R587: link CRC failures in a row on the stack's link. Five of them retrain the link, and the request waits; while
a link retrains its requests wait. Answers whether the transfer may go on. -/
def Dev.linkTries (d : Dev) (a crcFails : Nat) : Bool × Dev :=
  match d.stackOf a with
  | none => (true, d)
  | some k =>
    if d.retraining.contains k then (false, d)
    else
      let d := d.countSat (P.nmChannel k) 0 F.NM_LINK_RETRY_CNT.COUNT (min crcFails 4)
      if crcFails ≥ 5 then (false, { d with retraining := k :: d.retraining }) else (true, d)

/-- The lock bit of a PHY PLL (CK_PHY_LOCK0, CK_PHY_LOCK1). -/
def Dev.setPll (d : Dev) (f : Fld) (n : Nat) (on : Bool) : Dev :=
  let v := d.rd P.clocks f
  d.wr P.clocks f (v - bit (bitAt v n) * 2 ^ n + bit on * 2 ^ n)

/-- The tries of R587, then the back-invalidations of R967 and R968: may the access go on? -/
def Dev.nearMay (d : Dev) (a n crcFails : Nat) (write : Bool) : Bool × Dev :=
  let l := d.linkTries a crcFails
  if !l.1 then l
  else match l.2.nearKeyOf a with
    | some key => l.2.snoopAsk write key n
    | none => l

/-- NM_LINK_RETRAIN_DONE (R587): requests of the stack go on. -/
def Dev.nmRetrained (d : Dev) (stack : Nat) : Dev :=
  if d.retraining.contains stack then
    { d.setPll F.CK_PHY_LOCK0.G7 stack true with retraining := d.retraining.filter (fun k => k != stack) }
  else d

/-- The outstanding near request of a unit at an address. -/
def Dev.nearReq (d : Dev) (path addr : Nat) (write : Bool) : Option Req :=
  d.reqs.find? (fun r => r.path == path && r.addr == addr && r.write == write && !r.held && decide (r.tier ≤ 1) && r.kind != 6)

/-- NEAR_READ: an outstanding read of the unit at the address is served; otherwise the unit reads at once. -/
def Dev.nearReadCmd (d : Dev) (t path addr n symErrs crcFails bits : Nat) (fillErrs : Nat := 0) : Dev :=
  let l := d.nearMay addr n crcFails false
  if !l.1 then l.2
  else
    match l.2.nearReq path addr false with
    | some r => l.2.serveNear t r symErrs bits fillErrs
    | none =>
      if (kindOf path).isNone ∨ addr % 512 + n > 512 then l.2
      else
        let r := l.2.access t path .nobody addr n false [] { symErrs := symErrs, bits := bits } fillErrs
        { r.2 with rdata := match r.1 with
            | some bs => BitVec.ofNat 512 (natOfBytes (bs.take 64))
            | none => 0 }

/-- NEAR_WRITE: likewise for a write. -/
def Dev.nearWriteCmd (d : Dev) (t path addr : Nat) (data : List Byte) (symErrs crcFails : Nat) : Dev :=
  let l := d.nearMay addr data.length crcFails true
  if !l.1 then l.2
  else
    match l.2.nearReq path addr true with
    | some r => l.2.serveNear t r symErrs
    | none =>
      if (kindOf path).isNone ∨ addr % 512 + data.length > 512 then l.2
      else (l.2.access t path .nobody addr data.length true data { symErrs := symErrs }).2

/-! ### Patrol scrub and retirement (R609 to R623) -/

/-- Rows of a stack (R597): 90 GiB of data, 1,920 B to a row. -/
def stackRows : Nat := 50331648

def Dev.putRowMeta (d : Dev) (stack row epoch tag : Nat) : Dev :=
  { d with rowMeta := Tbl.set noNat d.rowMeta (stack * 2 ^ 30 + row) (epoch % 2 ^ 16 + tag * 2 ^ 16) }

/-- One sector met by the patrol scrub (R600, R610). -/
def Dev.scrubSector (d : Dev) (t stack cs symErrs : Nat) : Dev :=
  let p := P.nmChannel stack
  let off := cs * 128
  if Tbl.get noBool d.poison (sectorKey stack off) then d
  else
    let r := d.readSector t 0 stack off symErrs
    match r.1 with
    | .fail _ => r.2.send t p K.NM_UE Cls.DEFERRED 0 0
    | .bytes _ => r.2

/-- The interval of the patrol scrub [k P, (k + 1) P) of device time that holds `t` (R609): each is a pass of its own (DESIGN CHOICE,
log entry 16). -/
def Dev.patrolRoll (d : Dev) (t : Nat) : Dev :=
  let k := t / (d.rd P.nearMgr F.NM_SCRUB_PERIOD.HOURS * 3600000000000)
  if k = d.patrolAt then d
  else { d with patrolAt := k, patrolRows := [] }.wr P.nearMgr F.NM_SCRUB_PASS.PASS (d.rd P.nearMgr F.NM_SCRUB_PASS.PASS + 1)

/-- PATROL_SCRUB of one DRAM row (R609, R610): once in an interval, and not while the stack's link retrains (R587). -/
def Dev.patrolScrub (d : Dev) (t stack row : Nat) (symErrs : List Nat) : Dev :=
  let key := stack * 2 ^ 30 + row
  if !d.present.contains stack ∨ row ≥ stackRows ∨ d.retraining.contains stack then d
  else
    let d := d.patrolRoll t
    if d.patrolRows.contains key then d
    else
      let d := { d with patrolRows := key :: d.patrolRows }
      let d := (List.range 15).foldl (fun d j => d.scrubSector t stack (15 * row + j) (symErrs.getD j 0)) d
      d.putRowMeta stack row (d.rd P.nearMgr F.NM_SCRUB_PASS.PASS) (d.retireTag stack row)

/-- RET_WINDOW_START (R611): a new window [k W, (k + 1) W) has begun. -/
def Dev.retWindowStart (d : Dev) (t : Nat) : Dev := d.retRoll t

/-- MIGRATION_START (R613, R616, R622). -/
def Dev.migrationStart (d : Dev) (t stack : Nat) : Dev :=
  if d.migrations.any (fun m => m.stack == stack) then d
  else
    match d.retires.find? (fun r => r.stack == stack) with
    | none => d
    | some r =>
      let d := { d with retires := d.retires.erase r }
      match (d.freeSpares stack).head? with
      | none =>
        d.sparesEmpty t stack
      | some sp =>
        { d with migrations := d.migrations ++ [(⟨stack, r.granule, r.cause, sp, t⟩ : Migration)] }.wr (P.nmChannel stack) F.NM_CH_STAT.MIGRATING 1

/-- The entries of a table whose keys lie in [lo, hi), at keys shifted by `by_` from lo. -/
def moveKeys {α : Type} [DecidableEq α] (dflt : Nat → α) (m : Tbl α) (lo hi to_ : Nat) : Tbl α :=
  let m := m.filter (fun c => !(decide (to_ ≤ c.1) && decide (c.1 < to_ + (hi - lo))))
  (m.filter (fun c => decide (lo ≤ c.1) && decide (c.1 < hi))).foldl (fun m c => Tbl.set dflt m (c.1 - lo + to_) c.2) m

/-- The near tier after a granule's bytes moved to a spare, bytes that nothing has written among them. -/
def moveGranule (gen : Nat) (m : Tbl Byte) (lo to_ : Nat) : Tbl Byte :=
  if gen = 0 then moveKeys (nearDflt gen) m lo (lo + MiB2) to_
  else (List.range MiB2).foldl (fun a i => Tbl.set (nearDflt gen) a (to_ + i) (Tbl.get (nearDflt gen) m (lo + i))) m

/-- NM_RETIRE (R617 to R621, R623): the migration ends; the spare holds every sector of the granule as it is now, poison
included, the remap switches, the rows are tagged and the retirement is in the flash. `bad` are the sectors, counted within the
granule, that the copy found uncorrectable: poisoned and counted (R601, R618). -/
def Dev.nmRetire (d : Dev) (t stack : Nat) (bad : List Nat := []) : Dev :=
  match d.migrations.find? (fun m => m.stack == stack) with
  | none => d
  | some m =>
    let p := P.nmChannel stack
    let sp := 46032 + m.spare
    let d := bad.foldl (fun d i =>
      let off := m.granule * MiB2 + i * 128
      if i < 16384 ∧ !Tbl.get noBool d.poison (sectorKey stack off) then d.poisonSector stack off else d) d
    let d := { d with
      migrations := d.migrations.erase m
      near := moveGranule d.nearGen d.near (byteKey stack (m.granule * MiB2)) (byteKey stack (sp * MiB2))
      poison := moveKeys noBool d.poison (sectorKey stack (m.granule * MiB2)) (sectorKey stack (m.granule * MiB2) + 16384) (sectorKey stack (sp * MiB2))
      flashRetired := d.flashRetired ++ [(⟨stack, m.granule, m.spare, m.cause, t % 2 ^ 32⟩ : Retired)] }
    let e := ((List.range 48).filter (fun e => d.rdi p e F.NM_REMAP_DATA.VALID == 1)).length
    let d := d.wri p e F.NM_REMAP_DATA.GRANULE m.granule
    let d := d.wri p e F.NM_REMAP_DATA.SPARE m.spare
    let d := d.wri p e F.NM_REMAP_DATA.CAUSE m.cause
    let d := d.wri p e F.NM_REMAP_DATA.TIME t
    let d := d.wri p e F.NM_REMAP_DATA.VALID 1
    let d := d.wr p F.NM_CH_STAT.MIGRATING 0
    let first := (m.granule * 16384 + 14) / 15
    let last := ((m.granule + 1) * 16384 + 14) / 15
    let d := (List.range (last - first)).foldl (fun d j =>
      d.putRowMeta stack (first + j) (d.scrubEpoch stack (first + j)) (m.spare + 1)) d
    d.send t p K.NM_RETIRE Cls.INFO 0 0

/-- NM_RET_GO (R615): a write of GO. -/
def Dev.nmRetGo (d : Dev) (t g stack : Nat) : Dev :=
  let p := P.nearMgr
  if !d.present.contains stack ∨ g ≥ 46016 ∨ (d.remapOf stack g).isSome then d.illegalWrite t p
  else
    let d := (d.wr p F.NM_RET_CMD.GRANULE g).wr p F.NM_RET_CMD.STACK stack
    if d.retireKnown stack g then d else { d with retires := d.retires ++ [(⟨stack, g, 2⟩ : Retire)] }

/-! ### NM_SCRUB and NM_CFG (R592, R593, R625 to R630) -/

/-- Does every page of a range map to the near tier with WRITE = 1 (R625)? The tier addresses, 2 MiB by 2 MiB, as the base die's
translations give them. -/
def Dev.scrubPages (d : Dev) (start n : Nat) : Option (List Nat) × Dev :=
  if start + n > 2 ^ 48 then (none, d)
  else (List.range (n / MiB2)).foldl (fun (acc : Option (List Nat) × Dev) j =>
    match acc.1 with
    | none => acc
    | some l =>
      let tr := acc.2.translate 8 (start + j * MiB2) true false
      match tr.1 with
      | .to tier ta _ _ => (if tier ≤ 1 then some (l ++ [ta]) else none, tr.2)
      | .fail _ _ _ => (none, tr.2)) (some [], d)

/-- Zero one range of the near tier by keys [lo, lo + n): cached sectors and host copies of it vanish (R967),
poison clears. -/
def Dev.zeroNear (d : Dev) (lo n : Nat) : Dev :=
  let d := d.snoopNow true lo n
  let d := (List.range 8).foldl (fun d s =>
    d.putCache s ((d.cache s).filter (fun x => !(decide (lo ≤ x.addr * 512) && decide (x.addr * 512 < lo + n))))) d
  (List.range (n / 4096)).foldl (fun d j =>
    match d.nearPlace (lo + 4096 * j) with
    | none => d
    | some (k, off) => { d with
        near := if d.nearGen = 0 then d.near.filter (fun c => !(decide (byteKey k off ≤ c.1) && decide (c.1 < byteKey k off + 4096)))
                else (List.range 4096).foldl (fun m i => Tbl.set (nearDflt d.nearGen) m (byteKey k (off + i)) 0) d.near
        poison := d.poison.filter (fun c => !(decide (sectorKey k off ≤ c.1) && decide (c.1 < sectorKey k off + 32))) }) d

/-- RANGE = 0: every near space but the device reserve (R625). -/
def Dev.zeroAll (d : Dev) : Nat × Dev :=
  let locals := (List.range 8).map (fun s => d.localSize s)
  let bytes := d.reserveStart + locals.foldl (· + ·) 0
  let d := d.zeroNear 0 d.reserveStart
  (bytes, (List.range 8).foldl (fun d s => d.zeroNear (nearKey (some s) 0) (d.localSize s)) d)

/-- Does a link retrain to which an NM_SCRUB would write (R587)? -/
def Dev.scrubWaits (d : Dev) (x : Docket) : Bool :=
  if bitAt (x.field 0x10 1) 0 then d.rangeRetrains (x.field 0x18 8) (x.field 0x20 8) else d.retraining != []

/-- NM_SCRUB in execution: once no streaming docket runs it zeroes its range and ends (R626, R627, R630). -/
def Dev.scrubGo (d : Dev) (k n : Nat) : Dev :=
  match d.docket k n with
  | none => { d with nmScrub := none }
  | some x =>
    if d.streamingIn || d.scrubWaits x then d
    else
      let r : Nat × Dev :=
        if bitAt (x.field 0x10 1) 0 then
          let p := d.scrubPages (x.field 0x18 8) (x.field 0x20 8)
          (match p.1 with
           | some pages => (pages.length * MiB2, pages.foldl (fun d a => d.zeroNear a MiB2) p.2)
           | none => (0, p.2))
        else d.zeroAll
      let d := { r.2 with nmScrub := none }
      let d := (d.wr P.nearMgr F.NM_ZERO_STAT.DONE (r.1 / 2 ^ 30)).wr P.nearMgr F.NM_ZERO_STAT.BUSY 0
      d.endDocket k n St.OK r.1

def nmScrubMask (o : Nat) : Nat := if o = 0x10 then 0xFE else if o < 0x18 then 0xFF else if o < 0x28 then 0 else 0xFF

/-- NM_SCRUB begins (R625, R626). -/
def Dev.beginScrub (d : Dev) (k : Nat) (x : Docket) : Dev :=
  let range := bitAt (x.field 0x10 1) 0
  let start := x.field 0x18 8
  let bytes := x.field 0x20 8
  let p := if range && start % MiB2 == 0 && bytes % MiB2 == 0 then d.scrubPages start bytes else (none, d)
  match refusal k x nmScrubMask (if range && p.1.isNone then [0x18] else []) with
  | some (st, det) => p.2.endDocket k x.n st det
  | none =>
    (({ p.2.beginDocket k x.n with nmScrub := some (k, x.n) }.wr P.nearMgr F.NM_ZERO_STAT.BUSY 1).wr P.nearMgr F.NM_ZERO_STAT.DONE 0).scrubGo
      k x.n

def Dev.nmScrubCmd (d : Dev) : Dev :=
  match d.nmScrub with
  | some (k, n) => d.scrubGo k n
  | none =>
    match d.nextDocket deviceRing with
    | none => d
    | some x => if x.opcode = 12 ∧ d.kill.isNone ∧ d.load.isNone ∧ !d.captureHeld then d.beginScrub deviceRing x else d

/-- NM_CFG_WRITE (R592, R593, R962). -/
def Dev.nmCfgWrite (d : Dev) (t v : Nat) : Dev :=
  let p := P.nearMgr
  let ilv := bitsOf v 0 1
  let good := decide (bitsOf v 16 16 ≤ 45952)
  let l := if good then bitsOf v 16 16 else d.rd p F.NM_CFG.LOCAL_GRANULES
  let changes := ilv != d.rd p F.NM_CFG.ILV || l != d.rd p F.NM_CFG.LOCAL_GRANULES
  if !d.flag P.dkCtl F.DK_JOB_STAT.JOB_FREE || d.plan.isSome || d.nmScrub.isSome ||
      (changes && d.flag P.hostIf F.HI_HDM_CTL.COMMITTED) then d.stateCmd t p
  else
    let d := d.wr p F.NM_CFG.ILV ilv
    let d := if good then d.wr p F.NM_CFG.LOCAL_GRANULES l else d.illegalWrite t p
    if changes then { d with near := [], poison := [], caches := [], nearGen := d.nearGen + 1 } else d

/-! ### Placement invalidation and expanders (R580, R581, R637, R638) -/

/-- The entries of the translation caches that an invalidation covers leave: all, or those of the page that was named. -/
def Dev.dropCached (d : Dev) : Dev := match d.invPage with
  | none => { d with tcache := [] }
  | some a => { d with tcache := d.tcache.filter (fun x => x.page != (if x.big then a / 512 else a)) }

/-- FT_PT_INV.ALL and PAGE: ignored with STATE_CMD while BUSY. -/
def Dev.ptInv (d : Dev) (t : Nat) (page : Option Nat) : Dev :=
  let p := P.placement
  if d.flag p F.FT_PT_INV.BUSY then d.stateCmd t p
  else
    let d := match page with
      | some a => d.wr p F.FT_PT_INV.ADDR (a % 2 ^ 27)
      | none => d
    ({ d with invPage := page.map (fun a => a % 2 ^ 27) }.dropCached).wr p F.FT_PT_INV.BUSY 1

/-- INVALIDATION_DONE: what was cached since the write and is covered goes too, so that later translations read the
table. -/
def Dev.invDone (d : Dev) : Dev :=
  if d.flag P.placement F.FT_PT_INV.BUSY then d.dropCached.wr P.placement F.FT_PT_INV.BUSY 0 else d

/-- EXPANDER_PROBE (R634, R637, R638): a read of 8 B at BASE. -/
def Dev.expanderProbe (d : Dev) (t e : Nat) (ok : Bool) : Dev :=
  let p := P.farPath
  if e > 15 ∨ d.rdi p e F.FT_EXP_BASE.VALID = 0 then d
  else
    let d := if d.anyCxl then d.sendFar 3 (d.rdi p e F.FT_EXP_BASE.BASE * MiB2) 8 false false else d
    let d := (d.wri p e F.FT_EXP_STAT.REACHABLE (bit ok)).wri p e F.FT_EXP_STAT.TIME t
    if ok then { d with probeFailed := d.probeFailed.filter (fun x => x != e), expDown := d.expDown.filter (fun x => x != e) }
    else if d.probeFailed.contains e then
      (if d.expDown.contains e then d
       else { d with expDown := e :: d.expDown }.send t p K.FT_EXP_DOWN Cls.DEFERRED 0 0)
    else { d with probeFailed := e :: d.probeFailed }

/-! ### The commands -/

def execFtPtInvAll (s : State) := upd s (fun d => d.ptInv s.now none)
def execFtPtInvPage (page : Nat) (s : State) := upd s (fun d => d.ptInv s.now (some page))
def execInvalidationDone (s : State) := upd s (fun d => d.invDone)
def execNearRead (path : Nat) (a : Word) (n symErrs crc : Nat) (s : State) (scBits : Nat := 0) (fillErrs : Nat := 0)
    (ctl : List ReqOutcome := []) :=
  work s (fun d => d.withEnv ctl [] (fun d => d.nearReadCmd s.now path a.toNat n symErrs crc scBits fillErrs))
def execNearWrite (path : Nat) (a : Word) (data : List Byte) (symErrs crc : Nat) (s : State) (ctl : List ReqOutcome := []) :=
  work s (fun d => d.withEnv ctl [] (fun d => d.nearWriteCmd s.now path a.toNat data symErrs crc))
def execUnseal (s : State) := upd s (fun d => d.unseal s.now)
def execDescriptorWrite (io : Nat) (res : ReqOutcome) (s : State) (ctl : List ReqOutcome := []) :=
  upd s (fun d => d.withEnv ctl [] (fun d => d.descriptorWrite s.now io res))
def execNmTimeout (id : Nat) (s : State) := upd s (fun d => d.nmTimeout s.now id)
def execPatrolScrub (stack row : Nat) (errs : List Nat) (s : State) := work s (fun d => d.patrolScrub s.now stack row errs)
def execRetWindowStart (s : State) := upd s (fun d => d.retWindowStart s.now)
def execMigrationStart (stack : Nat) (s : State) := work s (fun d => d.migrationStart s.now stack)
def execNmRetire (stack : Nat) (s : State) (bad : List Nat := []) := upd s (fun d => d.nmRetire s.now stack bad)
def execNmRetGo (g stack : Nat) (s : State) := upd s (fun d => d.nmRetGo s.now g stack)
def execNmScrub (s : State) (ctl : List ReqOutcome := []) := upd s (fun d => d.withEnv ctl [] Dev.nmScrubCmd)
def execNmCfgWrite (v : Word) (s : State) := upd s (fun d => d.nmCfgWrite s.now v.toNat)
def execFarReply (id : Nat) (res : ReqOutcome) (s : State) := upd s (fun d => d.farReply s.now id res)
def execFarTimeout (id : Nat) (s : State) := upd s (fun d => d.farTimeout s.now id)
def execExpanderProbe (e : Nat) (ok : Bool) (s : State) := upd s (fun d => d.expanderProbe s.now e ok)

end Sys2Proof.Machine
end

