-- ==== Sys2Proof/Machine/Carter.lean ====
section
/-!
DEFINITION. Sys2Proof/Machine/Carter.lean: STREAM, FETCH and OFFLOAD (R659 to R664), fills of STREAM windows (R648 to
R657), the adaptation of the lead (R665 to R671) and stalls (R683 to R687).
-/

namespace Sys2Proof.Machine

/-! ### Arguments (R659, R660) -/

/-- Bit 1 of FLAGS: DKIND of FETCH, SKIND of OFFLOAD. -/
def caKind (x : Docket) : Bool := bitAt (x.field 0x1E 1) 1
def caRestart (x : Docket) : Bool := bitAt (x.field 0x1E 1) 0
def caBytes (x : Docket) : Nat := x.field 0x18 4
def caWin (x : Docket) : Nat := x.field 0x1C 2
def caSpan (x : Docket) : Nat := x.field 0x1F 1

/-- Does the command fill a window? -/
def isFill (x : Docket) : Bool := x.opcode == 3 || (x.opcode == 5 && !caKind x)

/-- The span whose Carter moves the data; `none` for an undeclared window or a SPAN above 7. -/
def Dev.caMover (d : Dev) (x : Docket) : Option Nat :=
  if isFill x then (d.winDecl (caWin x)).map (·.span) else if caSpan x ≤ 7 then some (caSpan x) else none

/-- The offsets at which R660 refuses the command; `onSpan` is the span of a span ring. -/
def Dev.caBad (d : Dev) (x : Docket) (onSpan : Option Nat) : List Nat :=
  let n := caBytes x
  let must (bad : Bool) (off : Nat) : List Nat := if bad then [off] else []
  must (x.field 0x10 8 % 512 != 0) 0x10 ++ must (n == 0 || n % 512 != 0) 0x18 ++
  (if isFill x then
    match d.winDecl (caWin x) with
    | none => [0x1C]
    | some w =>
      must (decide (n > w.count * 512)) 0x18 ++
      must (match onSpan with | some s => s != w.span | none => false) 0x1C ++
      must (d.needRestart.contains w.span && !d.restarted.contains (w.span * 1024 + w.num) && !caRestart x) 0x1E
   else
    must (decide (caSpan x > 7) || (match onSpan with | some s => s != caSpan x | none => false)) 0x1F ++
    must ((x.opcode == 5 || caKind x) && x.field 0x20 8 % 512 != 0) 0x20)

/-! ### Copies (R659, R661, R663) -/

/-- The leaf entry that places a device address, as the table holds it, with the size of its page. -/
def Dev.leafAt (d : Dev) (a : Nat) : Option (Nat × Nat) :=
  match d.walk a with
  | .ok (e, big) => some (e, if big then 2 ^ 30 else MiB2)
  | .error _ => none
def Dev.onCompress (d : Dev) (a : Nat) : Bool := (d.leafAt a).any (fun x => eCompress x.1)

/-- The request of span `s`'s Carter for 512 B of a transfer. -/
def Dev.carterReq (d : Dev) (t s : Nat) (o : Owner) (kind addr dest : Nat) : Req :=
  { id := 0, path := P.carter s, owner := o, kind := kind, tier := 7, addr := addr, len := 512, write := false, dest := dest, span := s, epoch := d.epoch s, sent := t }

/-- A copy's source is read: `n` bytes from `src` for device address `dst`, in requests of 512 B, or the object there. -/
def Dev.readSource (d : Dev) (t s : Nat) (o : Owner) (src dst n : Nat) : Dev :=
  if d.onCompress src then d.readObject t { owner := o, kind := 1, span := s, src := src, len := n, dest := dst, limit := n }
  else (List.range (n / 512)).foldl (fun d i =>
    d.launch t (d.carterReq t s o 1 (src + 512 * i) (dst + 512 * i)) (fun d => d.copyLost t o (dst + 512 * i) 512)) d

/-- R661: rows of a span's tiles are read over the plan's read circuits to the I/O tiles. -/
def Dev.offloadCircuit (d : Dev) (s row : Nat) : Option Circuit :=
  let k := tileOfRow row
  (d.circsInto (posOf (P.io s (k / 8))) (8 + k % 8)).find? (fun c => c.srcPos == posOf (spPath s k) && c.kind == 1)

/-- The rows of an OFFLOAD that find room at their in-ports are requested, in order for each port (R347, R661). -/
def Dev.askCopyRows (d : Dev) (s : Nat) : List (Nat × Nat × Bool) → List (Nat × Nat × Bool) × Dev
  | [] => ([], d)
  | x :: rest =>
    let keep (d : Dev) (x : Nat × Nat × Bool) : List (Nat × Nat × Bool) × Dev := let r := d.askCopyRows s rest; (x :: r.1, r.2)
    if x.2.2 then keep d x
    else
      match d.offloadCircuit s x.1 with
      | none => keep d x
      | some c =>
        if 4 ≤ d.portRoom c.dstPos c.dstPort then keep (d.requestRow c x.1) (x.1, x.2.1, true) else keep d x

/-- Every copy of a span asks for the rows that it still needs; the copy that Carter took first goes first. -/
def Dev.askCopies (d : Dev) (s : Nat) : Dev :=
  (d.copies.filter (fun c => c.span == s && c.rows != [])).foldl (fun d c =>
    let r := d.askCopyRows s c.rows
    { r.2 with copies := r.2.copies.map (fun (x : Copy) => if x.owner = c.owner then { x with rows := r.1 } else x) }) d

/-- A row at the head of an I/O tile's read queue goes to the OFFLOAD that asked for it (R661). -/
def Dev.copyTake (d : Dev) (t : Nat) (c : Circuit) : Dev :=
  match d.rowAtHead c with
  | none => d
  | some (row, bs) =>
    let s := posSpan c.dstPos
    match d.copies.find? (fun x => x.span == s && x.rows.any (fun y => y.1 == row && y.2.2)) with
    | none => d
    | some x =>
      let y := (x.rows.find? (fun y => y.1 == row && y.2.2)).getD (row, 0, true)
      let d := d.consume c 4
      let d := { d with copies := d.copies.map (fun (z : Copy) => if z.owner = x.owner then { z with rows := z.rows.erase y } else z) }
      ((d.copyData t x.owner y.2.1 bs).askCopies s).finishCopy t x.owner

/-- The work of a FETCH to a device address or of an OFFLOAD. -/
def Dev.startCopy (d : Dev) (t : Nat) (x : Docket) (o : Owner) : Dev :=
  let s := caSpan x
  let n := caBytes x
  let fetch := x.opcode == 5
  let dst := if fetch then x.field 0x20 8 else x.field 0x10 8
  let c : Copy := { owner := o, span := s, fetch := fetch, obj := if d.onCompress dst then some (dst, n) else none }
  let d := { d with copies := d.copies ++ [c] }
  if fetch ∨ caKind x then
    (d.readSource t s o (if fetch then x.field 0x10 8 else x.field 0x20 8) dst n).finishCopy t o
  else
    let rows := (List.range (n / 512)).map (fun i => (x.field 0x20 8 + i) % 2 ^ 19)
    let ok := rows.takeWhile (fun a => (d.offloadCircuit s a).isSome)
    let short := decide (ok.length < rows.length)
    let d := { d with copies := d.copies.map (fun (y : Copy) =>
      if y.owner = o then { y with rows := ok.zipIdx.map (fun (r : Nat × Nat) => (r.1, dst + 512 * r.2, false)), stopped := short } else y) }
    (if short then d.send t (P.carter s) K.CA_NO_CIRCUIT Cls.CONTAINED 0 0 else d).askCopies s

/-- The work of a command of Carter that has begun. -/
def Dev.startCarter (d : Dev) (t : Nat) (x : Docket) (o : Owner) : Dev :=
  if isFill x then
    match d.winDecl (caWin x) with
    | none => d
    | some w =>
      let key := w.span * 1024 + w.num
      let d := if caRestart x && d.needRestart.contains w.span && !d.restarted.contains key then { d with restarted := key :: d.restarted } else d
      { d with fills := d.fills ++ [({ owner := o, win := w.num, restart := caRestart x, src := x.field 0x10 8, rows := caBytes x / 512 } : Fill)] }
  else d.startCopy t x o

/-- A STREAM, FETCH or OFFLOAD of a ring begins (R110, R402, R660, R1094). -/
def Dev.beginCarter (d : Dev) (t k : Nat) (x : Docket) : Dev :=
  if d.streamingHeld then d
  else
    match refusal k x (argMask x) (d.caBad x (if k = deviceRing then none else some (ringSpan k))) with
    | some (st, det) => d.endDocket k x.n st det
    | none => (d.beginDocket k x.n).startCarter t x (.ring k x.n)

/-- The row of the opcode table for one of the three. -/
def Dev.carterCmd (d : Dev) (t k op : Nat) : Dev :=
  match d.nextDocket k with
  | none => d
  | some x => if x.opcode = op ∧ d.kill.isNone then d.beginCarter t k x else d

/-! ### Fills (R654, R655, R32) -/

/-- The readers of a window: engines and SF tiles of its span whose programs guard on it. -/
def Dev.winReaders (d : Dev) (w : WinDecl) : List Nat :=
  match d.plan with
  | none => []
  | some pl =>
    let spare := P.spare w.span
    let guards (e : ProgEntry) : Bool := posSpan e.pos == w.span && e.code.any (fun i => gKind i == 1 && gIdx i == w.num)
    (((pl.mePrograms ++ pl.sfPrograms).filter guards).filterMap (fun e => tileAt e.pos)).map (fun p =>
      if d.flag spare F.ME_REMAP.ACTIVE && d.rd spare F.ME_REMAP.SERVED == p then spare else p)

/-- The instruction at which a reader stands. -/
def Dev.readerInstr (d : Dev) (p : Nat) : W128 := if kindOf p = some .sf then d.sfInstr p else d.meInstr p

/-- Is a reader at an instruction that carries a guard on `w`? Everything before it has been read (R653). -/
def Dev.atGuard (d : Dev) (p w : Nat) : Bool :=
  let i := d.readerInstr p
  (d.flag p F.ME_STAT.RUNNING || d.flag p F.ME_STAT.HALTED) && gKind i == 1 && gIdx i == w && !(d.me p).ending && (d.me p).op == none &&
  (d.sf p).op == none

/-- The hold of a reader (R652, R653): at its next guard the one before has cleared, and it holds that guard's value once it is met. -/
def Dev.holdNow (d : Dev) (p w : Nat) : Option Nat :=
  if d.atGuard p w then (if d.guardOk (d.readerInstr p) then some (gVal (d.readerInstr p)) else none) else (d.reader p w).hold
def Dev.markNow (d : Dev) (p w : Nat) : Option Nat :=
  if d.atGuard p w then (d.reader p w).hold.or (d.reader p w).mark else (d.reader p w).mark

/-- Does a reader let a fill without RESTART begin when the delivery count is `f` (R655)? -/
def Dev.readerDone (d : Dev) (p w f : Nat) : Bool :=
  let ahead := (gVal (d.readerInstr p) + 2 ^ 16 - f % 2 ^ 16) % 2 ^ 16
  (d.atGuard p w && decide (1 ≤ ahead) && decide (ahead < 2 ^ 15)) || (d.reader p w).idle ||
  (d.holdNow p w == none && (match d.markNow p w with
    | some m => decide ((m + 2 ^ 16 - f % 2 ^ 16) % 2 ^ 16 < 2 ^ 15)
    | none => false))

/-- May the first fill of a window begin (R654, R655)? -/
def Dev.fillReady (d : Dev) (w : WinDecl) (f : Fill) : Bool :=
  if f.restart then (d.winReaders w).all (fun p => d.holdNow p w.num == none)
  else (d.winReaders w).all (fun p => d.readerDone p w.num (d.delivery w.num))

/-- The fill of a window that Carter took first. -/
def Dev.fillOf (d : Dev) (w : Nat) : Option Fill := d.fills.find? (fun f => f.win == w)
def Dev.putFill (d : Dev) (w : Nat) (g : Fill → Fill) : Dev :=
  match d.fillOf w with
  | none => d
  | some f => { d with fills := d.fills.map (fun x => if x.owner = f.owner then g x else x) }

/-! ### Reading a fill's rows (R577, R650, R665) -/

/-- The fills of a span, in the order in which Carter took them, with their windows. -/
def Dev.spanFills (d : Dev) (s : Nat) : List (WinDecl × Fill) :=
  d.fills.filterMap (fun f => ((d.winDecl f.win).filter (fun w => w.span == s)).map (fun w => (w, f)))

/-- The rows of a fill that are requested ahead of what it has written. -/
def Fill.ahead (f : Fill) : Nat := if f.writing then f.asked - f.came else f.asked

/-- How many rows of a fill, from row `asked` on, Carter may request now; `ahead` rows of the span are requested ahead. A STREAM page is
read under the lead, which for a far source or an object, whose rows wait in the staging buffer, is at most 8,192; nothing holds
pre-read rows of an ONCHIP page. Every other page is read when the fill, writing, has written the rows before it (R577, R665). -/
def Dev.mayAsk (d : Dev) (s ahead : Nat) (w : WinDecl) (f : Fill) : Nat :=
  let left := (d.fillStop w f.rows).getD f.rows - f.asked
  let comp := d.onCompress f.src
  let a := if comp then f.src else f.src + 512 * f.asked
  let leaf := (d.leafAt a).getD (0, MiB2)
  let e := leaf.1
  if f.stopped || left == 0 then 0
  else if eStream e then
    let lead := d.rd (P.carter s) F.CA_LEAD.ROWS
    let lead := if eTier e = 2 ∨ eTier e = 3 ∨ comp then min lead 8192 else lead
    let n := if comp then min left 8 else 1
    if ahead + n ≤ lead ∧ (f.writing ∨ eTier e ≤ 3) then n else 0
  else
    let page := f.asked - min f.asked (a % leaf.2 / 512)
    if f.writing ∧ page ≤ f.came then (if comp then left else 1) else 0

/-- The next `n` rows of a fill are requested: of a near STREAM page that waits to be written into the span cache, else to be
written or staged (R665). The estimate in use is that of the fill at the lead's front (R667). -/
def Dev.askFill (d : Dev) (t s : Nat) (w : WinDecl) (f : Fill) (n : Nat) : Dev :=
  let comp := d.onCompress f.src
  let a := if comp then f.src else f.src + 512 * f.asked
  let tier := eTier ((d.leafAt a).getD (0, MiB2)).1
  let pre := !comp && !f.writing && decide (tier ≤ 1)
  let front := ((d.spanFills s).filter (fun x => x.2.asked != 0 || x.2.owner == f.owner)).getLast?.any (fun x => x.2.owner == f.owner)
  let d := if front then d.putCarter s { d.carter s with tier := estTier tier } else d
  let d := { d with fills := d.fills.map (fun (x : Fill) =>
    if x.owner = f.owner then { x with asked := x.asked + n, again := if pre then x.again ++ [f.asked] else x.again } else x) }
  if comp then
    d.readObject t { owner := f.owner, kind := 0, span := s, src := f.src, len := f.rows * 512, dest := w.first, limit := (f.asked + n) * 512 }
  else
    let row := w.first + f.asked
    d.launch t (d.carterReq t s f.owner (if pre then 8 else 0) a row) (fun d => if pre then d else d.fillData f.owner row (List.replicate 512 0))

/-- A fill that is writing and reaches a tile without a circuit stops, with a message (R650). -/
def Dev.stopFills (d : Dev) (t s : Nat) : Dev :=
  (d.spanFills s).foldl (fun d x =>
    match d.fillStop x.1 x.2.rows with
    | some i =>
      if x.2.writing ∧ !x.2.stopped ∧ i ≤ x.2.asked then
        { d with fills := d.fills.map (fun (y : Fill) => if y.owner = x.2.owner then { y with stopped := true } else y) }.send t (P.carter s)
          K.CA_NO_CIRCUIT Cls.CONTAINED 0 0
      else d
    | none => d) d

/-- Carter of a span requests every row that it may, the fill that it took first before the others. `fuel` bounds the requests. -/
def Dev.carterAsk (d : Dev) (t s : Nat) : Nat → Dev
  | 0 => d
  | fuel + 1 =>
    let fs := d.spanFills s
    let ahead := (fs.map (fun x => x.2.ahead)).sum
    match if d.isSealed s then none else fs.find? (fun x => d.mayAsk s ahead x.1 x.2 != 0) with
    | none => d.stopFills t s
    | some (w, f) => (d.askFill t s w f (d.mayAsk s ahead w f)).carterAsk t s fuel

/-- A request for each row that Carter may ask for at one time. -/
def askFuel : Nat := 2 ^ 19

/-- FILL_BEGIN: the fill begins writing: what waits in the staging buffer is written, what was pre-read into the span cache is read
there, and the rest is requested as R577 allows (R649, R650, R665). -/
def Dev.fillBegin (d : Dev) (t w : Nat) : Dev :=
  match d.winDecl w, d.fillOf w with
  | some win, some f =>
    if f.writing || !d.fillReady win f || d.isSealed win.span then d
    else
      let s := win.span
      let p := P.carter s
      let d := d.putFill w (fun x => { x with writing := true, staged := [], again := [] })
      let d := d.wri p w F.CA_WIN_STAT.FILLING 1
      let d := if f.restart then d.wri p w F.CA_WIN_STAT.DELIV 0 else d
      let c := d.carter s
      let d := d.putCarter s { c with released := c.released ++ [(t, f.rows)] }
      let d := f.staged.foldl (fun d x => d.fillWrite win f.rows x.1 x.2) d
      let d := f.again.foldl (fun d i =>
        d.launch t (d.carterReq t s f.owner 0 (f.src + 512 * i) (win.first + i)) (fun d =>
          d.fillData f.owner (win.first + i) (List.replicate 512 0))) d
      d.carterAsk t s askFuel
  | _, _ => d

/-- FILL_COUNTED: every row has been written (R32, R662, R679). -/
def Dev.fillCounted (d : Dev) (w : Nat) : Dev :=
  match d.winDecl w, d.fillOf w with
  | some win, some f =>
    if !f.writing || f.stopped || decide (f.came < f.rows) || !d.ownerIdle f.owner || d.fillOnWay win.span win.first f.rows then d
    else
      let p := P.carter win.span
      let n := (d.rdi p w F.CA_WIN_STAT.DELIV + 1) % 2 ^ 32
      let d := (d.wri p w F.CA_WIN_STAT.DELIV n).wri p w F.CA_WIN_STAT.FILLING 0
      let d := { d with fills := d.fills.erase f }
      match f.failure with
      | some det => d.endOwner f.owner St.TIER_ERROR det
      | none => d.endOwner f.owner St.OK n
  | _, _ => d

/-! ### The lead (R667 to R671) -/

/-- R668: a change of the lead writes one entry of the adjustment log. -/
def Dev.setLead (d : Dev) (t s need reason latP rate : Nat) : Dev :=
  let p := P.carter s
  let old := d.rd p F.CA_LEAD.ROWS
  if need = old then d
  else
    let total := d.rd p F.CA_ADJ_SEL.TOTAL
    let e := total % 64
    let d := d.wri p e F.CA_ADJ_DATA0.TIME t
    let d := d.wri p e F.CA_ADJ_DATA0.OLD old
    let d := d.wri p e F.CA_ADJ_DATA1.NEW need
    let d := d.wri p e F.CA_ADJ_DATA1.REASON reason
    let d := d.wri p e F.CA_ADJ_DATA1.LAT_P latP
    let d := d.wri p e F.CA_ADJ_DATA2.RATE rate
    (d.wr p F.CA_ADJ_SEL.TOTAL (total + 1)).wr p F.CA_LEAD.ROWS need

/-- ceil(a / b). -/
def ceilDiv (a b : Nat) : Nat := (a + b - 1) / b

/-- The lead that R667 computes, with its reason (0 ADAPT, 1 STALL, 3 BOUND); `none`: no change. -/
def leadNeed (lead lo hi released period latP stallNs : Nat) (far : Bool) : Option (Nat × Nat) :=
  let need := ceilDiv (released * latP * 5) (period * 4) + 256
  let r : Nat × Nat := if stallNs > 0 ∧ lead + lead / 4 > need then (lead + lead / 4, 1) else (need, 0)
  let need := min (max r.1 lo) hi
  let need := if far then min need 8192 else need
  let reason := if need ≠ lead ∧ (lead < lo ∨ lead > hi) then 3 else r.2
  if (max need lead - min need lead) * 8 > lead ∨ reason = 3 then some (need, reason) else none

/-- The sum of what is stamped before `lim`. -/
def sumBefore (lim : Nat) (l : List (Nat × Nat)) : Nat := ((l.filter (fun x => decide (x.1 < lim))).map (·.2)).sum

/-- LEAD_ADAPT at the end of the period [since, since + CA_ADAPT_PERIOD) (R19, R20, R667); a far source's lead is at most 8,192, an
override too (R665). -/
def Dev.leadAdapt (d : Dev) (t s : Nat) : Dev :=
  let p := P.carter s
  let c := d.carter s
  let period := d.rd p F.CA_ADAPT_PERIOD.MICROS * 1000
  let lim := c.since + period
  if s > 7 ∨ t < lim then d
  else
    let released := sumBefore lim c.released
    let far := c.tier != 0
    let latP := (c.avg.getD c.tier 0 + 4 * c.dev.getD c.tier 0).toNat
    let fix := d.rd p F.CA_LEAD_FIX.ROWS
    let rate := released * 1000000 / period
    let later (l : List (Nat × Nat)) : List (Nat × Nat) := l.filter (fun x => decide (lim ≤ x.1))
    let d := d.putCarter s { c with released := later c.released, stallNs := later c.stallNs, since := lim }
    let d := d.wr p F.CA_LEAD.LAT_P latP
    if fix ≠ 0 then d.setLead t s (if far then min fix 8192 else fix) 2 latP rate
    else if released = 0 then d
    else
      match leadNeed (d.rd p F.CA_LEAD.ROWS) (d.rd p F.CA_LEAD_MIN.ROWS) (d.rd p F.CA_LEAD_MAX.ROWS) released period latP
          (sumBefore lim c.stallNs) far with
      | some (need, reason) => d.setLead t s need reason latP rate
      | none => d

/-! ### Stalls (R683 to R686) -/

/-- The oldest outstanding request of a span. -/
def Dev.oldestReq (d : Dev) (s : Nat) : Option Req := d.reqs.find? (fun r => isSpanPath r.path && spanOf r.path == s)

/-- The cause of a stall whose oldest outstanding request the state shows to be held, behind a retrain or reissued; `none` where it
shows none of these, and the cause is WAIT, RETRY, CREDIT or CODEC (R685). -/
def Dev.stallCause (d : Dev) (r : Req) : Option Nat :=
  if r.held then some 5
  else if r.tier ≤ 1 ∧ d.keyRetrains r.taddr then some 2
  else if r.reissues ≠ 0 then some 4
  else none

/-- STALL_START: a stall of the span begins under the tier and cause of its oldest outstanding request. -/
def Dev.stallStart (d : Dev) (t s tier cause addr : Nat) : Dev :=
  match d.oldestReq s with
  | none => d
  | some r =>
    let fits := match d.stallCause r with
      | some c => cause == c
      | none => [0, 1, 3, 6].contains cause
    if s > 7 ∨ d.stalls.any (fun x => x.span == s) ∨ !d.stallHolds t s ∨ estTier r.tier ≠ tier ∨ r.addr ≠ addr ∨ !fits then d
    else
      let p := P.carter s
      let i := tier * 8 + cause
      { d.countTo p i F.CA_STALL_EVT.COUNT (d.rdi p i F.CA_STALL_EVT.COUNT + 1) with
        stalls := d.stalls ++ [({ span := s, tier := tier, cause := cause, addr := addr, since := t } : Stall)] }

/-- CA_STALL: a stall reaches CA_STALL_LIMIT. -/
def Dev.caStall (d : Dev) (t s tier cause : Nat) : Dev :=
  match d.stalls.find? (fun x => x.span == s && x.tier == tier && x.cause == cause) with
  | none => d
  | some x =>
    let p := P.carter s
    if x.reported ∨ t < x.since + d.rd p F.CA_STALL_LIMIT.MICROS * 1000 then d
    else { d with stalls := d.stalls.map (fun (y : Stall) => if y.span = s then { y with reported := true } else y) }.send t p
      K.CA_STALL Cls.DEFERRED (match d.oldestReq s with | some r => r.addr | none => x.addr) (tier + cause * 4)

/-! ### The commands -/

def execStream (ring : Nat) (s : State) (ctl : List ReqOutcome := []) := upd s (fun d => d.withEnv ctl [] (fun d => d.carterCmd s.now ring 3))
def execFetch (ring : Nat) (s : State) (ctl : List ReqOutcome := []) := upd s (fun d => d.withEnv ctl [] (fun d => d.carterCmd s.now ring 5))
def execOffload (ring : Nat) (s : State) (ctl : List ReqOutcome := []) := upd s (fun d => d.withEnv ctl [] (fun d => d.carterCmd s.now ring 4))
def execFillBegin (w : Nat) (s : State) (ctl : List ReqOutcome := []) := work s (fun d => d.withEnv ctl [] (fun d => d.fillBegin s.now w))
def execFillCounted (w : Nat) (s : State) := work s (fun d => d.fillCounted w)
def execLeadAdapt (span : Nat) (s : State) := upd s (fun d => d.leadAdapt s.now span)
def execStallStart (span tier cause : Nat) (a : Word) (s : State) :=
  upd s (fun d => d.stallStart s.now span tier cause a.toNat)
def execCaStall (span tier cause : Nat) (s : State) := upd s (fun d => d.caStall s.now span tier cause)

end Sys2Proof.Machine
end

