-- ==== Sys2Proof/Machine/Rows.lean ====
section
/-!
DEFINITION. Sys2Proof/Machine/Rows.lean: what the read port and the write port of a scratchpad tile serve (R412 to R430): row
requests and row writes of the fabric, the debug aperture (R445 to R449), Carter's requests for rows of ONCHIP pages, and rows of
remote writes (R454 to R459).
-/

namespace Sys2Proof.Machine

/-! ### Requests without a circuit -/

/-- The span row address of Carter's request for an ONCHIP page, and its tile. -/
def Req.row (r : Req) : Nat := r.taddr % 2 ^ 28 / 512
def Req.tile (r : Req) : Nat := spPath (r.taddr / 2 ^ 28) (tileOfRow r.row)

/-- Carter's oldest outstanding request for a row of a tile; nothing enters or leaves a sealed span (R375). -/
def Dev.carterRow (d : Dev) (p : Nat) (write : Bool) : Option Req :=
  d.reqs.find? (fun r => r.tier == 4 && r.kind != 6 && r.write == write && !r.held && r.tile == p && !d.isSealed (spanOf p) &&
    !d.isSealed (spanOf r.path))

/-- The span row address of a remote write's row number `i`. -/
def WinWrite.rowAt (w : WinWrite) (i : Nat) : Nat := (w.base + w.offset / 512 + i) % 2 ^ 19
def WinWrite.rows (w : WinWrite) : Nat := w.data.length / 512

/-- The rows of an accepted remote write that are still to be written. -/
def WinWrite.rowsLeft (w : WinWrite) : List Nat := if w.near then [] else (List.range w.rows).filter (fun i => !w.rowsDone.contains i)

/-- The oldest accepted remote write with a row for a tile, and the row's number; rows do not enter a sealed span (R375). -/
def Dev.winRow (d : Dev) (p : Nat) : Option (WinWrite × Nat) :=
  if d.isSealed (spanOf p) then none
  else d.winWrites.findSome? (fun w =>
    if w.span = spanOf p ∧ !w.held then (w.rowsLeft.find? (fun i => tileOfRow (w.rowAt i) == tileNo p)).map (fun i => (w, i)) else none)

/-! ### The classes of ready requests (R427) -/

/-- Wide and narrow ports with a ready request at the read port of a tile. -/
def Dev.readClasses (d : Dev) (p : Nat) : List Nat × List Nat :=
  let rs := d.readyReads p
  ((rs.filter (fun r => r.2.1)).map (·.1),
   (rs.filter (fun r => !r.2.1)).map (·.1) ++ (if (d.apRead p).isSome then [aperturePort] else []) ++
     (if (d.carterRow p false).isSome then [carterPort] else []))

/-- The class of a row write that comes from an I/O tile: wide to a row that the plan declares for a STREAM window. -/
def Dev.ioRowWide (d : Dev) (p row : Nat) : Bool := d.rowDeclared (spanOf p) row

/-- The ports with a ready request at the write port of a tile, each with its class. -/
def Dev.writeReqs (d : Dev) (p : Nat) : List (Nat × Bool) :=
  (d.writeGroups p).map (fun x =>
    let c := x.1
    (c.dstPort, isMePos c.srcPos ||
      (isIoPos c.srcPos && d.ioRowWide p (((d.circ c.key).queue.headD ⟨0, false, 0, 0, 0, 0, []⟩).row)))) ++
  (if (d.apWrite p).isSome then [(aperturePort, false)] else []) ++
  (match d.carterRow p true with
   | some r => [(carterPort, d.ioRowWide p r.row)]
   | none => []) ++
  (match d.winRow p with
   | some (w, i) => [(windowPort, d.ioRowWide p (w.rowAt i))]
   | none => [])

/-- The write port of a tile has a request (R414, R423). -/
def Dev.writeReady (d : Dev) (p : Nat) : Bool := d.writeReqs p != []

/-! ### ROW_READ -/

/-- Carter's read of a row of an ONCHIP page ends with the row's contents. -/
def Dev.carterRowRead (d : Dev) (t p bits : Nat) (r : Req) : Dev :=
  let e := d.fabricRead t (spanOf p) r.row none bits
  e.2.completeReq t r ((e.1.drop (r.taddr % 512)).take r.len)

/-- The row request of an out-port is answered with four flits (R419). -/
def Dev.serveRowReq (d : Dev) (t p bits : Nat) (r : RowReq) : Dev :=
  match d.circuit r.circ with
  | none => d
  | some c =>
    let d := { d with spReqs := Tbl.set noReqs d.spReqs p ((Tbl.get noReqs d.spReqs p).erase r) }
    let e := d.fabricRead t (spanOf p) (tileNo p * 2 ^ 14 + r.row) (some c.srcPort) bits
    e.2.offer c (answerFlits (tileNo p * 2 ^ 14 + r.row) e.1)

/-- ROW_READ (R419 to R421, R427 to R430): the tile serves one ready request by arbitration; `bits` bits of the word read are in
error. -/
def Dev.rowRead (d : Dev) (t p bits : Nat) : Dev :=
  let rs := d.readyReads p
  let q := d.readClasses p
  let a := d.arbitrate p 0 q.1 q.2
  let d := a.2
  match a.1 with
  | none => d
  | some (port, stolen) =>
    let d := if stolen then d.count p F.SP_NARROW_CNT.COUNT 1 else d
    if port = aperturePort then
      match d.apRead p with
      | none => d
      | some x => d.apServeRead t bits x
    else if port = carterPort then
      match d.carterRow p false with
      | none => d
      | some r => d.carterRowRead t p bits r
    else
      match rs.find? (fun r => r.1 == port) with
      | none => d
      | some (_, _, r) => d.serveRowReq t p bits r

/-! ### ROW_WRITE -/

/-- Carter's write of part of a row of an ONCHIP page: the whole row is written, its other bytes as they are (R411; log entry 7). -/
def Dev.carterRowWrite (d : Dev) (t p : Nat) (r : Req) : Dev :=
  (d.fabricWrite t (spanOf p) r.row none (mergeRow (d.row (spanOf p) r.row) (r.taddr % 512) r.data)).completeReq t r []

/-- A list with the first occurrence of an entry replaced. -/
def replaceFirst {α : Type} [DecidableEq α] (a b : α) : List α → List α
  | [] => []
  | x :: xs => if x = a then b :: xs else x :: replaceFirst a b xs

/-- One row of an accepted remote write is written. -/
def Dev.winRowWrite (d : Dev) (t : Nat) (w : WinWrite) (i : Nat) : Dev :=
  let d := d.fabricWrite t w.span (w.rowAt i) none ((w.data.drop (512 * i)).take 512)
  { d with winWrites := replaceFirst w { w with rowsDone := i :: w.rowsDone } d.winWrites }

/-- The first group of a write stream is written, or dropped and reported where it breaks the framing rule (R422 to R425). -/
def Dev.serveGroup (d : Dev) (t p : Nat) (c : Circuit) (len : Nat) (ok : Bool) : Dev :=
  let fs := (d.circ c.key).queue.take len
  let d := d.consume c len
  if ok then d.fabricWrite t (spanOf p) ((fs.headD ⟨0, false, 0, 0, 0, 0, []⟩).row) (some c.dstPort) (fs.flatMap (·.payload))
  else d.setErr t p 17 K.SP_FRAMING Cls.CONTAINED 0 0

/-- ROW_WRITE (R422 to R425, R427 to R430): the tile serves one ready request by arbitration. -/
def Dev.rowWrite (d : Dev) (t p : Nat) : Dev :=
  let cs := d.writeGroups p
  let q := d.writeReqs p
  let a := d.arbitrate p 2 ((q.filter (fun x => x.2)).map (·.1)) ((q.filter (fun x => !x.2)).map (·.1))
  let d := a.2
  match a.1 with
  | none => d
  | some (port, stolen) =>
    let d := if stolen ∧ (cs.find? (fun x => x.1.dstPort == port)).all (fun x => x.2.2) then d.count p F.SP_NARROW_CNT.COUNT 1 else d
    if port = aperturePort then
      match d.apWrite p with
      | none => d
      | some x => d.apServeWrite x
    else if port = carterPort then
      match d.carterRow p true with
      | none => d
      | some r => d.carterRowWrite t p r
    else if port = windowPort then
      match d.winRow p with
      | none => d
      | some (w, i) => d.winRowWrite t w i
    else
      match cs.find? (fun x => x.1.dstPort == port) with
      | none => d
      | some (c, len, ok) => d.serveGroup t p c len ok

/-- The rows of a remote write whose tiles' write ports have no request but those of remote writes are written at once, each as the
request that its port serves; the others wait for their ROW_WRITE. -/
def Dev.winRowsNow (d : Dev) (t : Nat) (w : WinWrite) : List Nat → WinWrite × Dev
  | [] => (w, d)
  | i :: rest =>
    let p := spPath w.span (tileOfRow (w.rowAt i))
    if d.clocked ∧ !d.isSealed w.span ∧ (d.writeReqs p).all (fun x => x.1 == windowPort) then
      let d := (d.markServed p (if d.ioRowWide p (w.rowAt i) then 2 else 3) windowPort).winRowWrite t w i
      d.winRowsNow t { w with rowsDone := i :: w.rowsDone } rest
    else d.winRowsNow t w rest

/-- SP_ECC_WRITEBACK (R414): in a CCLK in which the tile's write port has no request, the oldest row of the tile that waits
for it is written back with the contents it holds; no tag changes. -/
def Dev.spEccWriteback (d : Dev) (p : Nat) : Dev :=
  if d.writeReady p then d
  else
    match d.spFix.find? (fun x => x / 2 ^ 14 == p) with
    | none => d
    | some x => { d with spFix := d.spFix.filter (fun y => y != x) }

/-! ### The debug aperture (R445 to R449) -/

/-- Does the tile serve an aperture access before anything else: no request waits at its read port, and no aperture access
at the tile? -/
def Dev.apFree (d : Dev) (p : Nat) : Bool := d.readClasses p == ([], []) && d.apQ.all (fun a => aperturePath a.off != p)

/-- APERTURE_READ (R445 to R447, R449, R50): a narrow read, served at once where the read port has no other request, else by
a later ROW_READ (log entry 91). -/
def Dev.apertureRead (d : Dev) (t off size bits : Nat) : Dev :=
  let p := aperturePath off
  let a : ApReq := { off := off, size := size }
  if !(apertureOk off size && d.apertureOpen p) then { d with rdata := 0 }
  else if d.apFree p then (d.markServed p 1 aperturePort).apServeRead t bits a
  else { d with apQ := d.apQ ++ [a] }

/-- APERTURE_WRITE (R445 to R449): a narrow read of the row, then a narrow write of the merged row, each arbitrated as a
request of its own: served at once where its port has no other request, else by a later ROW_READ and ROW_WRITE. -/
def Dev.apertureWrite (d : Dev) (t off size bits : Nat) (v : BitVec 512) : Dev :=
  let p := aperturePath off
  let a : ApReq := { off := off, size := size, data := some (bytesOfNat size v.toNat) }
  if !(apertureOk off size && d.apertureOpen p) then d
  else
    let first := d.apFree p
    let free := !d.writeReady p
    let d := { d with apQ := d.apQ ++ [a] }
    if !first then d
    else
      let d := (d.markServed p 1 aperturePort).apServeRead t bits a
      if free then
        match d.apWrite p with
        | none => d
        | some x => (d.markServed p 3 aperturePort).apServeWrite x
      else d

/-! ### The commands -/

def execRowRead (p bits : Nat) (s : State) := work s (fun d => d.rowRead s.now p bits)
def execRowWrite (p : Nat) (s : State) := work s (fun d => d.rowWrite s.now p)
def execSpEccWriteback (p : Nat) (s : State) := work s (fun d => d.spEccWriteback p)
def execApertureRead (off size : Nat) (s : State) (bits : Nat := 0) := upd s (fun d => d.apertureRead s.now off size bits)
def execApertureWrite (off size : Nat) (v : BitVec 512) (s : State) (bits : Nat := 0) := upd s (fun d => d.apertureWrite s.now off size bits v)

end Sys2Proof.Machine
end

