-- ==== Sys2Proof/Machine/Clerk.lean ====
section
/-!
DEFINITION. Sys2Proof/Machine/Clerk.lean: clerks (spec 07): their registers and exceptions (R527 to R530), row moves
(R503 to R508, R518), the Xtlz instructions (R509 to R526), GO and STOP (R537).
-/

namespace Sys2Proof.Machine

/-! ### Registers and retirement -/

def ClerkSt.rx (c : ClerkSt) (i : Nat) : Word := if i = 0 then 0 else Tbl.get zeroXWord c.x i
def ClerkSt.wx (c : ClerkSt) (i : Nat) (v : Word) : ClerkSt :=
  if i = 0 then c else { c with x := Tbl.set zeroXWord c.x i v }

/-- CSRs at reset: zero; vtype holds vill (log entry 24). -/
def csrReset (n : Nat) : Word := if n = 0xC21 then 0x8000000000000000 else 0
def ClerkSt.rcsr (c : ClerkSt) (n : Nat) : Nat := (Tbl.get csrReset c.csr n).toNat
def ClerkSt.wcsr (c : ClerkSt) (n v : Nat) : ClerkSt := { c with csr := Tbl.set csrReset c.csr n (BitVec.ofNat 64 v) }

/-- An instruction of `len` bytes has executed. -/
def ClerkSt.retire (c : ClerkSt) (len : Nat) : ClerkSt :=
  ({ c with pc := c.pc + BitVec.ofNat 64 len }).wcsr 0xB02 (c.rcsr 0xB02 + 1)

/-- Does a clerk execute: RUNNING, not HALTED, its unit ON? -/
def Dev.clerkReady (d : Dev) (p : Nat) : Bool :=
  kindOf p == some .clerk && d.on p && d.flag p F.GC_STAT.RUNNING && !d.flag p F.GC_STAT.HALTED

/-- The instruction at the pc: its bits and length, or `none` where the fetch leaves instruction memory (R499). -/
def ClerkSt.fetch (c : ClerkSt) : Option (Nat × Nat) :=
  let a := c.pc.toNat
  if a + 2 > 131072 then none
  else
    let lo := natOfBytes (Tbl.getN zeroByte c.itcm a 2)
    if lo % 4 ≠ 3 then some (lo, 2)
    else if a + 4 > 131072 then none
    else some (natOfBytes (Tbl.getN zeroByte c.itcm a 4), 4)

/-! ### Exceptions (R527 to R530) -/

/-- The trap vector: BASE, and in vectored mode BASE + 4 × cause for an interrupt. -/
def ClerkSt.vector (c : ClerkSt) (cause : Nat) (interrupt : Bool) : Word :=
  let t := c.rcsr 0x305
  BitVec.ofNat 64 (t / 4 * 4 + (if interrupt && t % 4 == 1 then 4 * cause else 0))

/-- Taking an exception or interrupt: mepc, mcause, mtval, mstatus and the pc, as RISC-V defines. -/
def ClerkSt.enter (c : ClerkSt) (cause tval : Nat) (interrupt : Bool) : ClerkSt :=
  let ms := c.rcsr 0x300
  let c := c.wcsr 0x341 c.pc.toNat
  let c := c.wcsr 0x342 (cause + (if interrupt then 2 ^ 63 else 0))
  let c := c.wcsr 0x343 tval
  let c := c.wcsr 0x300 (if bitAt ms 3 then 0x80 else 0)
  { c with pc := c.vector cause interrupt, cwait := none, reservation := none }

/-- The return from a trap: MRET. -/
def ClerkSt.mret (c : ClerkSt) : ClerkSt :=
  let ms := c.rcsr 0x300
  { c.wcsr 0x300 (0x80 + (if bitAt ms 7 then 8 else 0)) with pc := BitVec.ofNat 64 (c.rcsr 0x341) }

/-- An exception of a clerk: halt and report under TRAP_HALT, else vector (R528, R529). -/
def Dev.clerkExc (d : Dev) (t p cause tval : Nat) : Dev :=
  let c := d.clerk p
  if d.flag p F.GC_CTL.TRAP_HALT then
    let d := d.raiseBit p F.GC_FAULT.VALID 0
    let d := d.wr p F.GC_FAULT.CAUSE cause
    let d := d.wr p F.GC_FAULT.XCODE (if cause = 24 then tval else 0)
    let d := d.wr p F.GC_FAULT.PC c.pc.toNat
    let d := ((d.wr p F.GC_STAT.HALTED 1).wr p F.GC_STAT.RUNNING 0).wr p F.GC_STAT.WAITING 0
    d.setErr t p 16 K.GC_EXCEPTION Cls.CONTAINED 0 0
  else (d.putClerk p (c.enter cause tval false)).wr p F.GC_STAT.WAITING 0

/-- The Tollhouse trap to a clerk (R530), whatever MIE holds; mtval is the starting slot (R868). -/
def Dev.clerkNmi (d : Dev) (p slot : Nat) : Dev := (d.putClerk p ((d.clerk p).enter 0x18 slot true)).wr p F.GC_STAT.WAITING 0

/-- An Xtlz fault (R527). -/
def Dev.xtlz (d : Dev) (t p code : Nat) : Dev := d.clerkExc t p 24 code

/-! ### Encodings (R509) -/

def rdOf (w : Nat) : Nat := bitsOf w 7 5
def rs1Of (w : Nat) : Nat := bitsOf w 15 5
def rs2Of (w : Nat) : Nat := bitsOf w 20 5
def funct3Of (w : Nat) : Nat := bitsOf w 12 3
def funct7Of (w : Nat) : Nat := bitsOf w 25 7

/-- The Xtlz instruction of a word, by its row in R509 (0 RLD, 1 RST, 2 RFENCE, 3 LFADD, 4 LFREAD, 5 LFSET, 6 CWAIT,
7 DPOST, 8 DPOLL, 9 EFENCE, 10 DONE); `none` for every word that breaks the table. -/
def tzKind (w : Nat) : Option Nat :=
  if w % 128 ≠ 0x0B then none
  else
    let rd0 := rdOf w == 0
    let r10 := rs1Of w == 0
    let r20 := rs2Of w == 0
    match funct3Of w, funct7Of w with
    | 0, f => if f < 4 && rd0 then some 0 else none
    | 1, f => if f < 4 && rd0 then some 1 else none
    | 2, 0 => if rd0 && r10 && !bitAt w 24 then some 2 else none
    | 3, 0 => some 3
    | 3, 1 => if r20 then some 4 else none
    | 3, 2 => if rd0 then some 5 else none
    | 4, 0 => some 6
    | 5, 0 => if r20 then some 7 else none
    | 5, 1 => if r20 then some 8 else none
    | 6, 0 => if r10 && r20 then some 9 else none
    | 6, 1 => if rd0 && r10 && r20 then some 10 else none
    | _, _ => none

/-- The clerk is ready and stands at an Xtlz instruction of the given row: its word. -/
def Dev.tzAt (d : Dev) (p kind : Nat) : Option Nat :=
  if d.clerkReady p then
    match (d.clerk p).fetch with
    | some (w, 4) => if tzKind w = some kind then some w else none
    | _ => none
  else none

/-- The instruction completes: rd takes a value and the pc advances; it waits no longer. -/
def Dev.tzDoneWith (d : Dev) (p rd v : Nat) : Dev :=
  let c := (d.clerk p).wx rd (BitVec.ofNat 64 v)
  (d.putClerk p { c.retire 4 with cwait := none }).wr p F.GC_STAT.WAITING 0

def Dev.tzWaits (d : Dev) (p : Nat) : Dev := d.wr p F.GC_STAT.WAITING 1

/-! ### Row moves (R503 to R508) -/

/-- The read circuit from a row's tile into a clerk's in-port, and the circuit from its out-port to the row's tile. -/
def Dev.rldCircuit (d : Dev) (p port row : Nat) : Option Circuit :=
  (d.circsInto (posOf p) port).find? (fun c => c.kind == 1 && c.srcPos == posOf (spPath (spanOf p) (tileOfRow row)))
def Dev.rstCircuit (d : Dev) (p port row : Nat) : Option Circuit :=
  (d.circFrom (posOf p) port).filter (fun c => c.kind != 1 && c.dstPos == posOf (spPath (spanOf p) (tileOfRow row)))

/-- Row requests of a clerk's moves that wait for free places are sent in order (R347). -/
def Dev.sendMoves (d : Dev) (p : Nat) : Dev :=
  (d.clerk p).moves.foldl (fun d m =>
    if m.sent then d
    else
      match d.circuit m.circ with
      | none => d
      | some c =>
        let earlier := ((d.clerk p).moves.takeWhile (fun y => y != m)).any (fun y => y.port == m.port && !y.store && !y.sent)
        if d.portRoom c.dstPos c.dstPort < 4 || earlier || d.isSealed (posSpan c.dstPos) then d
        else
          let d := d.requestRow c m.row
          d.putClerk p { d.clerk p with moves := (d.clerk p).moves.map (fun y => if y = m then { y with sent := true } else y) }) d

/-- May a row move of a slot issue (R506, R507)? -/
def ClerkSt.mayMove (c : ClerkSt) (slot : Nat) : Bool := decide (c.moves.length < 16) && !c.moves.any (fun m => m.slot == slot)

/-- TZ.RLD. -/
def Dev.tzRld (d : Dev) (t p : Nat) : Dev :=
  match d.tzAt p 0 with
  | none => d
  | some w =>
    let c := d.clerk p
    let row := (c.rx (rs1Of w)).toNat % 2 ^ 19
    let slot := (c.rx (rs2Of w)).toNat % 16
    let port := funct7Of w
    match d.rldCircuit p port row with
    | none => d.xtlz t p 1
    | some r =>
      if !c.mayMove slot then d
      else
        let c := { c.retire 4 with moves := c.moves ++ [({ slot := slot, row := row, port := port, store := false, circ := r.key, sent := false } : Move)] }
        (d.putClerk p c).sendMoves p

/-- TZ.RST. -/
def Dev.tzRst (d : Dev) (t p : Nat) : Dev :=
  match d.tzAt p 1 with
  | none => d
  | some w =>
    let c := d.clerk p
    let row := (c.rx (rs1Of w)).toNat % 2 ^ 19
    let slot := (c.rx (rs2Of w)).toNat % 16
    let port := funct7Of w
    match d.rstCircuit p port row with
    | none => d.xtlz t p 1
    | some r =>
      if !c.mayMove slot then d
      else
        let bytes := Tbl.getN zeroByte c.stage (512 * slot) 512
        let c := { c.retire 4 with moves := c.moves ++ [({ slot := slot, row := row, port := port, store := true, circ := r.key } : Move)] }
        (d.putClerk p c).offer r (rowFlits row bytes)

/-- ROW_MOVE_DONE (R505): the first outstanding move of its circuit completes: a load when its four answer flits are in
the queue, a store when all four credits have returned. -/
def Dev.rowMoveDone (d : Dev) (p slot : Nat) : Dev :=
  let c := d.clerk p
  match c.moves.find? (fun m => m.slot == slot) with
  | none => d
  | some m =>
    let mine := c.moves.filter (fun y => y.circ == m.circ)
    match d.circuit m.circ with
    | none => d
    | some k =>
      if mine.head? ≠ some m then d
      else
        let x := d.circ m.circ
        if m.store then
          (if x.ready.length + x.inFlight.length + x.queue.length + x.back ≤ 4 * (mine.length - 1) then
            d.putClerk p { c with moves := c.moves.erase m }
          else d)
        else if m.sent ∧ x.queue.length ≥ 4 then
          let bytes := (x.queue.take 4).flatMap (·.payload)
          let d := d.consume k 4
          (d.putClerk p { c with moves := c.moves.erase m, stage := Tbl.setAll zeroByte c.stage (512 * slot) bytes }).sendMoves p
        else d

/-- TZ.RFENCE (R510). -/
def Dev.tzRfence (d : Dev) (p : Nat) : Dev :=
  match d.tzAt p 2 with
  | none => d
  | some w =>
    if (d.clerk p).moves.any (fun m => bitAt (rs2Of w) m.port) then d.tzWaits p else d.tzDoneWith p 0 0

/-- TZ.EFENCE (R517). -/
def Dev.tzEfence (d : Dev) (p : Nat) : Dev :=
  match d.tzAt p 9 with
  | none => d
  | some w =>
    let c := d.clerk p
    if c.moves ≠ [] then d.tzWaits p
    else
      let v := d.epoch (spanOf p) + c.discarded % 2 ^ 32 * 2 ^ 32
      (d.putClerk p { c with discarded := 0 }).tzDoneWith p (rdOf w) v

/-! ### Ledger instructions (R511, R512) -/

def Dev.tzLfadd (d : Dev) (t p : Nat) : Dev :=
  match d.tzAt p 3 with
  | none => d
  | some w =>
    let c := d.clerk p
    let n := (c.rx (rs2Of w)).toNat % 2 ^ 16
    if n = 0 then d.xtlz t p 2
    else
      let r := d.ledgerFadd (spanOf p) ((c.rx (rs1Of w)).toNat % 256) n
      r.2.tzDoneWith p (rdOf w) r.1

def Dev.tzLfread (d : Dev) (p : Nat) : Dev :=
  match d.tzAt p 4 with
  | none => d
  | some w =>
    let r := d.ledgerFread (spanOf p) (((d.clerk p).rx (rs1Of w)).toNat % 256)
    r.2.tzDoneWith p (rdOf w) r.1

def Dev.tzLfset (d : Dev) (p : Nat) : Dev :=
  match d.tzAt p 5 with
  | none => d
  | some w =>
    let c := d.clerk p
    let v := (c.rx (rs2Of w)).toNat
    (d.ledgerFset (spanOf p) ((c.rx (rs1Of w)).toNat % 256) (v % 2 ^ 32) (v / 2 ^ 32)).tzDoneWith p 0 0

/-! ### TZ.CWAIT (R513 to R515) -/

def Dev.tzCwait (d : Dev) (t p : Nat) : Dev :=
  match d.tzAt p 6 with
  | none => d
  | some w =>
    let c := d.clerk p
    let a := (c.rx (rs1Of w)).toNat
    let kind := a % 4
    let idx := bitsOf a 16 10
    if kind = 0 ∨ kind = 3 then d.xtlz t p 2
    else if guardMet (d.guardCount kind idx) ((c.rx (rs2Of w)).toNat % 2 ^ 16) then d.tzDoneWith p (rdOf w) 0
    else (d.putClerk p { c with cwait := some (kind, idx), cwaitAt := if c.cwait.isSome then c.cwaitAt else d.cclk / 15 }).tzWaits p

/-- CWAIT_TIMEOUT (R514, R538): the wait has lasted tzwlim CCLK. -/
def Dev.cwaitTimeout (d : Dev) (p : Nat) : Dev :=
  match d.tzAt p 6 with
  | none => d
  | some w =>
    let c := d.clerk p
    match c.cwait with
    | none => d
    | some (kind, idx) =>
      if c.rcsr 0x7C0 = 0 ∨ d.cclk / 15 < c.cwaitAt + c.rcsr 0x7C0 ∨ guardMet (d.guardCount kind idx) ((c.rx (rs2Of w)).toNat % 2 ^ 16) then d
      else d.tzDoneWith p (rdOf w) 1

/-! ### Sub-dockets (R520 to R525) -/

/-- The lowest free entry of a span's queue of 16. -/
def Dev.freeSub (d : Dev) (s : Nat) : Option Nat := (List.range 16).find? (fun e => !d.subs.any (fun b => b.span == s && b.entry == e))

/-- Is a sub-docket refused (R520, R527 BAD_DOCKET)? -/
def subBad (x : Docket) : Bool :=
  !([0, 3, 4, 5, 6].contains x.opcode) || reservedAt x (argMask x) != [] ||
  (x.opcode == 6 && (x.field 0x20 1 == 3 || bitAt (x.field 0x23 1) 0))

/-- TZ.DPOST (R520, R521, R525). -/
def Dev.tzDpost (d : Dev) (t p : Nat) : Dev :=
  match d.tzAt p 7 with
  | none => d
  | some w =>
    let c := d.clerk p
    let a := (c.rx (rs1Of w)).toNat
    match c.part with
    | none => d.xtlz t p 4
    | some q =>
      if a % 64 ≠ 0 then d.clerkExc t p 4 a
      else if a < 0x100000 ∨ a + 64 > 0x110000 then d.clerkExc t p 5 a
      else
        let bytes := Tbl.getN zeroByte c.dtcm (a - 0x100000) 64
        if subBad { n := 0, bytes := bytes, snap := [], stage := .fetched } then d.xtlz t p 3
        else
          match d.freeSub (spanOf p) with
          | none => d.tzDoneWith p (rdOf w) (2 ^ 64 - 1)
          | some e =>
            { d with subs := d.subs ++ [({ span := spanOf p, entry := e, clerk := p, parent := q, bytes := bytes, stage := .fetched } : Sub)] }.tzDoneWith p (rdOf w) e

/-- TZ.DPOLL (R523). -/
def Dev.tzDpoll (d : Dev) (t p : Nat) : Dev :=
  match d.tzAt p 8 with
  | none => d
  | some w =>
    let e := ((d.clerk p).rx (rs1Of w)).toNat % 16
    match d.subs.find? (fun b => b.span == spanOf p && b.entry == e && b.clerk == p) with
    | none => d.xtlz t p 5
    | some b =>
      match b.stage with
      | .ended st _ => { d with subs := d.subs.filter (fun x => !(x.span == spanOf p && x.entry == e)) }.tzDoneWith p (rdOf w) (2 ^ 63 + st)
      | _ => d.tzDoneWith p (rdOf w) 0

/-! ### Starting and stopping -/

/-- The clerk idles with its registers kept. -/
def Dev.clerkIdle (d : Dev) (p : Nat) : Dev :=
  (((d.putClerk p { d.clerk p with part := none, cwait := none }).wr p F.GC_STAT.RUNNING 0).wr p F.GC_STAT.WAITING 0).wr p F.GC_STAT.IDLE 1

/-- TZ.DONE (R526). -/
def Dev.tzDone (d : Dev) (p : Nat) : Dev :=
  match d.tzAt p 10 with
  | none => d
  | some _ =>
    let x := (d.clerk p).part
    ((d.tzDoneWith p 0 0).clerkIdle p).partEnd p x

/-- GC_GO (R537): start at ENTRY with a0 to a2 zero; ignored with STATE_CMD while RUNNING. -/
def Dev.gcGo (d : Dev) (t p : Nat) : Dev :=
  if kindOf p ≠ some .clerk then d
  else if d.flag p F.GC_STAT.RUNNING then d.stateCmd t p
  else if !d.on p then d
  else d.startClerk p 0 0 0 none

/-- GC_STOP (R537): stop after the current instruction and idle. -/
def Dev.gcStop (d : Dev) (p : Nat) : Dev := if kindOf p = some .clerk then d.clerkIdle p else d

/-! ### The commands -/

def execTzRld (p : Nat) (s : State) := work s (fun d => d.tzRld s.now p)
def execTzRst (p : Nat) (s : State) := work s (fun d => d.tzRst s.now p)
def execRowMoveDone (p slot : Nat) (s : State) := work s (fun d => d.rowMoveDone p slot)
def execTzRfence (p : Nat) (s : State) := work s (fun d => d.tzRfence p)
def execTzLfadd (p : Nat) (s : State) := work s (fun d => d.tzLfadd s.now p)
def execTzLfread (p : Nat) (s : State) := work s (fun d => d.tzLfread p)
def execTzLfset (p : Nat) (s : State) := work s (fun d => d.tzLfset p)
def execTzCwait (p : Nat) (s : State) := work s (fun d => d.tzCwait s.now p)
def execCwaitTimeout (p : Nat) (s : State) := upd s (fun d => d.cwaitTimeout p)
def execTzDpost (p : Nat) (s : State) := work s (fun d => d.tzDpost s.now p)
def execTzDpoll (p : Nat) (s : State) := work s (fun d => d.tzDpoll s.now p)
def execTzEfence (p : Nat) (s : State) := work s (fun d => d.tzEfence p)
def execTzDone (p : Nat) (s : State) := work s (fun d => d.tzDone p)
def execGcGo (p : Nat) (s : State) := upd s (fun d => d.gcGo s.now p)
def execGcStop (p : Nat) (s : State) := upd s (fun d => d.gcStop p)

end Sys2Proof.Machine
end

