-- ==== Sys2Proof/Machine/Arrive.lean ====
section
/-!
DEFINITION. Sys2Proof/Machine/Arrive.lean: FLIT_ARRIVE: a flit reaches its in-port's queue, and the unit there takes what it
waits for (R348, R384 to R388, R419, R420, R661).
-/

namespace Sys2Proof.Machine

/-- The unit at a circuit's in-port takes what its queue now holds: a matrix engine or SF tile the rows and the staged flits of
the instruction in progress, an I/O tile the rows of an OFFLOAD. -/
def Dev.takeAt (d : Dev) (t : Nat) (c : Circuit) : Dev :=
  match d.unitAt c.dstPos with
  | none => d
  | some p =>
    match kindOf p with
    | some .me | some .spare => d.engineTake t p c
    | some .sf => d.sfTake t p c
    | some .io => if c.kind = 1 ∧ 8 ≤ c.dstPort ∧ c.dstPort < 16 then d.copyTake t c else d
    | _ => d

/-- FLIT_ARRIVE: the oldest flit on a circuit's links arrives. -/
def Dev.flitLands (d : Dev) (t circ : Nat) : Dev :=
  match d.circuit circ with
  | none => d
  | some c => (d.flitArrive t c).takeAt t c

def execFlitArrive (circ : Nat) (s : State) := work s (fun d => d.flitLands s.now circ)

end Sys2Proof.Machine
end

