-- ==== Sys2Proof/Machine/Steps.lean ====
section
/-!
DEFINITION. Sys2Proof/Machine/Steps.lean: RUN_STEP (R688 to R699, R717, R724), its completion and the step boundary
(R700 to R710, R725), and the writes of DK_STEP and CLEAR (R720 to R722).
-/

namespace Sys2Proof.Machine

/-! ### What is in execution -/

/-- Is a REDUCE counted: COUNTED, or the max-reduction of the amax/scale table (R798, R799)? -/
def isCounted (x : Docket) : Bool := bitAt (x.field 0x23 1) 0 || x.field 0x20 1 == 3

def Dev.runExecuting (d : Dev) : Bool := d.anyExecuting (fun x => x.opcode == 2)
/-- Is a RUN_STEP of the current step in execution (R712)? -/
def Dev.stepExecuting (d : Dev) : Bool := d.anyExecuting (fun x => x.opcode == 2 && rsStep x == d.rd P.dkCtl F.DK_STEP.STEP)
def Dev.countedExecuting (d : Dev) : Bool := d.anyExecuting (fun x => x.opcode == 6 && isCounted x)

/-! ### RUN_STEP begins -/

def Dev.stepNo (d : Dev) : Nat := d.rd P.dkCtl F.DK_STEP.STEP

/-- The offsets at which R689 refuses a RUN_STEP on ring `k`. -/
def Dev.runBad (d : Dev) (k : Nat) (x : Docket) : List Nat :=
  let step := rsStep x
  let cur := d.stepNo
  let onSpan := k != deviceRing
  let must (bad : Bool) (off : Nat) : List Nat := if bad then [off] else []
  must (step != cur && step != (cur + 1) % 2 ^ 32) 0x10 ++
  must (step == cur && !rsEndStep x && d.flag P.dkCtl F.DK_ACC.REDUCED) 0x10 ++
  must (rsCount x && d.mbCounted (rsMbIndex x)) 0x14 ++
  must ((rsCount x && rsEndStep x) || (onSpan && (rsCount x || rsEndStep x)) || decide (rsFlags x ≥ 4)) 0x16 ++
  must (rsMask x == 0 || (onSpan && rsMask x != 2 ^ ringSpan k)) 0x17 ++
  must (decide (4096 ≤ rsMeStart x) && rsMeStart x != 0xFFFF) 0x18 ++
  must (decide (4096 ≤ rsSfStart x) && rsSfStart x != 0xFFFF) 0x1A ++
  must ((x.bytes.drop 0x1C).any (fun b => b != 0)) 0x1C

/-- Does a REDUCE that was announced before the docket lack its record (R699)? -/
def Dev.reduceBefore (d : Dev) (k : Nat) (x : Docket) : Bool :=
  (List.range 33).any (fun j => (d.ring j).q.any (fun y =>
    y.opcode == 6 && (if j = k then decide (y.n < x.n) else decide (y.n < x.snap.getD j 0))))

/-- Does a rule hold the beginning of the RUN_STEP (R402, R626, R698, R699)? What a step boundary releases begins from the next
MCLK cycle (R701). -/
def Dev.runHeld (d : Dev) (k : Nat) (x : Docket) : Bool :=
  d.streamingHeld || rsStep x == (d.stepNo + 1) % 2 ^ 32 || (d.cyc.boundary && rsStep x == d.stepNo) || (rsEndStep x && d.reduceBefore k x)

/-- A RUN_STEP joins those in execution: behind the others, but ahead of what began in the same MCLK cycle on a ring with a
higher number (R693). -/
def Dev.joinRun (d : Dev) (r : RunEx) : Dev :=
  let now (y : RunEx) : Bool := d.cyc.begun.contains (y.ring, y.n)
  let ahead (y : RunEx) : Bool := !now y || decide (y.ring ≤ r.ring)
  { d with
    between := false
    cyc.begun := (r.ring, r.n) :: d.cyc.begun
    runs := d.runs.takeWhile ahead ++ r :: d.runs.dropWhile ahead }

/-- R717: VCOUNT stands in for the total of a group of one. -/
def Dev.latchTotal (d : Dev) (valid attempted : Nat) : Dev :=
  let p := P.dkCtl
  (((d.wr p F.DK_VTOTAL.VALID valid).wr p F.DK_VTOTAL.ATTEMPTED attempted).wr p F.DK_VTOTAL_STEP.STEP d.stepNo).wr p
    F.DK_VTOTAL_STEP.SET 1

/-- What a RUN_STEP with END_STEP does before its units start (R717, R724). -/
def Dev.prepareUpdate (d : Dev) (units : List Nat) : Dev :=
  let d := if d.flag P.dkCtl F.DK_VTOTAL_STEP.SET then d else d.latchTotal d.vValid d.vAttempted
  let skip := bit (d.rd P.dkCtl F.DK_VTOTAL.VALID == 0)
  (units.filter (fun p => kindOf p == some .sf)).foldl (fun d p => d.wr p F.SF_UPD_CTL.SKIP skip) d

/-- A RUN_STEP begins on ring `k` (R688 to R694). A unit that is not ON counts too, and its part waits (R690, R42). -/
def Dev.beginRun (d : Dev) (k : Nat) (x : Docket) : Dev :=
  if d.kill.isSome then d.endDocket k x.n St.BAD_ARGS 0
  else if d.runHeld k x then d
  else if d.plan.isNone then d.endDocket k x.n St.NO_PLAN 0
  else
    match badArgs ((reservedAt x (fun _ => 0)) ++ d.runBad k x) with
    | some (st, det) => d.endDocket k x.n st det
    | none =>
      let units := d.runUnits (rsMask x)
      let d := d.beginDocket k x.n
      let d := if rsEndStep x then d.prepareUpdate units else d
      (d.joinRun { ring := k, n := x.n, waiting := units, active := [] }).finishRun k x.n

def Dev.runStepCmd (d : Dev) (k : Nat) : Dev :=
  match d.nextDocket k with
  | none => d
  | some x => if x.opcode = 2 then d.beginRun k x else d

/-! ### Completion (R700 to R710, R725) -/

/-- The status and DETAIL with which an executed RUN_STEP completes now, after R704's mark; `none` while the slot of its
first trap is not yet known (R708). -/
def Dev.runOutcome (d : Dev) (x : Docket) (status detail : Nat) : Option (Nat × Nat) :=
  if status = St.TIER_ERROR then some (status, detail)
  else
    let poisoned := if rsEndStep x then d.flag P.dkCtl F.DK_ACC.UPD_POISON else d.mbPoisoned (rsMbIndex x)
    if poisoned then
      match Tbl.get noTrap d.firstTraps (trapKey x) with
      | none => some (St.OK_POISONED, noSlot)
      | some f => f.slot.map (fun s => (St.OK_POISONED, s))
    else if rsEndStep x ∧ d.rd P.dkCtl F.DK_VTOTAL.VALID = 0 then some (St.OK_SKIPPED, 0)
    else some (St.OK, detail)

/-- R704, R710: what the completion of an executed RUN_STEP records about its micro-batch. -/
def Dev.countRun (d : Dev) (x : Docket) (status : Nat) : Dev :=
  if rsCount x then
    let d := if status = St.TIER_ERROR then d.poisonMb (rsMbIndex x) else d
    d.countMb (rsMbIndex x)
  else d

/-- The step boundary (R700, R701). -/
def Dev.stepBoundary (d : Dev) : Dev :=
  let d := ((d.wr P.dkCtl F.DK_STEP.STEP (d.stepNo + 1)).wr P.dkCtl F.DK_VTOTAL_STEP.SET 0).clearAccum
  { d with boundaries := d.boundaries + 1, capGap := d.capGap + 1, between := true, cyc.boundary := true }

/-- Everything that the completion of an executed RUN_STEP with a status changes. -/
def Dev.completeRun (d : Dev) (x : Docket) (status : Nat) : Dev :=
  let d := d.countRun x status
  let d := if status = St.OK_SKIPPED then d.count P.dkCtl F.DK_SKIP_CNT.COUNT 1 else d
  if rsEndStep x then d.stepBoundary else d

/-! ### DK_STEP and CLEAR (R720 to R722) -/

def Dev.stepWrite (d : Dev) (t step : Nat) : Dev :=
  if d.runExecuting || d.countedExecuting then d.stateCmd t P.dkCtl
  else { (d.wr P.dkCtl F.DK_STEP.STEP step).clearAccum with between := true }
def Dev.stepClear (d : Dev) (t : Nat) : Dev :=
  if d.runExecuting || d.countedExecuting then d.stateCmd t P.dkCtl else { d.clearAccum with between := true }

/-! ### The commands -/

def execRunStep (ring : Nat) (s : State) := upd s (fun d => d.runStepCmd ring)
def execPartStart (p : Nat) (s : State) := work s (fun d => d.partStart p)
def execDkStepWrite (step : W32) (s : State) := upd s (fun d => d.stepWrite s.now step.toNat)
def execClear (s : State) := upd s (fun d => d.stepClear s.now)

end Sys2Proof.Machine
end

