-- ==== Sys2Proof/Machine/Link.lean ====
section
/-!
DEFINITION. Sys2Proof/Machine/Link.lean: Kyino frames (R736 to R739), credits (R740 to R744), routes (R758 to R764)
and sending in direct and routed mode (R746, R747, R766, R769, R771).
-/

namespace Sys2Proof.Machine

/-! ### Frames -/

def Op.PUT : Nat := 0x01
def Op.CWRITE : Nat := 0x02
def Op.WACK : Nat := 0x03
def Op.WREF : Nat := 0x04
def Op.CREADY : Nat := 0x05
def Op.CABORT : Nat := 0x06
def Op.HELLO : Nat := 0x07
def Op.TSYNC : Nat := 0x10
def Op.TDREQ : Nat := 0x11
def Op.TDRSP : Nat := 0x12
def Op.VGC : Nat := 0x20
def Op.VGA : Nat := 0x21
def Op.VGW : Nat := 0x22

/-- The virtual channel of an operation (R739): 0 REQ, 1 RSP, 2 BULK, 3 CTRL. -/
def opVc (op : Nat) : Nat :=
  if op = Op.PUT ∨ op = Op.CWRITE then 2 else if op = Op.WACK ∨ op = Op.WREF then 1 else if op = Op.CREADY then 0 else 3

/-- The virtual channel on which a frame travels, by its link word (R736). -/
def frameVc (f : Frame) : Nat := f.vc % 4

/-- Is a frame well formed (R739): a known OP, no reserved bit, a payload that its row allows? -/
def frameOk (f : Frame) : Bool :=
  let n := f.payload.length
  f.reserved == 0 && (match f.op with
    | 0x01 => decide (64 ≤ n) && decide (n ≤ 4096) && n % 64 == 0
    | 0x02 => decide (64 ≤ n) && decide (n ≤ 4096) && n % 64 == 0
    | 0x03 => n == 0 | 0x04 => n == 0 | 0x05 => n == 0 | 0x06 => n == 0 | 0x07 => n == 0
    | 0x10 => n == 8 | 0x11 => n == 0 | 0x12 => n == 8
    | 0x20 => n == 64 | 0x21 => n == 64 | 0x22 => n == 16
    | _ => false)

/-- The link word of R736 in direct or routed mode. -/
def linkWord (routed : Bool) (seq : Nat) (f : Frame) : Nat :=
  if routed then seq % 2 ^ 32 + f.vc % 4 * 2 ^ 32 + bitsOf f.reserved 34 30 * 2 ^ 34
  else seq % 2 ^ 16 + f.vc % 4 * 2 ^ 16 + bitsOf f.reserved 18 46 * 2 ^ 18

/-- The header of R737. -/
def frameHeader (f : Frame) : Nat :=
  f.dst % 2 ^ 17 + f.src % 2 ^ 17 * 2 ^ 17 + f.op % 64 * 2 ^ 34 + f.hops % 16 * 2 ^ 40 + bitsOf f.reserved 0 4 * 2 ^ 44 +
  f.payload.length % 2 ^ 13 * 2 ^ 48 + bitsOf f.reserved 4 3 * 2 ^ 61 + f.key % 2 ^ 32 * 2 ^ 64 + f.win % 1024 * 2 ^ 96 +
  f.strand % 32 * 2 ^ 106 + bitsOf f.reserved 7 1 * 2 ^ 111 + f.tag % 2 ^ 16 * 2 ^ 112 + f.offset % 2 ^ 48 * 2 ^ 128 +
  f.group % 64 * 2 ^ 176 + bitsOf f.reserved 8 10 * 2 ^ 182

/-- What the CRC of a frame covers: link word, header and payload. -/
def frameBody (routed : Bool) (seq : Nat) (f : Frame) : List Byte :=
  bytesOfNat 8 (linkWord routed seq f) ++ bytesOfNat 24 (frameHeader f) ++ f.payload

/-- The CRC-32C that a frame's trailer holds (R738). -/
def frameCrc (routed : Bool) (seq : Nat) (f : Frame) : Nat := crc32c (frameBody routed seq f)

/-- The bytes of a frame with the CRC of its trailer, and of a link-control frame; `none` for a selective acknowledgement and
for the advertisement of a retrain, whose layouts the manual does not give. -/
def Wire.bytes : Wire → Option (List Byte)
  | .frame seq f crc => some (frameBody false seq f ++ bytesOfNat 8 (crc + bitsOf f.reserved 64 32 * 2 ^ 32))
  | .ether _ seq f crc => some (frameBody true seq f ++ bytesOfNat 8 (crc + bitsOf f.reserved 64 32 * 2 ^ 32))
  | .ack lseq => some (ctl (1 + lseq % 2 ^ 16 * 2 ^ 16))
  | .nak lseq => some (ctl (2 + lseq % 2 ^ 16 * 2 ^ 16))
  | .credit vc n => some (ctl (3 + vc % 4 * 2 ^ 4 + n % 2 ^ 16 * 2 ^ 32))
  | .selAck .. => none
  | .advert .. => none
where
  ctl (w : Nat) : List Byte := bytesOfNat 8 w ++ bytesOfNat 4 (crc32c (bytesOfNat 8 w)) ++ bytesOfNat 4 0

/-- Bytes of a frame on the link, and its cost in credits. -/
def frameBytes (f : Frame) : Nat := 40 + f.payload.length
def frameCost (f : Frame) : Nat := (frameBytes f + 63) / 64

/-! ### Ports -/

def noPort (_ : Nat) : PortSt := {}
def Dev.port (d : Dev) (p : Nat) : PortSt := Tbl.get noPort d.ports p
def Dev.putPort (d : Dev) (p : Nat) (x : PortSt) : Dev := { d with ports := Tbl.set noPort d.ports p x }

def Link.DOWN : Nat := 0
def Link.TRAINING : Nat := 1
def Link.UP : Nat := 2
def Link.RETRAIN : Nat := 3
def Dev.link (d : Dev) (p : Nat) : Nat := d.rd (P.kyPort p) F.KY_PORT_STAT.LINK
def Dev.routedPort (d : Dev) (p : Nat) : Bool := d.flag (P.kyPort p) F.KY_PORT_CTL.MODE

def vcDepth (vc : Nat) : Nat := if vc = 2 then 4096 else 64
def Dev.credits (d : Dev) (p vc : Nat) : Nat := d.rdi (P.kyPort p) vc F.KY_VC_DATA.CREDITS
def Dev.setCredits (d : Dev) (p vc n : Nat) : Dev := d.wri (P.kyPort p) vc F.KY_VC_DATA.CREDITS n
def Dev.occ (d : Dev) (p vc : Nat) : Nat := d.rdi (P.kyPort p) vc F.KY_VC_DATA.OCC

def Dev.myId (d : Dev) : Nat := d.rd P.kyino F.KY_DEV_ID.ID

/-- A frame as it stands on the link of a port: with its CRC, in routed mode in the Ethernet frame that carries it. -/
def Dev.onWire (d : Dev) (p seq : Nat) (f : Frame) : Wire :=
  if d.routedPort p then
    .ether { mac := d.rd (P.kyPort p) F.KY_GW_MAC.MAC, prefix_ := d.rd P.kyino F.KY_IP_PREFIX.PREFIX, dst := f.dst, src := f.src, port := d.rd P.kyino F.KY_UDP.PORT, dscp := d.rd P.kyino F.KY_UDP.DSCP } seq f (frameCrc true seq f)
  else .frame seq f (frameCrc false seq f)

def Dev.putWire (d : Dev) (p : Nat) (w : Wire) : Dev := { d with wire := d.wire ++ [(p, w)] }

/-- Receive-buffer space of a frame is freed (R742). -/
def Dev.freeRx (d : Dev) (p : Nat) (f : Frame) : Dev :=
  let vc := frameVc f
  let x := d.port p
  let n := frameCost f
  let d := d.wri (P.kyPort p) vc F.KY_VC_DATA.OCC (d.occ p vc - n)
  if d.routedPort p then d else d.putPort p { x with freed := x.freed.set vc ((x.freed.getD vc 0 + n) % 2 ^ 16) }

/-- A frame goes onto the link of a port in direct mode (R741, R747). -/
def Dev.transmit (d : Dev) (t p : Nat) (f : Frame) : Dev :=
  let vc := frameVc f
  let x := d.port p
  let d := d.setCredits p vc (d.credits p vc - frameCost f)
  let d := d.putPort p { x with txSeq := (x.txSeq + 1) % 2 ^ 16, replay := x.replay ++ [{ seq := x.txSeq, f := f }], ackAt := if x.replay = [] then t else x.ackAt }
  (d.count (P.kyPort p) F.KY_TX_BYTES.COUNT (frameBytes f)).putWire p (d.onWire p x.txSeq f)

/-- Frames of a port's replay buffer go out again (R747, R748, R755). -/
def Dev.sendAgain (d : Dev) (p : Nat) (hs : List HeldFrame) : Dev :=
  hs.foldl (fun d h => (d.count (P.kyPort p) F.KY_TX_BYTES.COUNT (frameBytes h.f)).putWire p (d.onWire p h.seq h.f))
    (d.count (P.kyPort p) F.KY_REPLAY_CNT.COUNT hs.length)

def noConn (_ : Nat) : Conn := {}
def Dev.conn (d : Dev) (k : Nat) : Conn := Tbl.get noConn d.conns k
def Dev.putConn (d : Dev) (k : Nat) (c : Conn) : Dev := { d with conns := Tbl.set noConn d.conns k c }

/-- Room for a connection (R771): one that exists, a free entry of 4,096, or the least recently used idle one. -/
def Dev.connRoom (d : Dev) (k : Nat) : Option Dev :=
  if d.conns.any (fun c => c.1 == k) ∨ d.conns.length < 4096 then some d
  else
    match (d.conns.filter (fun c => c.2.held == [])).foldl (fun (acc : Option (Nat × Conn)) c => match acc with
      | none => some c
      | some b => if c.2.at_ < b.2.at_ then some c else some b) none with
    | none => none
    | some c => some { d with conns := d.conns.filter (fun y => y.1 != c.1) }

/-- A frame goes out in routed mode over its connection; `none` while it must wait (R766, R769, R771). -/
def Dev.transmitRouted (d : Dev) (t p : Nat) (f : Frame) : Option Dev :=
  let k := f.dst * 4 + frameVc f
  if (d.conn k).held.length ≥ 256 then none
  else
    match d.connRoom k with
    | none => none
    | some d =>
      let c := d.conn k
      let d := d.putConn k { c with next := (c.next + 1) % 2 ^ 32, held := c.held ++ [{ seq := c.next, f := f }], port := p, at_ := t }
      some ((d.count (P.kyPort p) F.KY_TX_BYTES.COUNT (frameBytes f)).putWire p (d.onWire p c.next f))

/-- Bytes held in the replay buffer. -/
def PortSt.replayBytes (x : PortSt) : Nat := (x.replay.map (fun h => frameBytes h.f)).sum

/-- The first entry of the send queue that may go now: no earlier entry of its VC waits, its credits and the replay
buffer of 512 KiB suffice. -/
def Dev.nextSend (d : Dev) (p : Nat) : Option SendEnt :=
  let x := d.port p
  (x.sendq.findIdx? (fun e =>
    let vc := frameVc e.f
    let before := x.sendq.takeWhile (fun y => y != e)
    !before.any (fun y => frameVc y.f == vc) &&
    (if d.routedPort p then (d.transmitRouted 0 p e.f).isSome
     else decide (frameCost e.f ≤ d.credits p vc) && decide (x.replayBytes + frameBytes e.f ≤ 2 ^ 19)))).bind (fun i => x.sendq[i]?)

/-- A time message made here as it leaves at `t`: a TSYNC carries t1, and a TDREQ's departure is t3 (R784, R785). -/
def stampTime (t : Nat) (e : SendEnt) : Frame :=
  if e.from_ = none ∧ e.f.op = Op.TSYNC then { e.f with payload := bytesOfNat 8 t } else e.f
def Dev.noteDeparture (d : Dev) (t : Nat) (e : SendEnt) : Dev :=
  if e.from_ = none ∧ e.f.op = Op.TDREQ then { d with exchange := d.exchange.map (fun x => (x.1, x.2.1, t)) } else d

/-- Send what may be sent on a port whose link is UP. -/
def Dev.pumpPort (d : Dev) (t p : Nat) : Nat → Dev
  | 0 => d
  | fuel + 1 =>
    if d.link p ≠ Link.UP then d
    else
      match d.nextSend p with
      | none => d
      | some e =>
        let x := d.port p
        let d := d.putPort p { x with sendq := x.sendq.erase e }
        let d := d.noteDeparture t e
        let f := stampTime t e
        let d := if d.routedPort p then (d.transmitRouted t p f).getD d else d.transmit t p f
        let d := match e.from_ with
          | some q => d.freeRx q e.f
          | none => d
        d.pumpPort t p fuel

/-- Does a VC of a port have a frame ready without enough credits (R745)? -/
def Dev.vcShort (d : Dev) (p vc : Nat) : Bool :=
  !d.routedPort p && (match (d.port p).sendq.find? (fun e => frameVc e.f == vc) with
    | some e => decide (d.credits p vc < frameCost e.f)
    | none => false)

/-- Since when each VC of a port lacks credits, and when it last did. -/
def Dev.noteShort (d : Dev) (t p : Nat) : Dev :=
  let x := d.port p
  d.putPort p { x with
    short := (List.range 4).map (fun vc => if d.vcShort p vc then some ((x.short.getD vc none).getD t) else none)
    lastShort := (List.range 4).map (fun vc =>
      if d.vcShort p vc ∨ (x.short.getD vc none).isSome then t else x.lastShort.getD vc 0) }

def Dev.pump' (d : Dev) (t p : Nat) : Dev := (d.pumpPort t p ((d.port p).sendq.length)).noteShort t p

/-- A frame joins the send queue of a port. -/
def Dev.enqueue (d : Dev) (t p : Nat) (f : Frame) (from_ : Option Nat) : Dev :=
  let x := d.port p
  (d.putPort p { x with sendq := x.sendq ++ [{ f := f, from_ := from_ }] }).pump' t p

/-! ### Routes (R758 to R763) -/

def Dev.rtEntry (d : Dev) (dev : Nat) : Nat := d.rdi P.kyino dev F.KY_RT_DATA.ENTRY
def Dev.setRt (d : Dev) (dev e : Nat) : Dev := d.wri P.kyino dev F.KY_RT_DATA.ENTRY e
def rtPorts (e : Nat) : Nat := bitsOf e 0 24
def rtStrikes (e : Nat) : Nat := bitsOf e 24 4
def rtQuar (e : Nat) : Bool := bitAt e 28
def rtValid (e : Nat) : Bool := bitAt e 31

/-- The candidate ports toward a device, in ascending order (R762). A retraining or SLOW port counts only when no other
remains. -/
def Dev.candidates (d : Dev) (dev : Nat) : List Nat :=
  let e := d.rtEntry dev
  if !rtValid e then []
  else
    let all := (List.range 24).filter (fun p => bitAt (rtPorts e) p && (d.link p == Link.UP || d.link p == Link.RETRAIN))
    let good := all.filter (fun p => d.link p == Link.UP && !d.flag (P.kyPort p) F.KY_PORT_STAT.SLOW)
    if good = [] then all else good

/-- The port that a frame takes. -/
def Dev.routeOf (d : Dev) (f : Frame) : Option Nat :=
  let cs := d.candidates f.dst
  let h := if f.op = Op.CWRITE ∨ f.op = Op.CREADY ∨ f.op = Op.CABORT then f.strand else (f.src + f.tag) % 2 ^ 16
  cs[h % cs.length]?

/-- A frame made on this device (R759, R761, R763): is it on its way? -/
def Dev.kySend (d : Dev) (t : Nat) (f : Frame) : Bool × Dev :=
  let f := { f with src := d.myId, hops := d.rd P.kyino F.KY_CTL.HOP_LIMIT, vc := opVc f.op }
  if f.dst = d.myId then (true, { d with kyLocal := d.kyLocal ++ [f] })
  else
    match d.routeOf f with
    | none => (false, d)
    | some p => (true, d.enqueue t p f none)

/-- A frame that arrived on port `q` for another device (R759, R760, R763). -/
def Dev.forward (d : Dev) (t q : Nat) (f : Frame) : Dev :=
  if f.hops = 0 then
    let d := (d.count P.kyino F.KY_HOP_DROP_CNT.COUNT 1).freeRx q f
    if d.hopSeen then d else { d with hopSeen := true }.send t P.kyino K.KY_HOP_DROP Cls.INFO 0 0
  else
    match d.routeOf f with
    | none => (d.count P.kyino F.KY_HOP_DROP_CNT.COUNT 1).freeRx q f
    | some p => d.enqueue t p { f with hops := f.hops - 1 } (some q)

/-- A frame that is being processed leaves the queue in which it waited. -/
def Dev.takeFrame (d : Dev) (sel : Frame → Bool) : Dev :=
  if d.kyLocal.any sel then
    match d.kyLocal.find? sel with
    | some f => { d with kyLocal := d.kyLocal.erase f }
    | none => d
  else
    match (List.range 24).find? (fun p => (d.port p).rxq.any sel) with
    | none => d
    | some p =>
      match (d.port p).rxq.find? sel with
      | none => d
      | some f => (d.putPort p { d.port p with rxq := (d.port p).rxq.erase f }).freeRx p f

/-! ### Strikes (R774, R777) -/

/-- A policy violation by a source. -/
def Dev.strike (d : Dev) (t src : Nat) : Dev :=
  let e := d.rtEntry src
  let n := min (rtStrikes e + 1) 15
  let e := e - rtStrikes e * 2 ^ 24 + n * 2 ^ 24
  if n ≥ d.rd P.kyino F.KY_CTL.POLICY_STRIKES ∧ !rtQuar e then
    (d.setRt src (e + 2 ^ 28)).send t P.kyino K.KY_QUARANTINE Cls.DEFERRED src 0
  else d.setRt src e

def Dev.quarantined (d : Dev) (src : Nat) : Bool := rtQuar (d.rtEntry src)
def Dev.quarDrop (d : Dev) : Dev := d.count P.kyino F.KY_QUAR_DROP_CNT.COUNT 1

end Sys2Proof.Machine
end

