-- ==== Sys2Proof/Machine/Collect.lean ====
section
/-!
DEFINITION. Sys2Proof/Machine/Collect.lean: the Counting-house (R793 to R816): REDUCE dockets, strands, chunks and pieces,
the sums of VALID and ATTEMPTED, failure and CABORT.
-/

namespace Sys2Proof.Machine

/-! ### Groups and arguments (R793 to R799) -/

def Dev.grp (d : Dev) (g : Nat) (f : Fld) : Nat := d.rdi P.countingHouse g f

/-- The device IDs in the bytes of a group's member list. -/
def Dev.memberIds (d : Dev) (g : Nat) (bs : List Byte) : List Nat :=
  (List.range (d.grp g F.CH_GRP_CFG.MEMBERS)).map (fun i => fieldAt bs (4 * i) 4 % 2 ^ 17)

/-- The member list of a group as a REDUCE reads it (R1104), with the read's effects. -/
def Dev.members (d : Dev) (g : Nat) : Except Nat (List Nat) × Dev :=
  let r := d.controlNext (d.grp g F.CH_GRP_LIST.LOC == 1) (d.grp g F.CH_GRP_LIST.BASE * 4096) (4 * d.grp g F.CH_GRP_CFG.MEMBERS)
  (match r.1 with
   | .error c => .error c
   | .ok bs => .ok (d.memberIds g bs), r.2)

/-- The member list as it stands in memory, for what is no read of a docket (log entry 82). -/
def Dev.membersNow (d : Dev) (g : Nat) : List Nat :=
  match d.controlBytes (d.grp g F.CH_GRP_LIST.LOC == 1) (d.grp g F.CH_GRP_LIST.BASE * 4096) (4 * d.grp g F.CH_GRP_CFG.MEMBERS) with
  | .error _ => []
  | .ok bs => d.memberIds g bs

def rdOp (x : Docket) : Nat := x.field 0x20 1
def rdDtype (x : Docket) : Nat := x.field 0x21 1
def rdGroup (x : Docket) : Nat := x.field 0x22 1
def rdCount (x : Docket) : Nat := x.field 0x18 8
def rdDirect (x : Docket) : Bool := bitAt (x.field 0x23 1) 1
def rdFirst (x : Docket) : Nat := x.field 0x24 2 % 4096
def rdLast (x : Docket) : Nat := x.field 0x26 2 % 4096

/-- The offsets at which R798 and R799 refuse a REDUCE. -/
def Dev.reduceBad (d : Dev) (x : Docket) : List Nat :=
  let must (bad : Bool) (off : Nat) : List Nat := if bad then [off] else []
  let op := rdOp x
  let g := rdGroup x
  let n := d.grp g F.CH_GRP_CFG.MEMBERS
  let rank := d.grp g F.CH_GRP_CFG.RANK
  must (op != 3 && x.field 0x10 8 % 512 != 0) 0x10 ++
  must (decide (op > 4)) 0x20 ++
  must ((op == 0 || op == 1) && !([2, 4, 12].contains (rdDtype x))) 0x21 ++
  must (op == 2 && decide (rdDtype x > 12)) 0x21 ++
  must (decide (g > 63) || d.grp g F.CH_GRP_CFG.VALID == 0 ||
    (match (d.members g).1 with
     | .ok ms => ms[rank]? != some d.myId
     | .error _ => false)) 0x22 ++
  must (rdDirect x && decide (n > 256)) 0x23 ++
  (if op = 4 then
    must (bitAt (x.field 0x23 1) 0) 0x23 ++ must (rdCount x == 0 || rdCount x % 64 != 0) 0x18 ++
    must (x.field 0x30 8 % 64 != 0) 0x30 ++ must (decide (x.field 0x24 4 ≥ 2 ^ 17)) 0x24 ++ must (decide (x.field 0x28 2 ≥ 1024)) 0x28
   else
    must (op == 3 && (decide (rdLast x < rdFirst x) || rdFirst x == 0)) 0x24)

/-- The REDUCE in execution on a group, PUTs apart. -/
def Dev.collOf (d : Dev) (g : Nat) : Option Coll := d.colls.find? (fun c => c.group == g && c.op != 4)
def Dev.collBy (d : Dev) (o : Owner) : Option Coll := d.colls.find? (fun c => c.owner == o)
def Dev.putColl (d : Dev) (c : Coll) : Dev := { d with colls := d.colls.map (fun x => if x.owner = c.owner then c else x) }

/-! ### Strands, chunks and pieces (R802 to R805) -/

/-- Bytes that `n` elements of a format take. -/
def bytesFor (fmt n : Nat) : Nat :=
  let e := elemsPerRow fmt
  let r := n % e
  n / e * 512 + (if r = 0 then 0 else (elemBit (fmtWidth fmt) (r - 1) + fmtWidth fmt + 7) / 8)

/-- The bytes of a list of codes, row by row. -/
def rowsFromCodes (fmt : Nat) (codes : List Nat) : List Byte :=
  let e := elemsPerRow fmt
  ((List.range ((codes.length + e - 1) / e)).flatMap (fun r =>
    bytesOfNat 512 (packNat (fmtWidth fmt) 0 ((codes.drop (r * e)).take e)))).take (bytesFor fmt codes.length)

/-- First element and length of part `i` of `n` equal parts of [a, a + z). -/
def part (a z n i : Nat) : Nat × Nat := (a + i * z / n, a + (i + 1) * z / n - (a + i * z / n))

/-- The elements of chunk `c` of strand `k` (R802). For REDUCE_SCATTER and ALL_GATHER, whose results R808 places by
parts of the whole buffer, strand `k` takes its share of part `c` (log entry 46). -/
def chunkAt (op e s n k c : Nat) : Nat × Nat :=
  if op = 1 ∨ op = 2 then (let p := part 0 e n c; part p.1 p.2 s k)
  else (let p := part 0 e s k; part p.1 p.2 n c)

def modN (i : Int) (n : Nat) : Nat := (i.emod n).toNat

/-- What strand `k` of a REDUCE sends and receives, in order (R803, R804). -/
def schedule (c : Coll) (s k : Nat) : List Xfer × List Xfer :=
  let n := c.members.length
  let r : Int := c.rank
  let x (peer chunk : Nat) (add : Bool) (needs : Nat) : Xfer :=
    let p := chunkAt c.op c.count s n k chunk
    { peer := peer, chunk := chunk, start := p.1, len := p.2, add := add, needs := needs }
  let scatter := c.op != 2
  let gather := c.op != 1
  let steps := List.range (n - 1)
  if c.direct then
    let others := (List.range n).filter (fun q => q != c.rank)
    ((if scatter then others.map (fun q => x q q true 0) else []) ++
     (if gather then others.map (fun q => x q c.rank false (if scatter then n - 1 else 0)) else []),
     (if scatter then others.map (fun q => x q c.rank true 0) else []) ++
     (if gather then others.map (fun q => x q q false 0) else []))
  else
    let sg : Int := if k % 2 = 0 then 1 else -1
    let next := modN (r + sg) n
    let prev := modN (r - sg) n
    -- in the scatter a rank ends with chunk r + 1 (even) or r - 1 (odd); for REDUCE_SCATTER alone, with chunk r
    let sh : Int := if c.op = 1 then sg else 0
    let own : Int := if scatter then r + sg else r
    ((if scatter then steps.map (fun (j : Nat) => x next (modN (r - sh - sg * j) n) true j) else []) ++
     (if gather then steps.map (fun (j : Nat) => x next (modN (own - sg * j) n) false ((if scatter then n - 1 else 0) + j)) else []),
     (if scatter then steps.map (fun (j : Nat) => x prev (modN (r - sg - sh - sg * j) n) true 0) else []) ++
     (if gather then steps.map (fun (j : Nat) => x prev (modN (own - sg - sg * j) n) false 0) else []))

def pieceSize : Nat := 131072
def pad512 (n : Nat) : Nat := (n + 511) / 512 * 512

/-- Bytes of a chunk on the link: its elements, on strand 0 the two sums, whole rows (log entry 46). -/
def chunkBytes (dtype k len : Nat) : Nat := pad512 (bytesFor dtype len + (if k = 0 then 16 else 0))
def chunkPieces (dtype k len : Nat) : Nat := (chunkBytes dtype k len + pieceSize - 1) / pieceSize

def chunkData (c : Coll) (k : Nat) (x : Xfer) : List Byte :=
  let sum := c.sums.getD x.chunk (0, 0)
  let body := rowsFromCodes c.dtype ((c.buf.drop x.start).take x.len) ++
    (if k = 0 then bytesOfNat 8 sum.1 ++ bytesOfNat 8 sum.2 else [])
  body ++ List.replicate (chunkBytes c.dtype k x.len - body.length) 0

/-- The sum of two elements (R806, R807); AMAX_MAX takes the larger. -/
def sumCode (op dtype : Nat) (sat : Bool) (a b : Nat) : Nat :=
  if op = 3 then fmaxCode a b
  else if dtype = 12 then (int32Sum a b).code
  else (convTo dtype sat 0 0 (Num.add (decodeElem dtype a) (decodeElem dtype b))).code

/-- A received chunk enters the buffer. -/
def takeChunk (sat : Bool) (c : Coll) (k : Nat) (x : Xfer) (bs : List Byte) : Coll :=
  let codes := codesIn c.dtype x.len bs
  let old := (c.buf.drop x.start).take x.len
  let new := if x.add then List.zipWith (sumCode c.op c.dtype sat) old codes else codes
  let c := { c with buf := c.buf.take x.start ++ new ++ c.buf.drop (x.start + x.len) }
  if k = 0 then
    let off := bytesFor c.dtype x.len
    let v := fieldAt bs off 8
    let a := fieldAt bs (off + 8) 8
    let s := c.sums.getD x.chunk (0, 0)
    { c with sums := c.sums.set x.chunk (if x.add then ((s.1 + v) % 2 ^ 64, (s.2 + a) % 2 ^ 64) else (v, a)) }
  else c

def Coll.strand (c : Coll) (k : Nat) : StrandSt := c.strands.getD k {}
def Coll.putStrand (c : Coll) (k : Nat) (s : StrandSt) : Coll := { c with strands := c.strands.set k s }

/-! ### Ends of a REDUCE (R801, R807, R808, R811 to R816) -/

def Dev.dropColl (d : Dev) (o : Owner) : Dev := { d with colls := d.colls.filter (fun c => c.owner != o) }

/-- A write of the Counting-house to device addresses. -/
def Dev.chWrite (d : Dev) (t : Nat) (o : Owner) (a : Nat) (bs : List Byte) : Dev := d.writeRange t P.countingHouse o a bs

/-- Frames of kind CABORT to the members that R812 names. -/
def Dev.sendAbort (d : Dev) (t : Nat) (c : Coll) (failing : Nat) (skip : Option Nat) : Dev :=
  let n := c.members.length
  let ranks := if c.direct then (List.range n).filter (fun q => q != c.rank)
               else ([(c.rank + 1) % n, (c.rank + n - 1) % n].eraseDups).filter (fun q => q != c.rank)
  ranks.foldl (fun d q =>
    let dev := c.members.getD q 0
    if skip = some dev then d
    else (d.kySend t { dst := dev, op := Op.CABORT, key := failing, tag := c.seq % 2 ^ 16, group := c.group }).2) d

/-- A REDUCE ends with REMOTE_ERROR (R812 to R816): CH_ERR, the message, CABORT, and a buffer that is undefined. `relay`
is the device whose CABORT ended it. -/
def Dev.remoteError (d : Dev) (t : Nat) (o : Owner) (cause dev : Nat) (relay : Option Nat) : Dev :=
  match d.collBy o with
  | none => d
  | some c =>
    let p := P.countingHouse
    let d := if d.flag p F.CH_ERR.VALID then d
             else ((d.raiseBit p F.CH_ERR.VALID 0).wr p F.CH_ERR.CAUSE cause).wr p F.CH_ERR.MEMBER dev
    let d := d.send t p K.CH_REMOTE Cls.DEFERRED dev 0
    let d := d.dropColl o
    let d :=
      if c.op = 4 then d
      else
        let d := match relay with
          | none => d.sendAbort t c dev none
          | some from_ => if c.direct then d else d.sendAbort t c dev (some from_)
        if c.op = 3 then d
        else
          let f := d.freeBytes (bytesFor c.dtype c.count)
          f.2.chWrite t o c.addr f.1
    d.endOwner o St.REMOTE_ERROR dev

/-- The format in which a reduction adds or compares: AMAX_MAX takes FP32. -/
def Coll.fmt (c : Coll) : Nat := if c.op = 3 then 4 else c.dtype

/-- A NaN of a contribution makes the element the canonical NaN, also where no other member adds to it (R143, R807; ALL_GATHER's
elements are contributions too: log entry 46). -/
def canonNan (fmt code : Nat) : Nat := match fmtFloat fmt with
  | some f => if decodeElem fmt code = .nan then f.nanCode else code
  | none => code

/-- The group sums of a counted REDUCE stay with its docket until its record is written (R716, R1095). -/
def Dev.keepTotal (d : Dev) (o : Owner) (sum : Nat × Nat) : Dev := match o with
  | .ring k n => d.putRing k { d.ring k with q := (d.ring k).q.map (fun x => if x.n = n then { x with total := some sum } else x) }
  | _ => d

/-- A REDUCE has all its contributions: its result stands (R807, R808, R716, R679). -/
def Dev.finishColl (d : Dev) (t : Nat) (c : Coll) : Dev :=
  let n := c.members.length
  let c := { c with buf := c.buf.map (canonNan c.fmt) }
  let nonfin := (c.buf.filter (fun v => !(decodeElem c.fmt v).isFinite)).length
  let f := d.freeBytes (bytesFor c.dtype c.count)
  let mine := part 0 c.count n c.rank
  let d :=
    if c.op = 3 then
      (List.range c.buf.length).foldl (fun d i =>
        let e := c.first + i
        d.putAmaxWord e 1 (d.amaxWord e 1 / 2 ^ 32 * 2 ^ 32 + c.buf.getD i 0)) d
    else if c.op = 1 then
      -- only part r of the buffer is defined (R808)
      let open_ := codesIn c.dtype c.count f.1
      f.2.chWrite t c.owner c.addr (rowsFromCodes c.dtype
        (open_.take mine.1 ++ (c.buf.drop mine.1).take mine.2 ++ open_.drop (mine.1 + mine.2)))
    else d.chWrite t c.owner c.addr (rowsFromCodes c.dtype c.buf)
  let nonfin := if c.op = 1 then (((c.buf.drop mine.1).take mine.2).filter (fun v => !(decodeElem c.dtype v).isFinite)).length else nonfin
  let d := if nonfin = 0 then d
           else (d.count P.countingHouse F.CH_NONFIN_CNT.COUNT nonfin).send t P.countingHouse K.CH_NONFINITE Cls.DEFERRED 0 0
  let sum := if c.op = 2 then c.sums.foldl (fun a b => (a.1 + b.1, a.2 + b.2)) (0, 0) else c.sums.getD c.rank (0, 0)
  let d := if c.counted then d.keepTotal c.owner sum else d
  let failure := match d.collBy c.owner with
    | some x => x.failure
    | none => c.failure
  let d := d.dropColl c.owner
  match failure with
  | some det => d.endOwner c.owner St.TIER_ERROR det
  | none => d.endOwner c.owner St.OK 0

/-! ### Progress -/

/-- Frames of one piece (R805): up to 4,096 B each, in the receiver's group window. -/
def pieceFrames (c : Coll) (k piece dev : Nat) (key win : Nat) (bs : List Byte) : List Frame :=
  (List.range ((bs.length + 4095) / 4096)).map (fun i =>
    { dst := dev, op := Op.CWRITE, key := key, win := win, strand := k, tag := c.seq % 2 ^ 16, group := c.group
      offset := (2 * k + piece % 2) * pieceSize + 4096 * i, payload := (bs.drop (4096 * i)).take 4096 })

/-- Send frames that are to be answered; the first that cannot be routed stops them. -/
def Dev.sendAll (d : Dev) (t : Nat) (o : Owner) : List Frame → Bool × Dev
  | [] => (true, d)
  | f :: fs =>
    let r := d.kySend t f
    if !r.1 then (false, r.2)
    else
      let d := r.2.count P.countingHouse F.CH_TX_BYTES.COUNT f.payload.length
      let d := { d with colls := d.colls.map (fun (c : Coll) => if c.owner = o then { c with out := c.out ++ [(f.dst, f.win, f.tag, f.offset)] } else c) }
      d.sendAll t o fs

def zeroCount (_ : Nat) : Nat := 0

/-- Skip chunks that carry nothing. -/
def StrandSt.skip (s : StrandSt) (dtype k : Nat) : Nat → StrandSt
  | 0 => s
  | fuel + 1 =>
    match s.recvs with
    | x :: rest =>
      if chunkBytes dtype k x.len = 0 then StrandSt.skip { s with recvs := rest, recvd := s.recvd + 1 } dtype k fuel
      else
        (match s.sends with
         | y :: more => if chunkBytes dtype k y.len = 0 ∧ y.needs ≤ s.recvd then StrandSt.skip { s with sends := more } dtype k fuel else s
         | [] => s)
    | [] =>
      (match s.sends with
       | y :: more => if chunkBytes dtype k y.len = 0 ∧ y.needs ≤ s.recvd then StrandSt.skip { s with sends := more } dtype k fuel else s
       | [] => s)

/-- Pieces that the strand will still receive from the rank it receives from now. -/
def StrandSt.due (s : StrandSt) (dtype k : Nat) : Nat :=
  match s.recvs with
  | [] => 0
  | x :: _ => (((s.recvs.takeWhile (fun y => y.peer == x.peer)).map (fun y => chunkPieces dtype k y.len)).sum) - s.gotNow

/-- A step of strand `k`, if it can take one: a CREADY granted, a piece sent, or a piece taken from its slot. `none`: it
waits. -/
def Dev.strandStep (d : Dev) (t : Nat) (c : Coll) (k : Nat) : Option Dev :=
  let s := (c.strand k).skip c.dtype k ((c.strand k).sends.length + (c.strand k).recvs.length + 1)
  let save (d : Dev) (s : StrandSt) : Dev := match d.collBy c.owner with
    | some x => d.putColl (x.putStrand k s)
    | none => d
  let grant : Option Dev :=
    match s.recvs with
    | [] => none
    | x :: _ =>
      let got := Tbl.get zeroCount s.rx x.peer
      let g := Tbl.get zeroCount s.granted x.peer
      if g < min (got + 2) (got + s.due c.dtype k) then
        let r := d.kySend t { dst := c.members.getD x.peer 0, op := Op.CREADY, key := 0, strand := k, tag := c.seq % 2 ^ 16, offset := g, group := c.group }
        some (if r.1 then save r.2 { s with granted := Tbl.set zeroCount s.granted x.peer (g + 1) }
              else r.2.remoteError t c.owner 2 (c.members.getD x.peer 0) none)
      else none
  let take : Option Dev :=
    match s.recvs with
    | [] => none
    | x :: rest =>
      let i := Tbl.get zeroCount s.rx x.peer
      let size := min pieceSize (chunkBytes c.dtype k x.len - s.gotNow * pieceSize)
      if Tbl.get zeroCount s.got (i % 2) ≥ size then
        let bs := Tbl.getN zeroByte s.slots (i % 2 * pieceSize) size
        let s := { s with rx := Tbl.set zeroCount s.rx x.peer (i + 1), got := Tbl.set zeroCount s.got (i % 2) 0, gotNow := s.gotNow + 1, cur := s.cur ++ bs }
        if s.gotNow = chunkPieces c.dtype k x.len then
          let c := takeChunk (d.rd P.countingHouse F.CH_CTL.SATMODE == 0) c k x s.cur
          some (save (d.putColl c) { s with recvs := rest, recvd := s.recvd + 1, gotNow := 0, cur := [], rxAt := t, txAt := t })
        else some (save (d.putColl c) { s with rxAt := t })
      else none
  let give : Option Dev :=
    match s.sends with
    | [] => none
    | x :: rest =>
      let i := Tbl.get zeroCount s.tx x.peer
      if x.needs ≤ s.recvd ∧ s.creadys.contains (x.peer, i) then
        let data := ((chunkData c k x).drop (s.sentNow * pieceSize)).take pieceSize
        let dev := c.members.getD x.peer 0
        let r := d.sendAll t c.owner (pieceFrames c k i dev (d.grp c.group F.CH_GRP_KEY.KEY) (d.grp c.group F.CH_GRP_CFG.WIN) data)
        let s := { s with tx := Tbl.set zeroCount s.tx x.peer (i + 1), creadys := s.creadys.erase (x.peer, i), sentNow := s.sentNow + 1, txAt := t }
        let s := if s.sentNow = chunkPieces c.dtype k x.len then { s with sends := rest, sentNow := 0 } else s
        some (if r.1 then save r.2 s else r.2.remoteError t c.owner 2 dev none)
      else none
  grant.or (take.or give)

/-- Everything the strands of a REDUCE can do now. -/
def Dev.collGo (d : Dev) (t : Nat) (o : Owner) : Nat → Dev
  | 0 => d
  | fuel + 1 =>
    match d.collBy o with
    | none => d
    | some c =>
      if c.stuck then d
      else
        match (List.range c.strands.length).findSome? (fun k => d.strandStep t c k) with
        | some d' => d'.collGo t o fuel
        | none =>
          let done (k : Nat) : Bool :=
            let s := (c.strand k).skip c.dtype k ((c.strand k).sends.length + (c.strand k).recvs.length + 1)
            s.sends == [] && s.recvs == []
          let waits := c.op != 3 && d.rangeRetrains c.addr (bytesFor c.dtype c.count)
          if (List.range c.strands.length).all done && c.out == [] && !waits then d.finishColl t c else d

/-- An upper bound of the steps that a REDUCE can take at once. -/
def collFuel (c : Coll) : Nat :=
  3 * ((c.strands.map (fun s => ((s.sends ++ s.recvs).map (fun x => chunkPieces c.dtype 0 x.len + 1)).sum)).sum + c.strands.length) + 3

/-- NM_LINK_RETRAIN_DONE (R587): requests of the stack go on, REDUCEs that waited to write their results among them. -/
def Dev.nmLinkBack (d : Dev) (t stack : Nat) : Dev :=
  (d.nmRetrained stack).colls.foldl (fun d c => if c.op = 4 then d else d.collGo t c.owner (collFuel c)) (d.nmRetrained stack)

/-! ### Beginning (R712 to R715, R795, R799, R801) -/

/-- Read the local buffer; a held request leaves the REDUCE waiting (R681). -/
def Dev.readBuffer (d : Dev) (t : Nat) (o : Owner) (a n : Nat) : List Byte × Bool × Dev :=
  (pieces512 a n).foldl (fun (acc : List Byte × Bool × Dev) p =>
    let held := acc.2.2.reqs.length
    let r := acc.2.2.accessNext t P.countingHouse o p.1 p.2 false []
    match r.1 with
    | some bs => (acc.1 ++ bs, acc.2.1, r.2)
    | none => (acc.1 ++ List.replicate p.2 0, acc.2.1 || decide (r.2.reqs.length > held), r.2)) ([], false, d)

/-- The frames of a PUT (R801). -/
def Dev.startPut (d : Dev) (t : Nat) (x : Docket) (o : Owner) : Dev :=
  let n := rdCount x
  let peer := x.field 0x24 4 % 2 ^ 17
  let c : Coll := { owner := o, op := 4, dtype := 0, group := rdGroup x, counted := false, direct := false, addr := x.field 0x10 8, count := n, peer := peer }
  let d := { d with colls := d.colls ++ [c] }
  let b := d.readBuffer t o (x.field 0x10 8) n
  let d := b.2.2
  if b.2.1 then d.putColl { (d.collBy o).getD c with stuck := true }
  else
    let tag := d.nextPutTag
    let frames : List Frame := (List.range ((n + 4095) / 4096)).map (fun i =>
      { dst := peer, op := Op.PUT, key := x.field 0x2C 4, win := x.field 0x28 2, tag := (tag + i) % 2 ^ 16, offset := x.field 0x30 8 + 4096 * i, payload := (b.1.drop (4096 * i)).take 4096 })
    let r := { d with nextPutTag := (tag + frames.length) % 2 ^ 16 }.sendAll t o frames
    if r.1 then r.2 else r.2.remoteError t o 2 peer none

/-- The CREADYs that strand `k` of a REDUCE finds when it begins. -/
def Dev.earlyFor (d : Dev) (g seq : Nat) (ms : List Nat) (k : Nat) : List (Nat × Nat) :=
  (d.early.filter (fun f => f.group == g && f.tag == seq % 2 ^ 16 && f.strand == k)).filterMap (fun f =>
    (ms.findIdx? (fun m => m == f.src)).map (fun q => (q, f.offset)))

/-- A REDUCE begins for an owner, its arguments accepted (R795, R713 to R715). -/
def Dev.startReduce (d : Dev) (t : Nat) (x : Docket) (o : Owner) : Dev :=
  let g := rdGroup x
  let lost (d : Dev) (cause : Nat) : Dev :=
    (d.failMsg t P.countingHouse cause (d.grp g F.CH_GRP_LIST.BASE * 4096) true).endOwner o St.TIER_ERROR
      (controlDetail (d.grp g F.CH_GRP_LIST.LOC == 1) cause (d.grp g F.CH_GRP_LIST.BASE * 4096))
  if rdOp x = 4 then
    (match d.members g with
     | (.error cause, d) => lost d cause
     | (.ok _, d) => d.startPut t x o)
  else
    let op := rdOp x
    let counted := isCounted x
    let seq := d.grp g F.CH_GRP_SEQ.SEQ
    let d := d.wri P.countingHouse g F.CH_GRP_SEQ.SEQ (seq + 1)
    let d := if counted then d.wr P.dkCtl F.DK_ACC.REDUCED 1 else d
    let lat := if counted then (d.vValid, d.vAttempted) else (0, 0)
    let ms := d.members g
    let d := ms.2
    match ms.1 with
    | .error cause => lost d cause
    | .ok ms =>
      let e := if op = 3 then rdLast x - rdFirst x + 1 else rdCount x
      let dtype := if op = 3 then 4 else rdDtype x
      let c : Coll := { owner := o, op := op, dtype := dtype, group := g, counted := counted, direct := rdDirect x, addr := x.field 0x10 8, count := e, peer := 0, first := rdFirst x, seq := seq, members := ms, rank := d.grp g F.CH_GRP_CFG.RANK, sums := List.replicate ms.length lat }
      let d := { d with colls := d.colls ++ [c] }
      let b : List Byte × Bool × Dev := if op = 3 then ([], false, d) else d.readBuffer t o c.addr (bytesFor dtype e)
      let d := b.2.2
      let codes := if op = 3 then (List.range e).map (fun i => d.amaxWord (rdFirst x + i) 1 % 2 ^ 32) else codesIn dtype e b.1
      let zero := counted && lat.1 == 0
      let s := d.grp g F.CH_GRP_CFG.STRANDS
      let c := { (d.collBy o).getD c with buf := if zero then List.replicate e 0 else codes, stuck := b.2.1 }
      let c := { c with strands := (List.range s).map (fun k => ({ sends := (schedule c s k).1, recvs := (schedule c s k).2, creadys := d.earlyFor g seq ms k, rxAt := t, txAt := t } : StrandSt)) }
      let d := { d with early := d.early.filter (fun f => !(f.group == g && f.tag == seq % 2 ^ 16)) }
      (d.putColl c).collGo t o (collFuel c)

/-- Does a REDUCE wait for the link of a stack that serves its buffer (R587)? -/
def Dev.reduceWaits (d : Dev) (x : Docket) : Bool :=
  rdOp x != 3 && d.rangeRetrains (x.field 0x10 8) (if rdOp x = 4 then rdCount x else bytesFor (rdDtype x) (rdCount x))

/-- May a REDUCE begin (R712, R913; one collective of a group at a time)? -/
def Dev.reduceHeld (d : Dev) (x : Docket) : Bool :=
  d.reduceWaits x || d.captureHeld || (rdOp x != 4 && (d.collOf (rdGroup x)).isSome) || (isCounted x && d.stepExecuting)

/-- A REDUCE docket begins on ring `k`. -/
def Dev.beginReduce (d : Dev) (t k : Nat) (x : Docket) : Dev :=
  if d.reduceHeld x then d
  else
    match refusal k x (argMask x) (d.reduceBad x) with
    | some (st, det) => d.endDocket k x.n st det
    | none => (d.beginDocket k x.n).startReduce t x (.ring k x.n)

/-- The row of the opcode table for one OP. -/
def Dev.reduceCmd (d : Dev) (t op : Nat) : Dev :=
  match d.nextDocket deviceRing with
  | none => d
  | some x => if x.opcode = 6 ∧ rdOp x = op ∧ d.kill.isNone then d.beginReduce t deviceRing x else d

/-! ### Answers and failures -/

/-- A write of a REDUCE is answered (R781, R801): acknowledged, or refused. -/
def Dev.answered (d : Dev) (t src win tag off : Nat) (ok : Bool) : Dev :=
  match d.colls.find? (fun c => c.out.contains (src, win, tag, off)) with
  | none => d
  | some c =>
    if !ok then d.remoteError t c.owner 3 src none
    else
      let c := { c with out := c.out.erase (src, win, tag, off) }
      let d := d.putColl c
      if c.op = 4 then
        (if c.out = [] ∧ !c.stuck then
          let d := d.dropColl c.owner
          match c.failure with
          | some det => d.endOwner c.owner St.TIER_ERROR det
          | none => d.endOwner c.owner St.OK 0
        else d)
      else d.collGo t c.owner (collFuel c)

/-! ### A snapshot's destinations (R920, R923, R924, R926) -/

/-- A destination fails (R924). -/
def Dev.destFails (d : Dev) (t : Nat) (far : Bool) : Dev :=
  (d.wr P.snapshot (if far then F.SN_STAT.FAR_OK else F.SN_STAT.BUDDY_OK) 0).send t P.snapshot K.SN_FAIL Cls.DEFERRED 0 (if far then 2 else 1)

/-- Has a destination ended? -/
def SnDest.done (x : SnDest) : Bool := match x with
  | .stage _ | .sent _ => false
  | _ => true

/-- Does an image stand complete at a destination, as far as it was asked for? -/
def SnDest.good (x : SnDest) : Bool := match x with
  | .complete | .unused => true
  | _ => false

/-- SENDING ends with the last destination. -/
def Dev.sendingEnds (d : Dev) (x : Snap) : Dev := if x.buddy.done && x.far.done then d.wr P.snapshot F.SN_STAT.SENDING 0 else d

/-- Stage 3 has ended at a destination of the oldest SNAPSHOT: its image is complete there, the next image takes the other slot
(R920), and SN_LAST takes the STEP of an image that is complete at every destination asked for (R926). -/
def Dev.destCompletes (d : Dev) (t : Nat) (far : Bool) (x : Snap) (rest : List Snap) : Dev :=
  let p := P.snapshot
  let slotF := if far then F.SN_STAT.FAR_NEXT_SLOT else F.SN_STAT.NEXT_SLOT
  let x : Snap := if far then { x with far := .complete } else { x with buddy := .complete }
  let d := (d.wr p slotF (1 - d.rd p slotF)).wr p (if far then F.SN_STAT.FAR_OK else F.SN_STAT.BUDDY_OK) 1
  let d := if x.buddy.good && x.far.good then (d.wr p F.SN_LAST.STEP x.step).wr p F.SN_LAST.TIME t else d
  { d.sendingEnds x with snaps := x :: rest }

/-- A destination of the oldest SNAPSHOT fails; the other goes on (R923, R924). -/
def Dev.destEnds (d : Dev) (t : Nat) (far : Bool) (st det : Nat) (x : Snap) (rest : List Snap) : Dev :=
  let x : Snap := if far then { x with far := .failed st det } else { x with buddy := .failed st det, out := [] }
  { (d.destFails t far).sendingEnds x with snaps := x :: rest }

/-- A PUT to the buddy is refused, lost or unreachable (R923). -/
def Dev.buddyFails (d : Dev) (t : Nat) (x : Snap) (rest : List Snap) : Dev :=
  d.destEnds t false St.REMOTE_ERROR (d.rd P.snapshot F.SN_BUDDY.ID) x rest

/-- The answer to a write of the snapshot's stage at the buddy (R919): a refusal fails the destination, the last acknowledgement
ends the stage. -/
def Dev.buddyAnswer (d : Dev) (t src win tag off : Nat) (ok : Bool) : Dev := match d.snaps with
  | [] => d
  | x :: rest =>
    if !x.out.contains (src, win, tag, off) then d
    else if !ok then d.buddyFails t x rest
    else
      let x := { x with out := x.out.erase (src, win, tag, off) }
      match x.buddy with
      | .sent k =>
        if x.out ≠ [] then { d with snaps := x :: rest }
        else if k < 3 then { d with snaps := { x with buddy := .stage (k + 1) } :: rest }
        else d.destCompletes t false x rest
      | _ => { d with snaps := x :: rest }

/-- A lost write of the snapshot (R923). -/
def Dev.buddyLost (d : Dev) (t : Nat) (f : Frame) : Dev := d.buddyAnswer t f.dst f.win f.tag f.offset false

/-- Writes made here that a link lost (R756). -/
def Dev.lostFrames (d : Dev) (t : Nat) (fs : List Frame) : Dev :=
  fs.foldl (fun d f =>
    if (f.op = Op.PUT ∨ f.op = Op.CWRITE) ∧ f.src = d.myId then
      match d.colls.find? (fun c => c.out.contains (f.dst, f.win, f.tag, f.offset)) with
      | some c => d.remoteError t c.owner 4 f.dst none
      | none => d.buddyLost t f
    else d) d

/-- A counted CWRITE of the collective in execution brings bytes of a piece (R805). -/
def Dev.pieceBytes (d : Dev) (t g off : Nat) (data : List Byte) : Dev :=
  match d.collOf g with
  | none => d
  | some c =>
    let k := off / (2 * pieceSize)
    let slot := off / pieceSize % 2
    let s := c.strand k
    let s := { s with slots := Tbl.setAll zeroByte s.slots (off % (2 * pieceSize)) data, got := Tbl.set zeroCount s.got slot (Tbl.get zeroCount s.got slot + data.length) }
    (d.putColl (c.putStrand k s)).collGo t c.owner (collFuel c)

/-- May a CREADY or CABORT for a group come from a device: is it a member of the valid group (R777)? -/
def Dev.mayCollect (d : Dev) (g src : Nat) : Bool := match d.collOf g with
  | some c => c.members.contains src
  | none => decide (g < 64) && d.grp g F.CH_GRP_CFG.VALID == 1 && (d.membersNow g).contains src

/-- CREADY (R805): a member grants a piece of a strand. One for the next REDUCE of the group, which its sender has begun and this
device has not, is kept until it begins; one for any other REDUCE has no effect (DEDUCED, log entry 84). -/
def Dev.cready (d : Dev) (t : Nat) (f : Frame) : Dev :=
  let d := d.takeFrame (fun x => x == f)
  if d.quarantined f.src then d.quarDrop
  else if !d.mayCollect f.group f.src then d.strike t f.src
  else if f.tag = d.grp f.group F.CH_GRP_SEQ.SEQ % 2 ^ 16 then { d with early := d.early ++ [f] }
  else
    match d.collOf f.group with
    | none => d
    | some c =>
      match c.members.findIdx? (fun m => m == f.src) with
      | none => d
      | some q =>
        if c.seq % 2 ^ 16 ≠ f.tag then d
        else if f.strand ≥ c.strands.length then d.strike t f.src
        else
          let s := c.strand f.strand
          let d := d.putColl (c.putStrand f.strand { s with creadys := s.creadys ++ [(q, f.offset)] })
          d.collGo t c.owner (collFuel c)

/-- CABORT (R813): one for a REDUCE that is not in execution has no effect. -/
def Dev.cabort (d : Dev) (t : Nat) (f : Frame) : Dev :=
  let d := d.takeFrame (fun x => x == f)
  if d.quarantined f.src then d.quarDrop
  else
    if !d.mayCollect f.group f.src then d.strike t f.src
    else match d.collOf f.group with
    | none => d
    | some c =>
      if c.seq % 2 ^ 16 ≠ f.tag then d
      else d.remoteError t c.owner 5 (f.key % 2 ^ 17) (some f.src)

/-- Has a strand waited for a piece or a CREADY of a rank for `limit` ns (R811)? -/
def StrandSt.late (s : StrandSt) (rank t limit : Nat) : Bool :=
  (match s.recvs with
   | x :: _ => x.peer == rank && decide (s.rxAt + limit ≤ t)
   | [] => false) ||
  (match s.sends with
   | x :: _ => x.peer == rank && decide (x.needs ≤ s.recvd) && !s.creadys.contains (x.peer, Tbl.get zeroCount s.tx x.peer) &&
       decide (s.txAt + limit ≤ t)
   | [] => false)

/-- CH_REMOTE (R811): the REDUCE on a group has waited TIMEOUT_MS for a rank, or cannot reach it. -/
def Dev.chRemote (d : Dev) (t g rank : Nat) : Dev :=
  match d.collOf g with
  | none => d
  | some c =>
    let waits := c.strands.any (fun s =>
      (match s.recvs with | x :: _ => x.peer == rank | [] => false) ||
      (match s.sends with | x :: _ => x.peer == rank | [] => false))
    let dev := c.members.getD rank 0
    let unreachable := d.candidates dev == [] && dev != d.myId
    if !waits ∨ c.stuck then d
    else if unreachable then d.remoteError t c.owner 2 dev none
    else if c.strands.any (fun s => s.late rank t (d.rd P.countingHouse F.CH_CTL.TIMEOUT_MS * 1000000)) then d.remoteError t c.owner 1 dev none
    else d

/-! ### The commands -/

def execCready (f : Frame) (s : State) := upd s (fun d => d.cready s.now f)
def execCabort (f : Frame) (s : State) := upd s (fun d => d.cabort s.now f)
def execNmLinkRetrainDone (stack : Nat) (s : State) := upd s (fun d => d.nmLinkBack s.now stack)
def execAllReduce (s : State) (ctl : List ReqOutcome := []) (acc : List AccessErr := []) :=
  upd s (fun d => d.withEnv ctl acc (fun d => d.reduceCmd s.now 0))
def execReduceScatter (s : State) (ctl : List ReqOutcome := []) (acc : List AccessErr := []) :=
  upd s (fun d => d.withEnv ctl acc (fun d => d.reduceCmd s.now 1))
def execAllGather (s : State) (ctl : List ReqOutcome := []) (acc : List AccessErr := []) :=
  upd s (fun d => d.withEnv ctl acc (fun d => d.reduceCmd s.now 2))
def execAmaxMax (s : State) (ctl : List ReqOutcome := []) (acc : List AccessErr := []) :=
  upd s (fun d => d.withEnv ctl acc (fun d => d.reduceCmd s.now 3))
def execReducePut (s : State) (ctl : List ReqOutcome := []) (acc : List AccessErr := []) :=
  upd s (fun d => d.withEnv ctl acc (fun d => d.reduceCmd s.now 4))
def execChRemote (g rank : Nat) (s : State) := upd s (fun d => d.chRemote s.now g rank)

end Sys2Proof.Machine
end

