-- ==== Sys2Proof/Machine/Kyino.lean ====
section
/-!
DEFINITION. Sys2Proof/Machine/Kyino.lean: link states (R732 to R735), receiving frames (R746, R759, R767), acknowledgement,
resending and retrains (R747 to R756), starvation (R745), routed mode (R768 to R770), the checks on remote writes (R772 to
R779) and their counting (R458, R1102), routing entries (R765) and device time (R784 to R791).
-/

namespace Sys2Proof.Machine

/-! ### Link states -/

def Dev.setLink (d : Dev) (p st lanes used : Nat) : Dev :=
  let u := P.kyPort p
  ((d.wr u F.KY_PORT_STAT.LINK st).wr u F.KY_PORT_STAT.LANES lanes).wr u F.KY_PORT_STAT.LANE_USED used

/-- A port begins to train (R732). -/
def Dev.portTrain (d : Dev) (t p : Nat) : Dev :=
  (d.setLink p Link.TRAINING 0 0).putPort p { d.port p with trained := false, since := t, attempts := 0 }

/-- A link goes DOWN (R735, R756). -/
def Dev.linkDown (d : Dev) (t p : Nat) : Dev :=
  let was := d.link p == Link.UP || d.link p == Link.RETRAIN
  let x := d.port p
  let lost := x.replay.map (fun h => h.f) ++ x.sendq.map (fun e => e.f)
  let d := (d.setLink p Link.DOWN 0 0).wr (P.kyPort p) F.KY_PORT_STAT.SLOW 0
  let d := d.putPort p { x with replay := [], sendq := [], trained := false, since := t, attempts := 0, short := [none, none, none, none], starved := [false, false, false, false] }
  let d := x.sendq.foldl (fun d e => match e.from_ with
    | some q => d.freeRx q e.f
    | none => d) d
  let d := if was then d.send t (P.kyPort p) K.KY_LINK_DOWN Cls.DEFERRED 0 0 else d
  d.lostFrames t lost

/-- TRAINING_TIMEOUT (R732, R735). -/
def Dev.trainingTimeout (d : Dev) (t p : Nat) : Dev :=
  let x := d.port p
  if p > 23 ∨ d.link p ≠ Link.TRAINING ∨ x.trained ∨ t < x.since + 500000000 then d
  else
    let d := (d.setLink p Link.DOWN 0 0).putPort p { x with since := t, told := true }
    if !x.everUp ∧ !x.told then d.send t (P.kyPort p) K.KY_LINK_DOWN Cls.INFO 0 0 else d

/-- TRAINING_DONE (R733): the port sends HELLO on a fresh link with full credits. One that comes after 500 ms is too late (R732). -/
def Dev.trainingDone (d : Dev) (t p : Nat) : Dev :=
  if p > 23 ∨ !d.on (P.kyPort p) ∨ d.link p ≠ Link.TRAINING ∨ (d.port p).trained then d
  else if (d.port p).since + 500000000 < t then d.trainingTimeout t p
  else
    let d := (List.range 4).foldl (fun d vc => d.setCredits p vc (vcDepth vc)) d
    let d := d.putPort p { d.port p with trained := true, txSeq := 0, rxSeq := 0, replay := [], freed := [0, 0, 0, 0], reported := [0, 0, 0, 0], seen := [0, 0, 0, 0], unacked := 0, ackAt := t }
    d.transmit t p { src := d.myId, op := Op.HELLO, hops := d.rd P.kyino F.KY_CTL.HOP_LIMIT, vc := 3 }

/-- TRAINING_RETRY (R732). -/
def Dev.trainingRetry (d : Dev) (t p : Nat) : Dev :=
  if p > 23 ∨ !d.on (P.kyPort p) ∨ d.link p ≠ Link.DOWN ∨ t < (d.port p).since + 1000000000 then d else d.portTrain t p

/-- HELLO (R733, R734). -/
def Dev.hello (d : Dev) (t p src : Nat) : Dev :=
  let d := d.takeFrame (fun f => f.op == Op.HELLO && f.src == src)
  if p > 23 then d
  else if d.link p = Link.UP then d.wr (P.kyPort p) F.KY_PORT_STAT.PARTNER src
  else if d.link p = Link.TRAINING ∧ (d.port p).trained then
    let d := ((d.setLink p Link.UP 4 15).setPll F.CK_PHY_LOCK1.KY p true).wr (P.kyPort p) F.KY_PORT_STAT.PARTNER src
    (d.putPort p { d.port p with everUp := true, since := t }).pump' t p
  else d

/-- KY_DEV_ID_WRITE (R734, R792). -/
def Dev.devIdWrite (d : Dev) (t id : Nat) : Dev :=
  if d.colls ≠ [] then d.stateCmd t P.kyino
  else if id % 2 ^ 17 = d.myId then d
  else
    let d := d.wr P.kyino F.KY_DEV_ID.ID id
    ((List.range 24).filter (fun p => d.link p == Link.UP)).foldl (fun d p =>
      d.enqueue t p { src := d.myId, op := Op.HELLO, hops := d.rd P.kyino F.KY_CTL.HOP_LIMIT, vc := 3 } none) d

/-! ### Receiving -/

def noE2e (_ : Nat) : E2eRx := {}
def Dev.e2e (d : Dev) (k : Nat) : E2eRx := Tbl.get noE2e d.e2eRx k
def Dev.putE2e (d : Dev) (k : Nat) (x : E2eRx) : Dev := { d with e2eRx := Tbl.set noE2e d.e2eRx k x }

/-- A frame that a port has accepted: forwarded, discarded as malformed at its destination, or kept for its effect
(R739, R759, R775). HELLO is the link's own: it ends at the port, whatever its DST (DEDUCED, log entry 84). -/
def Dev.arrive (d : Dev) (t p : Nat) (f : Frame) : Dev :=
  let d := d.count (P.kyPort p) F.KY_RX_BYTES.COUNT (frameBytes f)
  if f.dst ≠ d.myId ∧ f.op ≠ Op.HELLO then d.forward t p f
  else if !frameOk f then (d.count P.kyino F.KY_BAD_FRAME_CNT.COUNT 1).freeRx p f
  else if d.quarantined f.src then d.quarDrop.freeRx p f
  else d.putPort p { d.port p with rxq := (d.port p).rxq ++ [f] }

/-- Advance the lowest missing ESEQ over those accepted. -/
def E2eRx.advance (x : E2eRx) : Nat → E2eRx
  | 0 => x
  | fuel + 1 => if x.acc.contains x.low then E2eRx.advance { x with acc := x.acc.erase x.low, low := (x.low + 1) % 2 ^ 32 } fuel else x

/-- FRAME_RECEIVE (R746, R767). -/
def Dev.frameReceive (d : Dev) (t p seq : Nat) (crc : Nat) (f : Frame) : Dev :=
  let u := P.kyPort p
  let vc := frameVc f
  let crcOk := crc == frameCrc (d.routedPort p) seq f
  if p > 23 ∨ !(d.link p = Link.UP ∨ (d.link p = Link.TRAINING ∧ (d.port p).trained ∧ f.op = Op.HELLO)) then d
  else if d.routedPort p then
    if !crcOk ∨ d.occ p vc + frameCost f > vcDepth vc then d
    else
      let k := f.src * 4 + vc
      let x := d.e2e k
      let ahead := (seq + 2 ^ 32 - x.low) % 2 ^ 32
      if ahead > 256 ∨ x.acc.contains (seq % 2 ^ 32) then d
      else
        let x := E2eRx.advance { x with acc := seq % 2 ^ 32 :: x.acc, since := x.since + 1, port := p, at_ := if x.since = 0 then t else x.at_ } 257
        ((d.putE2e k x).wri u vc F.KY_VC_DATA.OCC (d.occ p vc + frameCost f)).arrive t p f
  else
    let x := d.port p
    if !crcOk ∨ seq ≠ x.rxSeq then d.putWire p (.nak ((x.rxSeq + 2 ^ 16 - 1) % 2 ^ 16))
    else
      let d := d.wri u vc F.KY_VC_DATA.OCC (d.occ p vc + frameCost f)
      let n := x.unacked + 1
      let d := d.putPort p { x with rxSeq := (x.rxSeq + 1) % 2 ^ 16, unacked := if n ≥ 64 then 0 else n }
      let d := if n ≥ 64 then d.putWire p (.ack x.rxSeq) else d
      d.arrive t p f

/-! ### ACK, NAK, CREDIT -/

/-- The replay buffer without the frames up to an acknowledged LSEQ. -/
def dropThrough (hs : List HeldFrame) (lseq : Nat) : List HeldFrame :=
  match hs.findIdx? (fun h => h.seq == lseq) with
  | some i => hs.drop (i + 1)
  | none => hs

/-- ACK (R747). -/
def Dev.ackFrame (d : Dev) (t p lseq : Nat) : Dev :=
  let x := d.port p
  let rest := dropThrough x.replay lseq
  if p > 23 ∨ rest.length = x.replay.length then d else (d.putPort p { x with replay := rest, ackAt := t }).pump' t p

/-- A port retrains (R749). -/
def Dev.retrain (d : Dev) (t p : Nat) : Dev :=
  (d.setLink p Link.RETRAIN (d.rd (P.kyPort p) F.KY_PORT_STAT.LANES) (d.rd (P.kyPort p) F.KY_PORT_STAT.LANE_USED)).count (P.kyPort p)
    F.KY_RETRAIN_CNT.COUNT 1 |>.putPort p { d.port p with since := t, attempts := (d.port p).attempts + 1 }

/-- Resend held frames of a port, in LSEQ order: those `sel`ected; where one of them has been resent RETRY_LIMIT times, the port
retrains instead (R747 to R749). The wait of R748 begins anew (DESIGN CHOICE, log entry 112). -/
def Dev.resendHeld (d : Dev) (t p : Nat) (sel : HeldFrame → Bool) : Dev :=
  let x := d.port p
  let hs := x.replay.filter sel
  if hs = [] then d
  else if hs.any (fun h => decide (d.rd (P.kyPort p) F.KY_PORT_CTL.RETRY_LIMIT ≤ h.resends)) then d.retrain t p
  else
    (d.putPort p { x with replay := x.replay.map (fun y => if sel y then { y with resends := y.resends + 1 } else y), ackAt := t }).sendAgain p hs

/-- Does an LSEQ come after another, modulo 2^16? -/
def seqAfter (a b : Nat) : Bool := decide (1 ≤ (a + 2 ^ 16 - b % 2 ^ 16) % 2 ^ 16) && decide ((a + 2 ^ 16 - b % 2 ^ 16) % 2 ^ 16 < 2 ^ 15)

/-- NAK (R747): every frame after its LSEQ goes out again; what it does not resend stays held until an ACK covers it. -/
def Dev.nakFrame (d : Dev) (t p lseq : Nat) : Dev :=
  if p > 23 ∨ d.link p ≠ Link.UP ∨ d.routedPort p then d else d.resendHeld t p (fun h => seqAfter h.seq lseq)

/-- CREDIT (R742). -/
def Dev.creditFrame (d : Dev) (t p vc n : Nat) : Dev :=
  if p > 23 ∨ vc > 3 ∨ d.link p ≠ Link.UP then d
  else
    let x := d.port p
    let add := (n + 2 ^ 16 - x.seen.getD vc 0) % 2 ^ 16
    ((d.setCredits p vc (d.credits p vc + add)).putPort p { x with seen := x.seen.set vc (n % 2 ^ 16) }).pump' t p

/-- CREDIT_REPORT (R744). -/
def Dev.creditReport (d : Dev) (p : Nat) : Dev :=
  if p > 23 ∨ d.link p ≠ Link.UP then d
  else
    let x := d.port p
    let d := (List.range 4).foldl (fun d vc =>
      if x.freed.getD vc 0 = x.reported.getD vc 0 then d else d.putWire p (.credit vc (x.freed.getD vc 0))) d
    let d := if x.unacked = 0 then d else d.putWire p (.ack ((x.rxSeq + 2 ^ 16 - 1) % 2 ^ 16))
    d.putPort p { x with reported := x.freed, unacked := 0 }

/-- REPLAY_TIMEOUT (R748). -/
def Dev.replayTimeout (d : Dev) (t p : Nat) : Dev :=
  if p > 23 ∨ d.link p ≠ Link.UP ∨ d.routedPort p ∨ t < (d.port p).ackAt + 5000 then d else d.resendHeld t p (fun _ => true)

/-! ### Retrains (R750 to R755) -/

/-- The end of a retrain (R755): the port advertises its own free space and its next expected LSEQ, and takes up the partner's
advertisement. In routed mode neither credits nor link-level replay run, and nothing is advertised. -/
def Dev.advertised (d : Dev) (t p lseq : Nat) (free : List Nat) : Dev :=
  let x := d.port p
  if d.routedPort p then (d.putPort p { x with attempts := 0, since := t }).pump' t p else
  let d := d.putWire p (.advert x.rxSeq ((List.range 4).map (fun vc => vcDepth vc - d.occ p vc)))
  let held := match x.replay.findIdx? (fun h => h.seq == lseq) with
    | some i => x.replay.drop i
    | none => if lseq = x.txSeq then [] else x.replay
  let d := (List.range 4).foldl (fun d vc =>
    d.setCredits p vc (free.getD vc 0 - ((held.filter (fun h => frameVc h.f == vc)).map (fun h => frameCost h.f)).sum)) d
  let d := d.putPort p { x with replay := held.map (fun h => { h with resends := 0 }), attempts := 0, since := t, ackAt := t, freed := [0, 0, 0, 0], reported := [0, 0, 0, 0], seen := [0, 0, 0, 0] }
  (d.sendAgain p held).pump' t p

/-- RETRAIN_TIMEOUT (R754): the retrain failed. -/
def Dev.retrainTimeout (d : Dev) (t p : Nat) : Dev :=
  if p > 23 ∨ d.link p ≠ Link.RETRAIN then d
  else if (d.port p).attempts < d.rd (P.kyPort p) F.KY_PORT_CTL.RETRAIN_MAX then d.retrain t p
  else d.linkDown t p

/-- Has a retrain passed its 200 µs (R754)? One that ends later has failed. -/
def Dev.retrainLate (d : Dev) (t p : Nat) : Bool := decide ((d.port p).since + 200000 < t)

/-- KY_RETRAIN (R751): all four lanes. -/
def Dev.retrainEnds (d : Dev) (t p lseq : Nat) (free : List Nat) : Dev :=
  if p > 23 ∨ d.link p ≠ Link.RETRAIN then d
  else if d.retrainLate t p then d.retrainTimeout t p
  else (((d.setLink p Link.UP 4 15).setPll F.CK_PHY_LOCK1.KY p true).send t (P.kyPort p) K.KY_RETRAIN Cls.CORRECTED 0 0).advertised t p lseq free

/-- KY_LANE_SPARE (R752, R753): one lane excluded. -/
def Dev.laneSpare (d : Dev) (t p lane lseq : Nat) (free : List Nat) : Dev :=
  if p > 23 ∨ lane > 3 ∨ d.link p ≠ Link.RETRAIN then d
  else if d.retrainLate t p then d.retrainTimeout t p
  else if d.routedPort p then d.linkDown t p
  else (((d.setLink p Link.UP 3 (15 - 2 ^ lane)).setPll F.CK_PHY_LOCK1.KY p true).send t (P.kyPort p) K.KY_LANE_SPARE Cls.INFO 0 0).advertised t p lseq free

/-! ### Starvation (R745) -/

def Dev.starveNs (d : Dev) (p : Nat) : Nat := d.rd (P.kyPort p) F.KY_PORT_CTL.STARVE_US * 1000

def Dev.kySlow (d : Dev) (t p vc : Nat) : Dev :=
  let x := d.port p
  match x.short.getD vc none with
  | none => d
  | some s =>
    if p > 23 ∨ vc > 3 ∨ t < s + d.starveNs p then d
    else
      let d := d.putPort p { x with starved := x.starved.set vc true }
      if d.flag (P.kyPort p) F.KY_PORT_STAT.SLOW then d
      else (d.wr (P.kyPort p) F.KY_PORT_STAT.SLOW 1).send t (P.kyPort p) K.KY_SLOW Cls.DEFERRED 0 0

/-- SLOW clears once every VC that set it has been without a shortage for STARVE_US. -/
def Dev.slowClear (d : Dev) (t p : Nat) : Dev :=
  let x := d.port p
  let still (vc : Nat) : Bool :=
    x.starved.getD vc false && ((x.short.getD vc none).isSome || decide (t < x.lastShort.getD vc 0 + d.starveNs p))
  if p > 23 ∨ (List.range 4).any still then d
  else (d.putPort p { x with starved := [false, false, false, false] }).wr (P.kyPort p) F.KY_PORT_STAT.SLOW 0

/-! ### Routed mode (R768 to R770) -/

/-- Frames of a connection are resent, by another port of the route where theirs is not UP (R756, R762); one resent RETRY times is
unreachable (R763, R770). -/
def Dev.resendConn (d : Dev) (t k : Nat) (sel : HeldFrame → Bool) : Dev :=
  let c := d.conn k
  let limit := d.rd P.kyino F.KY_E2E.RETRY
  let dead := c.held.filter (fun h => sel h && decide (h.resends ≥ limit))
  let again := c.held.filter (fun h => sel h && decide (h.resends < limit))
  let held := (c.held.filter (fun h => !(sel h && decide (h.resends ≥ limit)))).map (fun h =>
    if sel h then { h with resends := h.resends + 1 } else h)
  let port (d : Dev) (h : HeldFrame) : Option Nat := if d.link c.port = Link.UP then some c.port else (d.routeOf h.f).filter (fun p => d.link p == Link.UP)
  let d := d.putConn k { c with held := held, port := ((again.head?).bind (port d)).getD c.port, at_ := t }
  let d := again.foldl (fun d h => match port d h with
    | some p => d.sendAgain p [h]
    | none => d) d
  dead.foldl (fun d h =>
    if h.f.src = d.myId then
      (match d.colls.find? (fun c => c.out.contains (h.f.dst, h.f.win, h.f.tag, h.f.offset)) with
       | some c => d.remoteError t c.owner 2 h.f.dst none
       | none => d.buddyLost t h.f)
    else d.count P.kyino F.KY_HOP_DROP_CNT.COUNT 1) d

/-- SELECTIVE_ACK (R769): bit i of the map is ESEQ low + 1 + i. -/
def Dev.selectiveAck (d : Dev) (t dev vc low : Nat) (map : BitVec 256) : Dev :=
  let k := dev * 4 + vc
  let c := d.conn k
  if vc > 3 ∨ c.held = [] then d
  else
    let rel (s : Nat) : Nat := (s + 2 ^ 32 - low) % 2 ^ 32
    let acked (h : HeldFrame) : Bool :=
      decide (rel h.seq ≥ 2 ^ 31) || (decide (1 ≤ rel h.seq) && decide (rel h.seq ≤ 256) && map.getLsbD (rel h.seq - 1))
    let behind (h : HeldFrame) : Bool := (List.range 256).any (fun i => map.getLsbD i && decide (rel h.seq < i + 1))
    let d := d.putConn k { c with held := c.held.filter (fun h => !acked h), at_ := t }
    (d.resendConn t k behind).pump' t c.port

/-- SELECTIVE_ACK_SEND (R768). -/
def Dev.selectiveAckSend (d : Dev) (t dev vc : Nat) : Dev :=
  let k := dev * 4 + vc
  let x := d.e2e k
  if vc > 3 ∨ x.since = 0 ∨ (x.since < 256 ∧ t < x.at_ + 5000) then d
  else
    let map : BitVec 256 := (List.range 256).foldl (fun m i => if x.acc.contains ((x.low + 1 + i) % 2 ^ 32) then m ||| (1#256 <<< i) else m) 0
    (d.putWire x.port (.selAck dev vc x.low map)).putE2e k { x with since := 0, at_ := t }

/-- E2E_RESEND (R769, R770). -/
def Dev.e2eResend (d : Dev) (t dev vc : Nat) : Dev :=
  let k := dev * 4 + vc
  let c := d.conn k
  if vc > 3 ∨ c.held = [] ∨ t < c.at_ + d.rd P.kyino F.KY_E2E.RTO_US * 1000 then d
  else (d.resendConn t k (fun _ => true)).pump' t c.port

/-! ### Remote writes (R772 to R779, R458, R1102) -/

/-- Bytes that the rate bucket of a source lacks now (R776). -/
def noDebt (_ : Nat) : Nat × Nat := (0, 0)
def Dev.bucketDebt (d : Dev) (t src : Nat) : Nat :=
  let b := Tbl.get noDebt d.buckets (src % 1024)
  b.1 - (t - b.2) * d.rd P.kyino F.KY_RATE.GBPS
def Dev.bucketHolds (d : Dev) (t src n : Nat) : Bool :=
  decide (d.bucketDebt t src + n ≤ d.rd P.kyino F.KY_RATE.BURST_KIB * 1024)
def Dev.bucketTake (d : Dev) (t src n : Nat) : Dev :=
  { d with buckets := Tbl.set noDebt d.buckets (src % 1024) (d.bucketDebt t src + n, t) }

/-- After a write of KY_RATE on `old`: every bucket holds what it had refilled at the old rate, cut to the new size. -/
def Dev.settleBuckets (d old : Dev) (t : Nat) : Dev :=
  let b0 := old.rd P.kyino F.KY_RATE.BURST_KIB * 1024
  let b1 := d.rd P.kyino F.KY_RATE.BURST_KIB * 1024
  let lacks (k : Nat) : Nat × Nat := (old.bucketDebt t k + (b1 - b0) - (b0 - b1), t)
  { d with buckets :=
      if b0 < b1 then (List.range 1024).foldl (fun b k => Tbl.set noDebt b k (lacks k)) d.buckets
      else d.buckets.map (fun c => (c.1, lacks c.1)) }

def reasonStrikes (r : Nat) : Bool := r == 2 || r == 3 || r == 4 || r == 6

/-- R492: once phase 3 of a KILL has begun, every remote write is refused as if its window were closed. -/
def Dev.windowsShut (d : Dev) : Bool := match d.kill with
  | some x => decide (3 ≤ x.phase)
  | none => false

/-- The first check of R772 after check 1 that a write fails, as its reason. `win` is the window it would enter. -/
def Dev.writeRefusal (d : Dev) (t : Nat) (cwrite : Bool) (f : Frame) : Option Nat :=
  let g := f.group
  let win := if cwrite then d.grp g F.CH_GRP_CFG.WIN else f.win
  let member : Bool := match d.collOf g with
    | some c => c.members.contains f.src
    | none => (d.membersNow g).contains f.src
  let w (x : Fld) : Nat := d.rdi P.kyWindows win x
  let len := f.payload.length
  let spad := w F.KY_WIN_CTL.TGT == 0
  if cwrite && (g > 63 || d.grp g F.CH_GRP_CFG.VALID == 0 || !member) then some 6
  else if cwrite && (match d.collOf g with | some c => c.seq % 2 ^ 16 != f.tag | none => true) then some 7
  else if w F.KY_WIN_CTL.OPEN = 0 || d.windowsShut then some 1
  else if f.key ≠ (if cwrite then d.grp g F.CH_GRP_KEY.KEY else w F.KY_WIN_KEY.KEY) then some 2
  else if f.offset % 64 ≠ 0 ∨ (spad ∧ (f.offset % 512 ≠ 0 ∨ len % 512 ≠ 0)) then some 4
  else if f.offset + len > w F.KY_WIN_SIZE.BYTES then some 3
  else if !d.bucketHolds t f.src len then some 5
  else none

/-- The answer to a write: WACK, or WREF with a reason. -/
def Dev.answerWrite (d : Dev) (t src win tag off : Nat) (reason : Option Nat) : Dev :=
  (d.kySend t { dst := src, op := (if reason.isSome then Op.WREF else Op.WACK), key := reason.getD 0, win := win, tag := tag, offset := off }).2

/-- A PUT or CWRITE at its destination (R772 to R776, R454 to R456). -/
def Dev.remoteWrite (d : Dev) (t : Nat) (cwrite : Bool) (f : Frame) : Dev :=
  let d := d.takeFrame (fun x => x == f)
  let f := { f with op := if cwrite then Op.CWRITE else Op.PUT }
  if !frameOk f then d.count P.kyino F.KY_BAD_FRAME_CNT.COUNT 1
  else if d.quarantined f.src then d.quarDrop
  else
    match d.writeRefusal t cwrite f with
    | some r =>
      let win := if cwrite && r != 6 then d.grp f.group F.CH_GRP_CFG.WIN else f.win
      let d := d.countSat P.kyWindows win F.KY_WIN_REFUSED.COUNT 1
      let d := d.raiseBit P.kyino F.KY_REFUSE_LAST.VALID 0
      let d := d.wr P.kyino F.KY_REFUSE_LAST.REASON r
      let d := d.wr P.kyino F.KY_REFUSE_LAST.WIN win
      let d := d.wr P.kyino F.KY_REFUSE_LAST.SRC f.src
      let d := d.wr P.kyino F.KY_REFUSE_LAST.TIME t
      let d := d.answerWrite t f.src f.win f.tag f.offset (some r)
      if reasonStrikes r then d.strike t f.src else d
    | none =>
      let win := if cwrite then d.grp f.group F.CH_GRP_CFG.WIN else f.win
      let w : WinWrite := { win := win, near := d.rdi P.kyWindows win F.KY_WIN_CTL.TGT == 1, span := d.rdi P.kyWindows win F.KY_WIN_CTL.SPAN, base := d.rdi P.kyWindows win F.KY_WIN_BASE.BASE, src := f.src, strand := f.strand, tag := f.tag, offset := f.offset, data := f.payload, op := f.op, group := f.group, epoch := d.epoch (d.rdi P.kyWindows win F.KY_WIN_CTL.SPAN) }
      { d.bucketTake t f.src f.payload.length with winWrites := d.winWrites ++ [w] }

/-! ### Buddy pairing (R932 to R937) -/

/-- The feed identity (R932). -/
def Dev.feedId (d : Dev) : Nat := if d.flag P.snapshot F.SN_FEED.OVR then d.rd P.snapshot F.SN_FEED.VALUE else d.rd P.snapshot F.SN_FEED.STRAP

/-- A pairing record (R933), or the record of all zeros (R937). -/
def Dev.pairBytes (d : Dev) (zero : Bool) : List Byte :=
  if zero then List.replicate 64 0
  else [0x54, 0x5A, 0x50, 0x52] ++ bytesOfNat 4 (d.myId + d.rd P.snapshot F.SN_PAIR_FORCE.FORCE * 2 ^ 31) ++
    bytesOfNat 2 d.feedId ++ List.replicate 6 0 ++ bytesOfNat 8 (d.rd P.snapshot F.SN_SLOT_BYTES.BYTES) ++ List.replicate 40 0

/-- The record goes to the buddy window as one PUT; it is acknowledged by the WACK with its tag. -/
def Dev.sendPair (d : Dev) (t : Nat) (zero : Bool) : Dev :=
  let p := P.snapshot
  let tag := d.nextPutTag
  let f : Frame := { dst := d.rd p F.SN_BUDDY.ID, op := Op.PUT, key := d.rd p F.SN_BUDDY_KEY.KEY, win := d.rd p F.SN_BUDDY.WIN, tag := tag, payload := d.pairBytes zero }
  (({ d with nextPutTag := (tag + 1) % 2 ^ 16, pr.pairAcked := false, pr.pairTag := some tag, pr.pairSent := f.payload }).kySend t f).2

/-- R934 to R937: the pair as the two records make it. -/
def Dev.pairEval (d : Dev) (t : Nat) : Dev :=
  let p := P.snapshot
  match d.pr.pairRec with
  | none => d
  | some bs =>
    let at_ (o n : Nat) : Nat := natOfBytes ((bs.drop o).take n)
    let own (o n : Nat) : Nat := natOfBytes ((d.pr.pairSent.drop o).take n)
    let same := at_ 8 2 == own 8 2
    let forced := own 4 4 / 2 ^ 31 % 2 == 1 && at_ 4 4 / 2 ^ 31 % 2 == 1
    let magic := bs.take 4 == [0x54, 0x5A, 0x50, 0x52]
    if !magic ∨ at_ 4 4 % 2 ^ 17 ≠ d.rd p F.SN_BUDDY.ID then d.wr p F.SN_STAT.PAIRED 0
    else
      let d := d.wr p F.SN_STAT.PARTNER_FEED (at_ 8 2)
      if at_ 16 8 ≠ d.rd p F.SN_SLOT_BYTES.BYTES then d.wr p F.SN_STAT.PAIRED 0
      else if !d.pr.pairAcked then d
      else if same && !forced then
        let d := if d.flag p F.SN_STAT.REFUSED_FEED then d else d.send t p K.SN_FAIL Cls.DEFERRED 0 4
        (d.wr p F.SN_STAT.PAIRED 0).wr p F.SN_STAT.REFUSED_FEED 1
      else (d.wr p F.SN_STAT.PAIRED 1).wr p F.SN_STAT.SAME_FEED (bit same)

/-- A counted write of 64 bytes at offset 0 of the hosted window is a pairing record. -/
def Dev.pairArrive (d : Dev) (t win off : Nat) (data : List Byte) : Dev :=
  if win = d.rd P.snapshot F.SN_HOST_WIN.WIN ∧ off = 0 ∧ data.length = 64 then { d with pr.pairRec := some data }.pairEval t else d

/-- The answer to the own record; the zero record of UNPAIR pairs nothing. -/
def Dev.pairAnswer (d : Dev) (t : Nat) (f : Frame) (ok : Bool) : Dev :=
  if d.pr.pairTag = some f.tag ∧ f.src = d.rd P.snapshot F.SN_BUDDY.ID ∧ f.win = d.rd P.snapshot F.SN_BUDDY.WIN ∧ f.offset = 0 then
    { d with pr.pairAcked := ok && d.pr.pairAsked, pr.pairTag := none }.pairEval t
  else d

/-- An accepted write ends uncounted (R1102). -/
def Dev.endUncounted (d : Dev) (t : Nat) (w : WinWrite) : Dev :=
  { d with winWrites := d.winWrites.erase w }.answerWrite t w.src w.win w.tag w.offset (some 8)

/-- An accepted write has been written whole: it is counted and answered (R458). -/
def Dev.countWindow (d : Dev) (t win : Nat) (w : WinWrite) : Dev :=
  let d := { d with winWrites := d.winWrites.erase w }
  let d := d.wri P.kyWindows win F.KY_WIN_COUNT.COUNT (d.rdi P.kyWindows win F.KY_WIN_COUNT.COUNT + 1)
  let d := d.wri P.kyWindows win F.KY_WIN_BYTES.BYTES (d.rdi P.kyWindows win F.KY_WIN_BYTES.BYTES + w.data.length)
  let d := d.answerWrite t w.src w.win w.tag w.offset none
  if w.op = Op.CWRITE then d.pieceBytes t w.group w.offset w.data else d.pairArrive t w.win w.offset w.data

/-- The requests of an accepted write into a near-tier window, each with outcome `res` (R1102). The write is received by an I/O tile of
the span that KY_WIN_CTL names: its first (DESIGN CHOICE, log entry 100). -/
def Dev.winNear (d : Dev) (t win : Nat) (w : WinWrite) (res : ReqOutcome) : Dev :=
  let before := d.reqs.length
  let a := w.base + w.offset
  let r := (pieces512 a w.data.length).foldl (fun (acc : Bool × Dev) p =>
    let x := acc.2.access t (P.io w.span 0) .nobody p.1 p.2 true ((w.data.drop (p.1 - a)).take p.2) { res := res }
    (acc.1 && x.1.isSome, x.2)) (true, d)
  let d := r.2
  if r.1 then d.countWindow t win w
  else if d.reqs.length > before then
    { d with
      reqs := d.reqs.take before ++ (d.reqs.drop before).map (fun (r : Req) => { r with kind := 4 })
      winWrites := replaceFirst w { w with held := true } d.winWrites }
  else d.endUncounted t w

/-- WINDOW_WRITE_COUNTED (R456 to R459, R1102): the oldest accepted write of a window ends, once all its rows are written; one into
the near tier that is late, or behind a link that retrains (R587), waits. -/
def Dev.winCounted (d : Dev) (t win : Nat) (res : ReqOutcome) : Dev :=
  match d.winWrites.find? (fun w => w.win == win && !w.held) with
  | none => d
  | some w =>
    if w.near then
      if res = .late ∨ d.rangeRetrains (w.base + w.offset) w.data.length then d else d.winNear t win w res
    else
      let r := d.winRowsNow t w w.rowsLeft
      if r.1.rowsLeft = [] then r.2.countWindow t win r.1 else r.2

/-- WACK and WREF at the source of a write (R779, R781). -/
def Dev.writeAnswer (d : Dev) (t : Nat) (f : Frame) (ok : Bool) : Dev :=
  let d := d.takeFrame (fun x => x == f)
  if d.quarantined f.src then d.quarDrop else ((d.pairAnswer t f ok).buddyAnswer t f.src f.win f.tag f.offset ok).answered t f.src f.win f.tag f.offset ok

/-- KY_RT_DATA_WRITE (R758, R765): bit 30 is reserved. -/
def Dev.rtDataWrite (d : Dev) (v : Nat) : Dev :=
  let i := d.rd P.kyino F.KY_RT_INDEX.INDEX
  let d := d.setRt i (v % 2 ^ 30 + bit (bitAt v 31) * 2 ^ 31)
  if d.flag P.kyino F.KY_RT_INDEX.AUTO_INC then d.wr P.kyino F.KY_RT_INDEX.INDEX (i + 1) else d

/-! ### Device time (R784 to R791) -/

def Dev.isMaster (d : Dev) : Bool := d.flag P.kyino F.KY_TIME_CTL.MASTER
def Dev.upstream (d : Dev) : Nat := d.rd P.kyino F.KY_TIME_CTL.UPSTREAM
def Dev.periodNs (d : Dev) : Nat := d.rd P.kyino F.KY_TIME_CTL.PERIOD_US * 1000

/-- Does the device pass time on: the master, or one that had a TSYNC in the last three periods? -/
def Dev.passesTime (d : Dev) (t : Nat) : Bool :=
  d.isMaster || (match d.tsyncAt with | some a => decide (t < a + 3 * d.periodNs) | none => false)

def Dev.partner (d : Dev) (p : Nat) : Nat := d.rd (P.kyPort p) F.KY_PORT_STAT.PARTNER
def timeFrame (d : Dev) (p op : Nat) (payload : List Byte) : Frame :=
  { dst := d.partner p, src := d.myId, op := op, hops := d.rd P.kyino F.KY_CTL.HOP_LIMIT, vc := 3, payload := payload }

/-- TSYNC_PERIOD (R784). -/
def Dev.tsyncPeriod (d : Dev) (t : Nat) : Dev :=
  if !d.passesTime t ∨ t < d.tsyncSent + d.periodNs then d
  else
    ((List.range 24).filter (fun p => d.link p == Link.UP && (d.isMaster || p != d.upstream))).foldl (fun d p =>
      d.enqueue t p (timeFrame d p Op.TSYNC (bytesOfNat 8 t)) none) { d with tsyncSent := t }

/-- A time message on a port that the protocol does not allow (R777, R790). -/
def Dev.badTime (d : Dev) (t src : Nat) : Dev := if d.quarantined src then d.quarDrop else d.strike t src

/-- TSYNC (R785). -/
def Dev.tsync (d : Dev) (t p src t1 : Nat) : Dev :=
  let d := d.takeFrame (fun f => f.op == Op.TSYNC && f.src == src)
  if p > 23 ∨ d.link p ≠ Link.UP then d
  else if d.isMaster ∨ p ≠ d.upstream ∨ d.quarantined src then d.badTime t src
  else { d with tsyncAt := some t, exchange := some (t1, t, t) }.enqueue t p (timeFrame d p Op.TDREQ []) none

/-- TDREQ (R785). -/
def Dev.tdreq (d : Dev) (t p src : Nat) : Dev :=
  let d := d.takeFrame (fun f => f.op == Op.TDREQ && f.src == src)
  if p > 23 ∨ d.link p ≠ Link.UP then d
  else if !d.passesTime t ∨ (!d.isMaster ∧ p = d.upstream) ∨ d.quarantined src then d.badTime t src
  else d.enqueue t p (timeFrame d p Op.TDRSP (bytesOfNat 8 t)) none

/-- TDRSP (R786): θ, or none where the message is not allowed or answers no TDREQ. -/
def Dev.tdrsp (d : Dev) (t p src t4 : Nat) : Option Int × Dev :=
  let d := d.takeFrame (fun f => f.op == Op.TDRSP && f.src == src)
  if p > 23 ∨ d.link p ≠ Link.UP then (none, d)
  else
    if d.isMaster ∨ p ≠ d.upstream ∨ d.quarantined src then (none, d.badTime t src)
    else match d.exchange with
    | none => (none, d)
    | some (t1, t2, t3) =>
      let theta : Int := (((t2 : Int) - t1) - ((t4 : Int) - t3)).tdiv 2
      (some theta, { d with exchange := none }.wr P.kyino F.KY_TIME_OFFSET.THETA (theta.emod (2 ^ 64)).toNat)

/-- TDRSP on the device's clock: a step forward, or a slew (R787, R788). -/
def tdrspState (s : State) (p src t4 : Nat) : State :=
  let r := s.d.tdrsp s.now p src t4
  match r.1 with
  | none => { s with d := r.2 }
  | some th =>
    if th < -10000 then
      let now := s.now + (-th).toNat
      { s with now := now, slew := 0, d := r.2.send now P.kyino K.KY_TIME_STEP Cls.INFO 0 0 }
    else { s with slew := th * 270000, d := r.2 }

/-! ### The commands -/

def execTrainingDone (p : Nat) (s : State) := upd s (fun d => d.trainingDone s.now p)
def execTrainingTimeout (p : Nat) (s : State) := upd s (fun d => d.trainingTimeout s.now p)
def execTrainingRetry (p : Nat) (s : State) := upd s (fun d => d.trainingRetry s.now p)
def execHello (p src : Nat) (s : State) := upd s (fun d => d.hello s.now p src)
def execKyDevIdWrite (id : Nat) (s : State) := upd s (fun d => d.devIdWrite s.now id)
def execFrameReceive (p seq : Nat) (crc : Nat) (f : Frame) (s : State) := upd s (fun d => d.frameReceive s.now p seq crc f)
def execPut (f : Frame) (s : State) := upd s (fun d => d.remoteWrite s.now false f)
def execCwrite (f : Frame) (s : State) := upd s (fun d => d.remoteWrite s.now true f)
def execWack (f : Frame) (s : State) (acc : List AccessErr := []) :=
  upd s (fun d => d.withEnv [] acc (fun d => d.writeAnswer s.now f true))
def execWref (f : Frame) (s : State) := upd s (fun d => d.writeAnswer s.now f false)
def execAck (p lseq : Nat) (s : State) := upd s (fun d => d.ackFrame s.now p lseq)
def execNak (p lseq : Nat) (s : State) := upd s (fun d => d.nakFrame s.now p lseq)
def execCredit (p vc n : Nat) (s : State) := upd s (fun d => d.creditFrame s.now p vc n)
def execCreditReport (p : Nat) (s : State) := upd s (fun d => d.creditReport p)
def execReplayTimeout (p : Nat) (s : State) := upd s (fun d => d.replayTimeout s.now p)
def execKyRetrain (p lseq : Nat) (free : List Nat) (s : State) := upd s (fun d => d.retrainEnds s.now p lseq free)
def execKyLaneSpare (p lane lseq : Nat) (free : List Nat) (s : State) := upd s (fun d => d.laneSpare s.now p lane lseq free)
def execRetrainTimeout (p : Nat) (s : State) := upd s (fun d => d.retrainTimeout s.now p)
def execKySlow (p vc : Nat) (s : State) := upd s (fun d => d.kySlow s.now p vc)
def execSlowClear (p : Nat) (s : State) := upd s (fun d => d.slowClear s.now p)
def execSelectiveAck (dev vc low : Nat) (map : BitVec 256) (s : State) := upd s (fun d => d.selectiveAck s.now dev vc low map)
def execSelectiveAckSend (dev vc : Nat) (s : State) := upd s (fun d => d.selectiveAckSend s.now dev vc)
def execE2eResend (dev vc : Nat) (s : State) := upd s (fun d => d.e2eResend s.now dev vc)
def execKyRtDataWrite (v : Word) (s : State) := upd s (fun d => d.rtDataWrite v.toNat)
def execWindowWriteCounted (win : Nat) (res : ReqOutcome) (s : State) (ctl : List ReqOutcome := []) (acc : List AccessErr := []) :=
  upd s (fun d => d.withEnv ctl acc (fun d => d.winCounted s.now win res))
def execTsyncPeriod (s : State) := upd s (fun d => d.tsyncPeriod s.now)
def execTsync (p src : Nat) (t1 : Word) (s : State) := upd s (fun d => d.tsync s.now p src t1.toNat)
def execTdreq (p src : Nat) (s : State) := upd s (fun d => d.tdreq s.now p src)
def execTdrsp (p src : Nat) (t4 : Word) (s : State) : Host.Outcome State Fault Refusal := .next (tdrspState s p src t4.toNat)

end Sys2Proof.Machine
end

