-- ==== Sys2Proof/Machine/Discard.lean ====
section
/-!
DEFINITION. Sys2Proof/Machine/Discard.lean: completion records in ring order (R115, R121), and the discard of a scope:
DISCARDED records (R126 to R129), clerks and requests (R532, R681), windows and readers (R656, R657), seal and flush
(R378 to R382), and what a discard does to steps, plans and snapshots (R390, R728, R925).
-/

namespace Sys2Proof.Machine

/-! ### Records (R115 to R123, R958) -/

/-- The status and DETAIL with which the oldest docket of a ring completes, and what its completion changes (R700 to
R710); `none` while its record is not ready. -/
def Dev.recordOf (d : Dev) (x : Docket) : Option (Nat × Nat × Dev) :=
  match x.stage with
  | .ended st det =>
    if x.opcode = 2 ∧ (st = St.OK ∨ st = St.TIER_ERROR) then
      (d.runOutcome x st det).map (fun o => (o.1, o.2, d.completeRun x o.1))
    else some (st, det, match x.total with
      | some s => d.latchTotal s.1 s.2
      | none => d)
  | _ => none

/-- Does the record of a SNAPSHOT that has run wait to be written (R1095)? -/
def Dev.snapUnrecorded (d : Dev) : Bool := (d.ring deviceRing).q.any (fun x => x.opcode == 8 && x.began && x.stage != .begun)

/-- The capture point of a SNAPSHOT that becomes the oldest (R912), once the one before it has its record (R915, R1095). -/
def Dev.setPoint (d : Dev) (t : Nat) : Dev := match d.snaps with
  | [] => d
  | x :: rest =>
    if x.point.isSome ∨ d.snapUnrecorded then d
    else { d with snaps := { x with point := some (if d.between then d.boundaries else d.boundaries + 1), heldAt := t } :: rest }

/-- A step boundary that is the capture point of the oldest SNAPSHOT begins its hold (R912, R913); with no SNAPSHOT in execution it
begins the one that AUTO_PEND asks for (R929). -/
def Dev.noteBoundary (d : Dev) (t : Nat) : Dev := match d.snaps with
  | [] =>
    if d.flag P.snapshot F.SN_STAT.AUTO_PEND && !d.snapUnrecorded && decide (d.rd P.snapshot F.SN_CTL.AUTO_GAP ≤ d.capGap) &&
        d.kill.isNone && !d.noService then
      { d.wr P.snapshot F.SN_STAT.AUTO_PEND 0 with pr.autoDue := some t }
    else d
  | x :: rest => if x.point = some d.boundaries ∧ !x.capturing ∧ !x.captured then { d with snaps := { x with heldAt := t } :: rest } else d

/-- Does a record of DISCARDED wait on a ring? -/
def Ring.discardWaits (r : Ring) : Bool := r.q.any (fun x => match x.stage with
  | .ended st _ => st == St.DISCARDED
  | _ => false)

/-- R129: a ring of a discard is STOPPED once its DISCARDED records are written. A KILL turns records that still wait on a full
ring into KILLED: whether the discard's stop is still owed the spec does not say; DESIGN CHOICE, log entry 107: it is, at the
next record, also after a RESTART. -/
def Dev.settleStop (d : Dev) (k : Nat) : Dev :=
  let r := d.ring k
  if r.stopping ∧ !r.discardWaits then (d.putRing k { r with stopping := false }).wr (P.ring k) F.DK_RING_STAT.STOPPED 1 else d

/-- COMPLETION_WRITE: the record of the oldest docket of ring `k`, when it is ready, the host link is up and there is
room. -/
def Dev.recordNext (d : Dev) (t k : Nat) : Dev :=
  match (d.ring k).q with
  | [] => d
  | x :: rest =>
    match d.recordOf x with
    | none => d
    | some (st, det, d') =>
      if !d.hostUp then d
      else if d.cplFull k then d.raiseBit (P.ring k) F.DK_RING_STAT.CPL_FULL 0
      else
        let d' := if d'.boundaries > d.boundaries then d'.noteBoundary t else d'
        ((d'.putRing k { d'.ring k with q := rest }).writeRecord t k x.seq st x.tag det x.irq).settleStop k |> fun d => if x.opcode = 8 then d.setPoint t else d

/-- Every record of ring `k` that can be written. -/
def Dev.writeRecords (d : Dev) (t k : Nat) : Nat → Dev
  | 0 => d
  | fuel + 1 =>
    let e := d.recordNext t k
    if (e.ring k).q.length < (d.ring k).q.length then e.writeRecords t k fuel else e

/-! ### The dockets of a ring -/

/-- Where the docket with index `n` of ring `k` stands: near tier or host memory, and its address (DK_RING_BASE). DESIGN
CHOICE, log entry 87: R104 binds the host, and a base that breaks it is used as it stands: BASE × 4096 + index × 64. -/
def Dev.ringSlot (d : Dev) (k n : Nat) : Bool × Nat :=
  let p := P.ring k
  (d.flag p F.DK_RING_BASE.LOC, d.rd p F.DK_RING_BASE.BASE * 4096 + n % 2 ^ d.rd p F.DK_RING_CFG.LOG2_SIZE * 64)

/-- The TAG of a docket that was announced and not fetched, which is all that R127 and R52 read of it; where that read
fails, the spec gives the record no TAG: a free value (log entry 82). -/
def Dev.tagBytes (d : Dev) (k n : Nat) : List Byte × Dev :=
  let a := d.ringSlot k n
  match d.controlBytes a.1 (a.2 + 8) 8 with
  | .ok bs => (bs, d)
  | .error _ => d.freeBytes 8

/-- The next announced docket ends unfetched with a status: its record names EXPECT_SEQ, and HEAD and EXPECT_SEQ advance
by one (R52, R127). -/
def Dev.endUnfetched (d : Dev) (k status detail : Nat) : Dev :=
  let r := d.ring k
  let seq := d.rd (P.ring k) F.DK_RING_CTL.EXPECT_SEQ
  let tag := d.tagBytes k r.headN
  let d := tag.2
  let x : Docket := { n := r.headN, bytes := List.replicate 8 0 ++ tag.1, seqOf := some seq, snap := [], stage := .ended status detail }
  (d.putRing k { r with headN := r.headN + 1, q := r.q ++ [x] }).wr (P.ring k) F.DK_RING_CTL.EXPECT_SEQ (seq + 1)

def Dev.endAllUnfetched (d : Dev) (k status detail : Nat) : Nat → Dev
  | 0 => d
  | n + 1 => (d.endUnfetched k status detail).endAllUnfetched k status detail n

/-- How many dockets of a ring count as announced when a discard begins: a doorbell of the same MCLK cycle comes after
it (R131). -/
def Dev.announced (d : Dev) (k : Nat) : Nat :=
  let r := d.ring k
  match Tbl.get noNat d.cyc.belled k with
  | 0 => r.tailN
  | n + 1 => max n r.headN

/-- Every docket of ring `k` without a record, up to the last announced one, ends with a status, but those that `keep`
names (R126, R127, R136). -/
def Dev.absorb (d : Dev) (k status detail : Nat) (keep : Docket → Bool) : Dev :=
  let r := d.ring k
  let last := d.announced k
  let d := d.putRing k { r with q := r.q.map (fun x => if keep x then x else { x with stage := .ended status detail, total := none }) }
  let d := d.endAllUnfetched k status detail (last - r.headN)
  d.putRing k { d.ring k with anns := (d.ring k).anns.filter (fun a => decide (last < a.1)) }

/-! ### Which work uses what -/

/-- The spans whose units a docket in execution uses (R128; SNAPSHOT and RESTORE use none, R925). -/
def Dev.docketSpans (d : Dev) (x : Docket) : List Nat :=
  match x.opcode with
  | 1 => allSpans
  | 2 => spansOf (rsMask x)
  | 3 => (d.caMover x).toList
  | 4 => (d.caMover x).toList
  | 5 => (d.caMover x).toList
  | 11 => (match d.bistWin with | some w => w.spans | none => [])
  | 12 => allSpans
  | _ => []

/-- The units that serve accesses to a device address, by its leaf entry: near channels, the far-tier path, or the
scratchpad tiles of a span. -/
def Dev.leafUnits (d : Dev) (a : Nat) : List Nat := match d.walk a with
  | .ok (e, _) =>
    if eTier e = 0 then d.present.map P.nmChannel
    else if eTier e = 1 then (d.presentIn (eSpan e)).map P.nmChannel
    else if eTier e ≤ 3 then [P.farPath]
    else (List.range 32).map (spPath (eSpan e))
  | .error _ => []

/-- The fabric that the work of a span passes through: its network, scratchpad tiles and I/O tiles. -/
def spanFabric (s : Nat) : List Nat := P.trestle s :: ((List.range 32).map (spPath s) ++ (List.range 4).map (P.io s))

/-- An address in each 2 MiB page that `n` bytes from device address `a` touch. -/
def pagesOf (a n : Nat) : List Nat := (List.range ((a % MiB2 + n + MiB2 - 1) / MiB2)).map (fun i => a + i * MiB2)

/-- The units that a STREAM, FETCH or OFFLOAD uses: its Carter, the span's cache and fabric, the placement table, and what
serves the pages that it reads and writes. -/
def Dev.carterUnits (d : Dev) (x : Docket) (s : Nat) : List Nat :=
  let second := if isFill x ∨ (x.opcode = 4 ∧ !caKind x) then [] else pagesOf (x.field 0x20 8) (caBytes x)
  [P.carter s, P.spanCache s, P.placement] ++ spanFabric s ++ (pagesOf (x.field 0x10 8) (caBytes x) ++ second).flatMap d.leafUnits

/-- The units that a REDUCE uses: the Counting-house, Kyino, and the amax/scale table (AMAX_MAX) or what serves the pages of
its buffer. -/
def Dev.reduceUnits (d : Dev) (x : Docket) : List Nat :=
  let n := if rdOp x = 4 then rdCount x else bytesFor (rdDtype x) (rdCount x)
  P.countingHouse :: P.kyino ::
    (if rdOp x = 3 then [P.amax] else P.placement :: (pagesOf (x.field 0x10 8) n).flatMap d.leafUnits)

/-- The units that a docket in execution on ring `k` uses (R86): its ring, and what its work runs on or passes through. -/
def Dev.docketUnits (d : Dev) (k : Nat) (x : Docket) : List Nat :=
  let spans := d.docketSpans x
  P.ring k :: (match x.opcode with
  | 1 => P.joints :: spans.flatMap spanUnits
  | 2 =>
    (match d.run k x.n with | some r => r.waiting ++ r.active | none => []) ++
      spans.flatMap (fun s => P.ledger s :: spanFabric s) ++ (if spans.length > 1 then [P.joints] else [])
  | 3 | 4 | 5 => spans.flatMap (d.carterUnits x)
  | 6 => d.reduceUnits x
  | 8 =>
    [P.snapshot] ++ (if d.snaps.any (fun (y : Snap) => match y.buddy with | .stage _ => true | _ => false) then [P.kyino] else []) ++
      (if d.snaps.any (fun (y : Snap) => match y.far with | .stage _ => true | _ => false) then [P.farPath] else [])
  | 9 => [P.snapshot, P.placement]
  | 11 => P.bist :: spans.flatMap spanUnits
  | 12 => P.nearMgr :: (spans.flatMap spanUnits ++ d.present.map P.nmChannel)
  | _ => [])

/-- Do units that work `x` uses lie in the unit `p` or a descendant of it (R86)? A collective uses every Kyino port. -/
def usesUnit (us : List Nat) (x : Docket) (p : Nat) : Bool :=
  us.any (fun u => isWithin p u) || (x.opcode == 6 && kindOf p == some .kyPort)

/-- Does a docket in execution on ring `k` use unit `p` or a descendant of it (R86)? -/
def Dev.docketUses (d : Dev) (k : Nat) (x : Docket) (p : Nat) : Bool := usesUnit (d.docketUnits k x) x p

/-- A posted sub-docket as a docket; its SEQ is its parent's (R522). -/
def Sub.docket (b : Sub) : Docket := { n := 0, bytes := b.bytes, seqOf := some b.parent.seq, snap := [], stage := .fetched }

/-- The units that a sub-docket uses: its clerk, Carter, and what its command runs on or passes through. -/
def Dev.subUnits (d : Dev) (b : Sub) : List Nat :=
  b.clerk :: P.carter b.span :: (match b.docket.opcode with
  | 3 | 4 | 5 => d.carterUnits b.docket b.span
  | 6 => d.reduceUnits b.docket
  | _ => [])

/-- Has a unit or a descendant work in flight (R86)? -/
def Dev.workInFlight (d : Dev) (p : Nat) : Bool :=
  d.inExecution.any (fun x => d.docketUses x.1 x.2 p) ||
  d.reqs.any (fun r => isWithin p r.path) ||
  d.subs.any (fun b => (match b.stage with | .ended _ _ => false | _ => true) && usesUnit (d.subUnits b) b.docket p)

/-! ### Stopping the work of a scope -/

/-- The accumulators of an engine's tile when a discard cuts off the MMA or LDA that writes them, some of its rows having
come: the spec does not say how many of its steps they hold: free values (log entry 50). -/
def Dev.cutOff (d : Dev) (p : Nat) : Dev :=
  let m := d.me p
  match m.op with
  | none => d
  | some o =>
    let i := o.instr
    let mma := decide (opcodeOf i = 1)
    if o.fetch.got = [] ∨ !(mma || opcodeOf i == 5) then d
    else
      let f := d.freeBytes 65536
      let b : Bank := {
        m := tileRows (if mma then mmaRes i else ldaTgt i) (if mma then mmaM i else ldaM i)
        n := if mma then mmaN i else ldaN i
        isInt := if mma then fmtIsInt (cfgFmtA o.cfg) else ldaClass i
        aEnt := cfgAEnt o.cfg
        bEnt := cfgBEnt o.cfg
        words := tileWords ((List.range 16384).map (fun j => (j, { code := natOfBytes ((f.1.drop (4 * j)).take 4), ovf := false, unf := false }))) }
      if (if mma then mmaRes i else ldaTgt i) then f.2.putMe p { m with cells := b }
      else f.2.putMe p (m.setBank (if mma then mmaBank i else ldaBank i) b)

/-- A tile program stops; a source whose drain was reading stays FULL, and the drain queue empties (log entry 50). -/
def Dev.stopUnit (d : Dev) (p : Nat) : Dev :=
  match kindOf p with
  | some .clerk => if d.flag p F.GC_STAT.RUNNING || d.flag p F.GC_STAT.HALTED then d.clerkIdle p else d
  | some .sf => (d.putSf p { d.sf p with op := none, part := none }).tileStop p
  | some .me | some .spare =>
    let m := d.me p
    let d := m.drains.foldl (fun d q =>
      if q.reading then d.wr p (if drSrc q.instr then F.ME_STAT.SHADOW else bankFld (drBank q.instr)) (if drSrc q.instr then 1 else 2)
      else d) d
    let d := d.cutOff p
    (d.putMe p { d.me p with op := none, drains := [], ending := false, part := none }).tileStop p
  | _ => d

/-- Is a request one of the scope (R681)? -/
def reqIn (spans : List Nat) (whole : Bool) (r : Req) : Bool :=
  whole || (isSpanPath r.path && spans.contains (spanOf r.path))

/-- Requests of discarded work: a held one is released (R681), one for a row of a tile vanishes with the flits of the scope, another
stays outstanding for nobody (R384, R488). -/
def releaseReqs (gone : Req → Bool) (rs : List Req) : List Req :=
  (rs.filter (fun r => !(gone r && (r.held || r.tier == 4)))).map (fun (r : Req) => if gone r then { r with kind := 7, owner := .nobody } else r)

/-- No fill of the spans writes any more: FILLING is 0 in each of their windows (R672). -/
def Dev.clearFilling (d : Dev) (spans : List Nat) : Dev :=
  { d with regs := d.regs.filter (fun c => !(kindOf (keyPath c.1) == some .carter && spans.contains (spanOf (keyPath c.1)) &&
      keyOff c.1 == F.CA_WIN_STAT.FILLING.off && keyLo c.1 == F.CA_WIN_STAT.FILLING.lo)) }

/-- R656, R657: fills into the spans stop, their readers are clear, and their windows want RESTART. -/
def Dev.stopWindows (d : Dev) (spans : List Nat) : Dev :=
  { d.clearFilling spans with
    fills := d.fills.filter (fun f => match d.winDecl f.win with | some w => !spans.contains w.span | none => true)
    readers := d.readers.filter (fun c => !spans.contains (spanOf (c.1 / 1024)))
    needRestart := (spans ++ d.needRestart).eraseDups
    restarted := d.restarted.filter (fun k => !spans.contains (k / 1024)) }

/-- Work that zeroes near-tier pages stops with its docket: NM_ZERO_STAT.BUSY is 1 only while one is in execution (R632). -/
def Dev.stopZeroing (d : Dev) (gone : Owner → Bool) : Dev := match d.nmScrub with
  | some (k, n) => if gone (.ring k n) then { d.wr P.nearMgr F.NM_ZERO_STAT.BUSY 0 with nmScrub := none } else d
  | none => d

/-- All work of a scope stops: what belongs to the owners that `gone` names, and what runs on units of the spans. The stalls of
the spans end (R684). -/
def Dev.stopWork (d : Dev) (t : Nat) (spans : List Nat) (whole : Bool) (gone : Owner → Bool) : Dev :=
  let d := spans.foldl (fun d s => (spanUnits s).foldl Dev.stopUnit d) d
  let d := (spans.foldl (fun d s => d.endStall t s) (d.stopWindows spans)).stopZeroing gone
  let d := (d.fills.filter (fun f => gone f.owner)).foldl (fun d f => match d.winDecl f.win with
    | some w => d.wri (P.carter w.span) w.num F.CA_WIN_STAT.FILLING 0
    | none => d) d
  let d := { d with
    runs := d.runs.filter (fun r => !gone (.ring r.ring r.n))
    fills := d.fills.filter (fun f => !gone f.owner)
    copies := d.copies.filter (fun c => !gone c.owner && !spans.contains c.span)
    decomps := d.decomps.filter (fun x => !gone x.owner && !spans.contains x.span)
    colls := d.colls.filter (fun c => !gone c.owner)
    subs := d.subs.filter (fun b => !spans.contains b.span)
    reqs := releaseReqs (fun r => gone r.owner || reqIn spans whole r) d.reqs
    restoring := (match d.restoring with | some n => if gone (.ring deviceRing n) then none else d.restoring | none => none) }
  d

/-- Held window writes end uncounted with a discard of their I/O tile's scope (R1102). -/
def Dev.endHeldWrites (d : Dev) (t : Nat) (spans : List Nat) : Dev :=
  (d.winWrites.filter (fun w => w.held && spans.contains w.span)).foldl (fun d w => d.endUncounted t w) d

/-- Seal and flush of a discard or substitution (R378, R379, R388); UNSEAL ends it. -/
def Dev.sealFlush (d : Dev) (t : Nat) (spans : List Nat) (whole : Bool) : Dev :=
  let d := d.setPhase spans 3
  let d := if whole then d.wr P.joints F.TR_STAT.PHASE 3 else d
  d.flush t spans (if whole then P.joints else P.trestle (spans.headD 0))

/-- R852, R853: PHASE reads RECOVERY in place of SERVICE while a ladder step runs or a RESTORE is in execution; a direct action
is no ladder step. -/
def Dev.updatePhase (d : Dev) : Dev :=
  let busy := d.ladders.any (fun l => l.begun && l.waiting.isNone && !l.direct) || d.restoring.isSome
  let ph := d.rd P.tollhouse F.FC_PHASE.PHASE
  if busy ∧ ph = 1 then d.wr P.tollhouse F.FC_PHASE.PHASE 3
  else if !busy ∧ ph = 3 then d.wr P.tollhouse F.FC_PHASE.PHASE 1
  else d

/-- A LOAD_PLAN that a fault ends, in whichever phase, leaves no plan (R390), once the flush has counted the old plan's flits
(R379); what is sealed waits for UNSEAL. -/
def Dev.abandonLoad (d : Dev) : Dev :=
  match d.load with
  | none => d
  | some _ => { d.clearNetwork with load := none, planDigest := 0 }

/-- A BIST_WINDOW that a discard ends: its slices are abandoned and PHASE returns (R853, R881). -/
def Dev.abandonWindow (d : Dev) : Dev :=
  match d.bistWin with
  | none => d
  | some w =>
    let d := ((d.slices.filter (fun x => x.window)).map (fun x => x.path)).foldl Dev.abandonSlice d
    { d with bistWin := none }.wr P.tollhouse F.FC_PHASE.PHASE w.phase

/-- R728: does a docket that a discard completes belong to the current step? -/
def Dev.breaksStep (d : Dev) (x : Docket) : Bool := x.opcode == 2 && x.seqOf.isNone && rsStep x == d.stepNo

/-- Every SNAPSHOT ends: no capture and no sending is in progress (R925). -/
def Dev.dropSnaps (d : Dev) : Dev := { (d.wr P.snapshot F.SN_STAT.CAPTURING 0).wr P.snapshot F.SN_STAT.SENDING 0 with snaps := [], pr.autoDue := none }

/-- The rings that a fault of the scope affects (R128): those of its spans, and the device ring when a docket in execution
on it uses a unit of the scope; every unit is one of device scope. -/
def Dev.affected (d : Dev) (spans : List Nat) (whole : Bool) (k : Nat) : Bool :=
  if k = deviceRing then
    (d.ring k).q.any (fun x => x.begun && (whole || (d.docketUnits k x).any (fun u => isSpanPath u && spans.contains (spanOf u))))
  else spans.contains (ringSpan k)

/-- R1096: while KILL is active, a docket that it has completed keeps KILLED. -/
def Dev.keepsKilled (d : Dev) (x : Docket) : Bool := d.kill.isSome && (match x.stage with | .ended st _ => st == St.KILLED | _ => false)

/-- The records that a discard has made ready are written as far as there is room, and the ring stops after the last one
(R121, R129). -/
def Dev.stopAfterRecords (d : Dev) (t k : Nat) : Dev :=
  let d := d.putRing k { d.ring k with stopping := true }
  (d.writeRecords t k (d.ring k).q.length).settleStop k

/-- A discard of a scope (R126 to R129, R866): `slot` is the DETAIL of its records. A SNAPSHOT in execution survives a
discard of span scope (R925), and the KILL that runs survives both. -/
def Dev.discard (d : Dev) (t : Nat) (spans : List Nat) (whole : Bool) (slot : Nat) : Dev :=
  let rings := (List.range 33).filter (d.affected spans whole)
  let keep (k : Nat) (x : Docket) : Bool := d.keepsKilled x || (k == deviceRing && x.begun &&
    ((x.opcode == 8 && !whole) || x.opcode == 10))
  let broken := rings.any (fun k => (d.ring k).q.any d.breaksStep)
  let kept := (d.ring deviceRing).q.filter (keep deviceRing)
  let gone : Owner → Bool := fun o => match o with
    | .ring k n => rings.contains k && !(k == deviceRing && kept.any (fun x => x.n == n))
    | .sub s _ => spans.contains s
    | .nobody => false
  let dev := rings.contains deviceRing
  -- a LOAD_PLAN that ends takes the whole network with it (R390)
  let all := whole || (dev && d.load.isSome)
  let d := if broken then d.wr P.dkCtl F.DK_ACC.BROKEN 1 else d
  let d := rings.foldl (fun d k => d.absorb k St.DISCARDED slot (keep k)) d
  let d := (d.stopWork t spans whole gone).endHeldWrites t spans
  let d := if whole then d.dropSnaps else d
  let d := d.sealFlush t (if all then allSpans else spans) all
  let d := if dev then d.abandonLoad.abandonWindow else d
  (rings.foldl (fun d k => d.stopAfterRecords t k) d).updatePhase

/-- The discard of the scope of a unit (R863): its span, or the device. -/
def Dev.discardUnit (d : Dev) (t p slot : Nat) : Dev :=
  if isSpanPath p then d.discard t [spanOf p] false slot else d.discard t allSpans true slot

end Sys2Proof.Machine
end

