-- ==== Sys2Proof/Machine/Scrub.lean ====
section
/-!
DEFINITION. Sys2Proof/Machine/Scrub.lean: what KILL's phases 2 to 4 clear (R389, R487 to R493, R536, R723, R780), which
the entry to NO_SERVICE does to the units still ON (R48), and the minimum service set (R42 to R49).
-/

namespace Sys2Proof.Machine

/-! ### Phases 2 to 4 of KILL -/

/-- The clear of phase 2 (R389): no circuits, tile programs, Tollgates or descriptors stay, nor the plan. A substitution
stays (R322). -/
def Dev.clearPlan (d : Dev) : Dev :=
  { d.clearNetwork with
    readers := []
    fills := []
    load := none
    planDigest := 0
    mes := d.mes.filterMap (fun (c : Nat × MeSt) =>
      let m : MeSt := { c.2 with prog := [], progBuf := 0 }
      if m = ({} : MeSt) then none else some (c.1, m))
    sfs := d.sfs.filterMap (fun (c : Nat × SfSt) =>
      let m : SfSt := { c.2 with prog := [], progBuf := 0 }
      if m = ({} : SfSt) then none else some (c.1, m)) }

/-- The network is open again, under its next epochs (R382). -/
def Dev.openAll (d : Dev) : Dev := (d.unsealSpans allSpans).wr P.joints F.TR_STAT.PHASE 0

/-- Phase 2 at once, as NO_SERVICE runs it over the units still ON (R48): sealed, flushed, cleared, and opened unless R383
makes it wait: then UNSEAL opens it. -/
def Dev.clearFabric (d : Dev) (t : Nat) : Dev :=
  let d := ((d.setAllPhases 3).flush t allSpans P.joints).clearPlan
  if d.epochBusy allSpans then d else d.openAll

/-- Phase 3, first half (R487, R491): every window closes and accepted writes that have not ended are abandoned, with the
requests of theirs that are held. -/
def Dev.closeWindows (d : Dev) : Dev :=
  { d with
    winWrites := []
    reqs := releaseReqs (fun r => r.kind == 4) d.reqs
    regs := d.regs.filter (fun c => !(keyPath c.1 == P.kyWindows && keyOff c.1 == F.KY_WIN_CTL.OPEN.off && keyLo c.1 == F.KY_WIN_CTL.OPEN.lo)) }

/-- Is any tier request outstanding (phase 3)? Requests of discarded work count: they end by reply or lifetime. -/
def Dev.reqsOutstanding (d : Dev) : Bool := d.reqs.any (fun r => !r.held)

/-- Rows of a scratchpad tile become zero, and its tags take INIT's state (R433, R441). -/
def Dev.zeroTile (d : Dev) (p : Nat) : Dev :=
  let k := spanOf p * 32 + tileNo p
  { d.initTags p with
    spad := d.spad.filter (fun c => c.1 / 2 ^ 23 != k)
    spFix := d.spFix.filter (fun x => x / 2 ^ 14 != p)
    spReqs := Tbl.set noReqs d.spReqs p []
    apQ := d.apQ.filter (fun a => aperturePath a.off != p) }

/-- The numeric counters and the trap record of a unit (R236). -/
def Dev.zeroNumeric (d : Dev) (p : Nat) : Dev := ((d.clearTrap p).wr p F.OVF_CNT.COUNT 0).wr p F.UNF_CNT.COUNT 0

/-- The parameter registers, the generator and the update control of an SF tile at their reset values (R568). -/
def Dev.zeroSfRegs (d : Dev) (p : Nat) : Dev :=
  d.clearRegsBut p (fun off => !([F.SF_PREG_DATA.VALUE.off, F.SF_UPD_CTL.SKIP.off, F.RNG_SEED.SEED.off, F.RNG_STREAM.STREAM.off,
    F.RNG_POS.POS.off].contains off))

/-- Phase 4 on one unit. R568 names every generator register: an engine's among them (DEDUCED, log entry 90). -/
def Dev.scrubUnit (d : Dev) (p : Nat) : Dev :=
  match kindOf p with
  | some .sp => d.zeroTile p
  | some .me | some .spare =>
    let d := ((d.putMe p {}).tileStop p).zeroNumeric p
    let d := (((d.wr p F.ME_STAT.BANK_A 0).wr p F.ME_STAT.BANK_B 0).wr p F.ME_STAT.SHADOW 0).wr p F.ME_STAT.CELLS_HELD 0
    ((d.wr p F.RNG_SEED.SEED 0).wr p F.RNG_STREAM.STREAM 0).wr p F.RNG_POS.POS 0
  | some .sf => (((d.putSf p {}).tileStop p).zeroNumeric p).zeroSfRegs p
  | some .clerk =>
    let d := (d.clerkIdle p).putClerk p {}
    { d with regs := d.regs.filter (fun c => !(keyPath c.1 == p && (keyOff c.1 == F.TRAP0.VALID.off || keyOff c.1 == F.TRAP1.RING.off ||
        keyOff c.1 == F.TRAP2.M.off || keyOff c.1 == F.TRAP3.TIME.off || keyOff c.1 == F.GC_TRAP_PC.PC.off))) }
  | some .spanCache => d.putCache (spanOf p) []
  | some .ledger => { d with regs := d.regs.filter (fun c => !(keyPath c.1 == p &&
      (keyOff c.1 == F.LG_COUNTER.VALUE.off || keyOff c.1 == F.LG_START.START.off))) }
  | some .kyWindows => d.clearRegsBut p (fun off => decide (off < F.KY_WIN_CTL.OPEN.off))
  | some .amaxTable => ({ d with amax := [], roll := none } : Dev).wr P.amax F.CH_AMAX_ROLL.BUSY 0
  | _ => d

/-- Every unit that phase 4 covers. -/
def scrubList : List Nat := allSpans.flatMap spanUnits ++ [P.kyWindows, P.amax]

/-- Phase 4 over the units that `f` names. -/
def Dev.scrub (d : Dev) (f : Nat → Bool) : Dev := (scrubList.filter f).foldl Dev.scrubUnit d

/-- R780: phase 4 clears the strikes of every source. -/
def Dev.clearStrikes (d : Dev) : Dev :=
  { d with regs := d.regs.filterMap (fun (c : Nat × Nat) =>
    if keyPath c.1 = P.kyino ∧ keyOff c.1 = F.KY_RT_DATA.ENTRY.off then
      (let e := c.2 - rtStrikes c.2 * 2 ^ 24
       if e = 0 then none else some (c.1, e))
    else some c) }

/-- What KILL resets beside the units (R493, R582, R723, R780, R797, R949): translation caches, the plan store in the device
reserve (R594), step state, strikes, group sequences, AUTO_PEND. -/
def Dev.killTables (d : Dev) : Dev :=
  let d := { d.clearAccum with
    between := true
    early := []
    tcache := []
    near := d.near.filter (fun c => !(decide (46016 ≤ c.1 % 2 ^ 37 / MiB2) && decide (c.1 % 2 ^ 37 / MiB2 < 46032)))
    regs := d.clearAccum.regs.filter (fun c =>
      !(keyPath c.1 == P.dkCtl && decide (F.DK_STEP.STEP.off ≤ keyOff c.1)) &&
      !(keyPath c.1 == P.countingHouse && keyOff c.1 == F.CH_GRP_SEQ.SEQ.off)) }
  d.clearStrikes.wr P.snapshot F.SN_STAT.AUTO_PEND 0

/-! ### The minimum service set (R42 to R49) -/

/-- Some unit of a kind in service in span `s`; an engine whose position a spare serves counts (R42). -/
def Dev.spanServes (d : Dev) (s : Nat) : Bool :=
  let tiles := (List.range 4).flatMap (bayTiles s)
  let some_ (k : UKind) : Bool := tiles.any (fun p => kindOf p == some k && d.inService p)
  let spare := P.spare s
  (some_ .me || (d.flag spare F.ME_REMAP.ACTIVE && d.inService spare)) && some_ .clerk && some_ .sp && some_ .io

def Dev.serviceMet (d : Dev) : Bool :=
  [P.boot, P.mgmt, P.hostIf, P.regFabric, P.tollhouse].all d.inService && allSpans.any d.spanServes &&
  (d.present.any (fun k => d.inService (P.nmChannel k)) || d.flag P.hostIf F.HI_LINK_STAT.UP0 || d.flag P.hostIf F.HI_LINK_STAT.UP1)

/-- A docket whose work R47 discards: in execution, or ended with its record held. R47 names a record held under R115; one
that waits for room (R121) or for the host link is taken in too, as R126 and R136 have it (DESIGN CHOICE, log entry 89). -/
def Docket.doneOrBegun (x : Docket) : Bool := match x.stage with
  | .fetched => false
  | _ => true

/-- NO_SERVICE is entered (R46 to R49): dockets in execution complete with DISCARDED and no ring stops; the units still ON
are scrubbed. A KILL in execution runs on, and what it has completed keeps KILLED (R1096). -/
def Dev.enterNoService (d : Dev) (t : Nat) : Dev :=
  let rings := List.range 33
  let stays (k : Nat) (x : Docket) : Bool := d.keepsKilled x || (d.kill.isSome && k == deviceRing && x.begun && x.opcode == 10)
  let broken := rings.any (fun k => (d.ring k).q.any (fun x => x.doneOrBegun && !stays k x && d.breaksStep x))
  let begun (k n : Nat) : Bool := match d.docket k n with
    | some x => x.doneOrBegun && !stays k x
    | none => true
  let gone : Owner → Bool := fun o => match o with
    | .ring k n => begun k n
    | .sub _ _ => true
    | .nobody => false
  let d := if broken then d.wr P.dkCtl F.DK_ACC.BROKEN 1 else d
  let d := rings.foldl (fun d k => d.putRing k { d.ring k with q := (d.ring k).q.map (fun x =>
    if x.doneOrBegun && !stays k x then { x with stage := .ended St.DISCARDED noSlot, total := none } else x) }) d
  let d := d.stopWork t allSpans true gone
  let d := { d.abandonWindow.dropSnaps with noService := true, apQ := [] }
  let d := (d.clearFabric t).closeWindows
  let d := { d with reqs := releaseReqs (fun _ => true) d.reqs }
  let d := { (d.scrub d.on).clearStrikes with tcache := [] }
  (d.setState t P.root U.NO_SERVICE).updatePhase

/-- R43, R44: the set is evaluated; leaving it during service enters NO_SERVICE. -/
def Dev.evalService (d : Dev) (t : Nat) : Dev :=
  if d.flag P.boot F.BT_STAT.READY ∧ !d.noService ∧ !d.serviceMet then d.enterNoService t else d

end Sys2Proof.Machine
end

