-- ==== Sys2Proof/Machine/Units.lean ====
section
/-!
DEFINITION. Sys2Proof/Machine/Units.lean: unit states (R78 to R94): enable and disable, start, drain, block reset, fence
and release (R84 to R91, R1089 to R1092), failure (R80), and the spare engines (R311 to R323).
-/

namespace Sys2Proof.Machine

/-! ### Resetting a unit -/

/-- Registers that a reset of a unit keeps: UNIT_CTL and UNIT_STAT (R87 to R89), a ring's (R1092), a spare's substitution
(R322, R867), presence and remaps of the near tier, TR_STAT, delivery counts, and the clock and power state. -/
def keptOnReset (p off : Nat) : Bool :=
  off == 0x10 || off == 0x18 ||
  (match kindOf p with
   | some .ring => [0x40, 0x48, 0x60, 0x68, 0x78, 0x80, 0x88].contains off || off == F.DK_RING_STAT.STOPPED.off
   | some .spare => off == 0xC0 || off == 0xC8
   | some .nmChannel => off == 0x40 || off == 0x78
   | some .trestle => off == 0x40
   | some .joints => off == 0x40
   | some .carter => off == 0xB0
   | some .clocks => true
   | some .power => [0x40, 0x48, 0x50, 0x58, 0x78, 0x88, 0x90, 0x98].contains off
   | _ => false)

/-- What a kind of unit holds beside its registers, at reset. Tile programs and clerk memories stay; TG_STAT shows the Tollgates
of an I/O tile, which its reset leaves without operation. -/
def Dev.resetHeld (d : Dev) (p : Nat) : Dev :=
  match kindOf p with
  | some .me | some .spare => d.putMe p { prog := (d.me p).prog }
  | some .sf => d.putSf p { prog := (d.sf p).prog }
  | some .clerk => d.putClerk p { itcm := (d.clerk p).itcm, dtcm := (d.clerk p).dtcm }
  | some .spanCache => d.putCache (spanOf p) []
  | some .carter => d.putCarter (spanOf p) {}
  | some .amaxTable => { d with amax := [], roll := none }
  | some .placement => { d with tcache := [] }
  | some .assayer => { d with assay := { start := d.assay.start } }
  | some .bist => { d with slices := [] }
  | some .kyino => { d with conns := [], e2eRx := [], buckets := [], exchange := none, tsyncAt := none }
  | some .kyWindows => { d with winWrites := [] }
  | some .countingHouse => { d with early := [] }
  | some .kyPort => d.putPort (p - 0x8210) { everUp := (d.port (p - 0x8210)).everUp, told := (d.port (p - 0x8210)).told, since := (d.port (p - 0x8210)).since }
  | some .io => { d with tgs := d.tgs.filter (fun c => c.1 / 16 != p) }
  | some .dkCtl => d.clearAccum
  | _ => d

/-- A unit is reset: its work stops, and its registers take their reset values (R65, R86). -/
def Dev.resetUnit (d : Dev) (p : Nat) : Dev :=
  let ring := kindOf p == some .ring
  let stopped := d.rd p F.DK_RING_STAT.STOPPED
  let lay := d.rd p F.NM_CFG.ILV + 2 * d.rd p F.NM_CFG.LOCAL_GRANULES
  let d := ((d.stopUnit p).clearRegsBut p (keptOnReset p)).resetHeld p
  let d := d.wr p F.UNIT_STAT.PEND_EN 0
  let d := if kindOf p = some .spare then
    ((d.wr p F.ME_REMAP.AUTO 1).wr p F.ME_REMAP.TGT_BAY 0).wr p F.ME_REMAP.TGT_ENG 0 else d
  if ring then
    (((d.wr p F.DK_RING_STAT.DB_ERR 0).wr p F.DK_RING_STAT.CPL_FULL 0).wr p F.DK_RING_STAT.SEQ_ERR 0).wr p F.DK_RING_STAT.STOPPED stopped
  else if p = P.nearMgr ∧ d.rd p F.NM_CFG.ILV + 2 * d.rd p F.NM_CFG.LOCAL_GRANULES ≠ lay then
    { d with near := [], poison := [], caches := [], nearGen := d.nearGen + 1 }
  else d

/-- A change of STATE with what it means for a Kyino port's link (R732, R735). -/
def Dev.moveUnit (d : Dev) (t p st : Nat) : Dev :=
  let was := d.on p
  let d := d.setState t p st
  if kindOf p = some .kyPort then
    (if st = U.ON ∧ !was then d.portTrain t (p - 0x8210)
     else if was ∧ st ≠ U.ON then d.linkDown t (p - 0x8210)
     else d)
  else d

/-- Is the unit's parent ON (the root has none)? -/
def Dev.parentOn (d : Dev) (p : Nat) : Bool := match parentOf p with
  | none => (kindOf p).isSome
  | some q => d.on q

/-- Is the unit a Kyino port that boot skipped (R994)? It stays OFF. -/
def Dev.heldOff (d : Dev) (p : Nat) : Bool := kindOf p == some .kyPort && d.bt.skipped.contains (34 + (p - 0x8210))

/-- R78: a unit that is OFF with ENABLE = 1 starts when its parent is ON. -/
def Dev.startIf (d : Dev) (t p : Nat) : Dev :=
  if d.ust p = U.OFF ∧ d.flag p F.UNIT_CTL.ENABLE ∧ d.parentOn p ∧ !d.heldOff p then d.moveUnit t p U.STARTING else d

/-! ### Discards of a subtree (R86, R1089, R1092) -/

/-- Does the docket use a device-level unit beside spans (R128)? -/
def usesDevice (x : Docket) : Bool := [1, 6, 8, 9, 11, 12].contains x.opcode

/-- R1092: the dockets of a ring whose unit is reset. An idle ring is left as it is (R86). -/
def Dev.ringReset (d : Dev) (t k slot : Nat) : Dev :=
  let r := d.ring k
  if r.q = [] ∧ r.tailN = r.headN then d
  else
    let used := r.q.filter Docket.begun
    let spans := (((used.flatMap (d.docketUnits k)).filter (fun u => isSpanPath u)).map spanOf).eraseDups
    let d := if used.any usesDevice then d.discard t allSpans true slot
             else if spans = [] then d else d.discard t spans false slot
    let killing := d.kill.isSome
    let d := d.absorb k St.DISCARDED slot (fun x => (x.begun && x.opcode == 10) ||
      (killing && (match x.stage with | .ended st _ => st == St.KILLED | _ => false)))
    d.stopAfterRecords t k

/-- The unit and its descendants: what a drain, a reset and a fence of the unit cover (R78, R86, R89, R1090). The units of R45
are among the root's: R45 shuts out writes to their own pages (log entry 43). -/
def resetTree (p : Nat) : List Nat := p :: descendants p

/-- The spans whose rings or clerks have work in execution that uses a unit. -/
def Dev.servedSpans (d : Dev) (p : Nat) : List Nat :=
  ((d.inExecution.filter (fun x => x.1 != deviceRing && d.docketUses x.1 x.2 p)).map (fun x => ringSpan x.1) ++
    (d.subs.filter (fun b => usesUnit (d.subUnits b) b.docket p)).map (fun b => b.span)).eraseDups

/-- The work in flight in a unit and its descendants is discarded (R86, R1089): as a fault of its scope does, and with it the
spans whose work the unit serves, so that no docket that it was serving stays in execution (DEDUCED from R1089, log entry
108). -/
def Dev.discardTree (d : Dev) (t p slot : Nat) : Dev :=
  let d := ((resetTree p).filter isRing).foldl (fun d q => d.ringReset t (ringNo q) slot) d
  if isRing p then d
  else if !d.workInFlight p then d
  else if isSpanPath p then d.discard t ((spanOf p :: d.servedSpans p).eraseDups) false slot
  else d.discard t allSpans true slot

/-- R88, R89: a unit of a reset subtree that is neither FENCED nor FAILED enters OFF. -/
def Dev.toOff (d : Dev) (t p : Nat) : Dev :=
  if d.ust p = U.FENCED ∨ d.ust p = U.FAILED ∨ (d.ust p = U.OFF) ∨ (d.ust p = U.NO_SERVICE) then d else d.moveUnit t p U.OFF

/-- The link of a Kyino port that is ON goes DOWN (R735, R756). -/
def Dev.portOff (d : Dev) (t p : Nat) : Dev := if kindOf p = some .kyPort ∧ d.on p then d.linkDown t (p - 0x8210) else d

/-- Discard and reset of a subtree. -/
def Dev.resetSubtree (d : Dev) (t p slot : Nat) : Dev :=
  let d := d.discardTree t p slot
  (resetTree p).foldl (fun d q => ((d.portOff t q).resetUnit q).toOff t q) d

/-! ### Losing units: service, plan and substitution (R44, R49, R323) -/

/-- The engine positions that a plan addresses, by a program or by a circuit's end (R56, R323). -/
def Plan.enginePositions (pl : Plan) : List Nat :=
  pl.mePrograms.map (·.pos) ++ (pl.circuits.flatMap (fun c => [c.srcPos, c.dstPos])).filter (fun pos => match tileAt pos with
    | some p => kindOf p == some .me
    | none => false)

/-- Has an engine's position lost its engine: the spare that serves it, else the original, with no substitution begun (R323)? -/
def Dev.positionLost (d : Dev) (p : Nat) : Bool :=
  let spare := P.spare (spanOf p)
  if d.flag spare F.ME_REMAP.ACTIVE ∧ d.rd spare F.ME_REMAP.SERVED = p then !d.inService spare
  else !d.inService p && !d.substs.any (fun x => x.target == p)

/-- Is the position of an engine of the loaded plan without an engine (R323)? -/
def Dev.planLoses (d : Dev) : Bool := match d.plan with
  | none => false
  | some pl => pl.enginePositions.any (fun pos => match tileAt pos with
    | none => false
    | some p => d.positionLost p)

/-- R323: the plan unloads. -/
def Dev.unloadPlan (d : Dev) : Dev := { d.clearNetwork with planDigest := 0 }

/-- Every unit that has a register page. -/
def allUnits : List Nat := P.root :: descendants P.root

/-- Fenced and failed units are held in reset in NO_SERVICE (R49). -/
def Dev.holdFenced (d : Dev) : Dev :=
  (allUnits.filter (fun p => !d.inService p)).foldl Dev.resetUnit d

/-- After a unit has entered FENCED or FAILED: substitutions whose spare is lost end, a plan that lost an engine unloads
(R323), and the minimum service set is evaluated (R44). -/
def Dev.afterLoss (d : Dev) (t : Nat) : Dev :=
  let d := { d with substs := d.substs.filter (fun x => d.inService (P.spare x.span)) }
  let d := if d.planLoses then d.unloadPlan else d
  let e := d.evalService t
  if e.noService then e.holdFenced else e

/-! ### FENCE and failure -/

/-- A unit enters FENCED (R1090): its descendants that are neither FENCED nor FAILED are fenced and marked with it. A fence
of the device root covers the units of R45 too, whoever ordered it (DESIGN CHOICE, log entry 43); in NO_SERVICE the root
keeps showing that state (R46). -/
def Dev.fenceStates (d : Dev) (t p : Nat) : Dev :=
  let one (mark : Nat) (d : Dev) (q : Nat) : Dev :=
    if d.ust q = U.FENCED ∨ d.ust q = U.FAILED ∨ d.ust q = U.NO_SERVICE then d
    else { (d.moveUnit t q U.FENCED).wr q F.UNIT_STAT.PEND_EN 0 with marks := Tbl.set noNat d.marks q mark }
  (descendants p).foldl (one (p + 1)) (one 0 d p)

/-- FENCE of a unit that may be fenced (R1089, R1090), by software or a ladder. -/
def Dev.fenceUnit (d : Dev) (t p slot : Nat) : Dev := (d.discardTree t p slot).fenceStates t p

/-- A unit enters FAILED (R78, R80). -/
def Dev.failUnit (d : Dev) (t p : Nat) : Dev :=
  if d.ust p = U.FAILED ∨ d.ust p = U.NO_SERVICE then d else (d.stopUnit p).moveUnit t p U.FAILED

/-! ### Commands of UNIT_CTL -/

/-- FENCED and FAILED units take no ENABLE (R83). -/
def Dev.shut (d : Dev) (p : Nat) : Bool := d.ust p == U.FENCED || d.ust p == U.FAILED

/-- ENABLE is written 1 (R78, R83, R91). -/
def Dev.unitEnable (d : Dev) (t p : Nat) : Dev :=
  if (kindOf p).isNone ∨ p = P.group then d
  else if d.shut p then d.stateCmd t p
  else
    let d := { d.wr p F.UNIT_CTL.ENABLE 1 with cyc.enabledNow := p :: d.cyc.enabledNow }
    if d.ust p = U.DRAINING then d.wr p F.UNIT_STAT.PEND_EN 1 else d.startIf t p

/-- A unit that is STARTING or ON, and with it every such descendant, begins to drain (R78). -/
def Dev.beginDrain (d : Dev) (t p : Nat) : Dev :=
  (resetTree p).foldl (fun d q => if d.ust q = U.STARTING ∨ d.on q then d.moveUnit t q U.DRAINING else d) d

/-- ENABLE is written 0 (R68, R78, R83, R92). -/
def Dev.unitDisable (d : Dev) (t p : Nat) : Dev :=
  if (kindOf p).isNone ∨ p = P.group then d
  else if !canCommand p ∨ d.shut p then d.stateCmd t p
  else
    let d := (d.wr p F.UNIT_CTL.ENABLE 0).wr p F.UNIT_STAT.PEND_EN 0
    if d.ust p = U.STARTING ∨ d.on p then d.beginDrain t p else d

/-- BLOCK_RESET (R68, R86 to R88, R1092); a reset that fails leaves the unit FAILED (R78, R44). -/
def Dev.blockReset (d : Dev) (t p : Nat) (ok : Bool) : Dev :=
  if (kindOf p).isNone ∨ p = P.group then d
  else if !canCommand p then d.stateCmd t p
  else if ok then (d.resetSubtree t p noSlot).startIf t p
  else ((d.resetSubtree t p noSlot).failUnit t p).afterLoss t

/-- FENCE (R68, R1089, R1090). -/
def Dev.fenceCmd (d : Dev) (t p : Nat) : Dev :=
  if (kindOf p).isNone ∨ p = P.group then d
  else if !canCommand p ∨ d.shut p then d.stateCmd t p
  else (d.fenceUnit t p noSlot).afterLoss t

/-- RELEASE (R84, R85, R1091): descendants fenced with the unit return to OFF with it. -/
def Dev.releaseCmd (d : Dev) (t p : Nat) : Dev :=
  if (kindOf p).isNone ∨ p = P.group then d
  else if !canCommand p ∨ d.ust p ≠ U.FENCED then d.stateCmd t p
  else
    let mine := (descendants p).filter (fun q => d.ust q == U.FENCED && Tbl.get noNat d.marks q == p + 1)
    let d := (d.moveUnit t p U.OFF).wr p F.UNIT_CTL.ENABLE 0
    let d := mine.foldl (fun d q => d.moveUnit t q U.OFF) d
    { d with marks := (p :: mine).foldl (fun m q => Tbl.set noNat m q 0) d.marks }

/-! ### Start and drain -/

/-- The effect of a unit's start sequence: a scratchpad tile is filled with zeros and its check tags set (R433, R441), and is in
reset no more (R490). -/
def Dev.startWork (d : Dev) (p : Nat) : Dev :=
  if kindOf p = some .sp then { d.zeroTile p with resetTiles := d.resetTiles.filter (fun q => q != p) } else d

/-- START_SEQUENCE_DONE (R78): the unit is ON, and its children with ENABLE = 1 start. -/
def Dev.startDone (d : Dev) (t p : Nat) : Dev :=
  if (kindOf p).isNone ∨ d.ust p ≠ U.STARTING ∨ !d.parentOn p then d
  else (childrenOf p).foldl (fun d q => d.startIf t q) ((d.startWork p).moveUnit t p U.ON)

/-- A unit enters OFF with a pending enable: it is OFF for this MCLK cycle and starts in the next (R93); where the enable
was written in this very cycle, it counts as written to a unit that was OFF (R94). -/
def Dev.offThenStart (d : Dev) (t p : Nat) : Dev :=
  if d.cyc.enabledNow.contains p then d.startIf t p else { d with cyc.restartNext := p :: d.cyc.restartNext }

/-- The drain ends in OFF, and leads to STARTING when an enable is latched (R93, R94). -/
def Dev.drainEnds (d : Dev) (t p : Nat) : Dev :=
  let pend := d.flag p F.UNIT_STAT.PEND_EN
  let d := (d.moveUnit t p U.OFF).wr p F.UNIT_STAT.PEND_EN 0
  if pend then d.offThenStart t p else d

/-- A new MCLK cycle: units that were OFF for one cycle start, where ENABLE still reads 1 (R93, R94). -/
def Dev.startWaiting (d : Dev) (t : Nat) : Dev :=
  d.cyc.restartNext.foldl (fun d p => d.startIf t p) { d with cyc.restartNext := [], cyc.enabledNow := [] }

/-- UNIT_DRAIN_COMPLETE (R81, R93): no work is left in the unit, and its children are OFF, FENCED or FAILED. -/
def Dev.unitDrained (d : Dev) (t p : Nat) : Dev :=
  let quietChild (q : Nat) : Bool := d.ust q == U.OFF || d.shut q
  if (kindOf p).isNone ∨ d.ust p ≠ U.DRAINING then d
  else if (childrenOf p).all quietChild && !d.workInFlight p && !d.progRuns p then d.drainEnds t p else d

/-- UNIT_DRAIN_TIMEOUT (R89): 1 ms after DRAINING began. -/
def Dev.drainTimeout (d : Dev) (t p : Nat) : Dev :=
  if (kindOf p).isNone ∨ d.ust p ≠ U.DRAINING ∨ (t + 2 ^ 32 - d.rd p F.UNIT_STAT.STATE_TIME) % 2 ^ 32 < 1000000 then d
  else
    let pend := d.rd p F.UNIT_STAT.PEND_EN
    let d := (d.resetSubtree t p noSlot).setErr t p 3 K.UNIT_DRAIN_TIMEOUT Cls.CONTAINED 0 0
    if pend = 1 then d.offThenStart t p else d

/-! ### Spare engines (R311 to R323) -/

/-- May the spare of a span take over a position now: ON, and ACTIVE 0 (R312, R313)? -/
def Dev.spareFree (d : Dev) (s : Nat) : Bool := d.on (P.spare s) && !d.flag (P.spare s) F.ME_REMAP.ACTIVE

/-- A substitution begins (R315, R316): the span's work is discarded, its network sealed and flushed. One that has begun in
the span and not completed is given up for it: until ACTIVE reads 1, R312 and R313 give the spare to the newest target
(DEDUCED, log entry 47). -/
def Dev.beginSubst (d : Dev) (t target cause slot : Nat) : Dev :=
  let s := spanOf target
  { d with substs := d.substs.filter (fun (x : Subst) => x.span != s) ++ [({ span := s, target := target, cause := cause } : Subst)] }.discard t [s] false slot

/-- R312: a fenced or failed active engine is replaced when AUTO is 1 and the spare is free. -/
def Dev.autoSubst (d : Dev) (t p cause slot : Nat) : Dev :=
  if kindOf p = some .me ∧ d.flag (P.spare (spanOf p)) F.ME_REMAP.AUTO ∧ d.spareFree (spanOf p) then d.beginSubst t p cause slot else d

/-- HOST_SUB (R311, R313, R314). -/
def Dev.hostSub (d : Dev) (t s bay eng : Nat) : Dev :=
  let p := P.spare s
  if s > 7 then d
  else if eng ≥ 3 ∨ bay > 3 then (if d.spareFree s then d.illegalWrite t p else (d.illegalWrite t p).stateCmd t p)
  else if !d.spareFree s then d.stateCmd t p
  else
    let d := (d.wr p F.ME_REMAP.TGT_BAY bay).wr p F.ME_REMAP.TGT_ENG eng
    let target := P.me s bay eng
    let d := if d.shut target then d else d.fenceStates t target
    (d.beginSubst t target 3 noSlot).afterLoss t

/-- May a substitution end: ACTIVE is 1 and the original engine is OFF (R320, R321)? -/
def Dev.mayRelease (d : Dev) (s : Nat) : Bool :=
  d.flag (P.spare s) F.ME_REMAP.ACTIVE && d.ust (d.rd (P.spare s) F.ME_REMAP.SERVED) == U.OFF

/-- HOST_REL (R320, R321): the original engine, which is OFF, has its position back. -/
def Dev.hostRel (d : Dev) (t s : Nat) : Dev :=
  let p := P.spare s
  let target := d.rd p F.ME_REMAP.SERVED
  if s > 7 then d
  else if !d.mayRelease s then d.stateCmd t p
  else
    let d := d.discard t [s] false noSlot
    let d := (d.wr target F.UNIT_STAT.SPARED 0).wr p F.ME_REMAP.ACTIVE 0
    (d.wr p F.ME_REMAP.SERVED 0).wr p F.ME_REMAP_TIME.TIME t

/-- Phase 2 of a substitution (R316, R401, R560): the position's program from the plan store, its NUMCTL and generator, and nothing in
banks, cells and buffers. -/
def Dev.loadSpare (d : Dev) (p target : Nat) : Dev :=
  let x := d.storedImage
  let e := if d.plan.isSome then progAt x.1.plan.mePrograms (posOf target) else none
  let d := if d.plan.isSome then x.2 else d
  let prog : Tbl W128 := ((e.map (fun e => e.code)).map progTable).getD []
  let d := (d.putMe p { prog := prog }).wr p F.ME_CTL.ENTRY ((e.map (fun e => e.entry)).getD 0)
  let copy (d : Dev) (f : Fld) : Dev := d.wr p f (d.rd target f)
  let d := [F.NUMCTL.RMODE, F.NUMCTL.SATMODE, F.NUMCTL.NAN_ACTION, F.NUMCTL.TRAP_INF,
    F.RNG_SEED.SEED, F.RNG_STREAM.STREAM, F.RNG_POS.POS].foldl copy d
  [F.ME_STAT.BANK_A, F.ME_STAT.BANK_B, F.ME_STAT.SHADOW, F.ME_STAT.CELLS_HELD].foldl (fun d f => d.wr p f 0) d

/-- ME_SPARE (R316, R317): the substitution of a span completes, once the plan store can be read, and the span's network unseals
(R383). -/
def Dev.meSpare (d : Dev) (t s : Nat) : Dev :=
  match d.substs.find? (fun x => x.span == s) with
  | none => d
  | some x =>
    let p := P.spare s
    if d.epochBusy [s] ∨ d.kill.isSome ∨ !d.on p ∨ (d.plan.isSome ∧ !d.storeUp) then d
    else
      let d := d.loadSpare p x.target
      let d := { d with substs := d.substs.filter (fun y => y.span != s) }
      let d := ((d.wr p F.ME_REMAP.ACTIVE 1).wr p F.ME_REMAP.SERVED x.target).wr p F.ME_REMAP.CAUSE x.cause
      let d := (d.wr p F.ME_REMAP_TIME.TIME t).wr x.target F.UNIT_STAT.SPARED 1
      ((d.unsealSpans [s]).askCopies s).send t p K.ME_SPARE Cls.INFO 0 0

/-! ### The commands -/

def execUnitEnable (p : Nat) (s : State) := upd s (fun d => d.unitEnable s.now p)
def execUnitDisable (p : Nat) (s : State) := upd s (fun d => d.unitDisable s.now p)
def execBlockReset (p : Nat) (s : State) (ok : Bool := true) := upd s (fun d => d.blockReset s.now p ok)
def execFence (p : Nat) (s : State) := upd s (fun d => d.fenceCmd s.now p)
def execRelease (p : Nat) (s : State) := upd s (fun d => d.releaseCmd s.now p)
def execStartSequenceDone (p : Nat) (s : State) := upd s (fun d => d.startDone s.now p)
def execUnitDrainComplete (p : Nat) (s : State) := upd s (fun d => d.unitDrained s.now p)
def execUnitDrainTimeout (p : Nat) (s : State) := upd s (fun d => d.drainTimeout s.now p)
def execHostSub (span bay eng : Nat) (s : State) := upd s (fun d => d.hostSub s.now span bay eng)
def execHostRel (span : Nat) (s : State) := upd s (fun d => d.hostRel s.now span)
def execMeSpare (span : Nat) (s : State) := upd s (fun d => d.meSpare s.now span)

end Sys2Proof.Machine
end

