-- ==== Sys2Proof/Machine/Reset.lean ====
section
/-!
DEFINITION. Sys2Proof/Machine/Reset.lean: the device reset (R870, R973, R977, R1048) and what outlives it: the fault log and
the error pin (R845, R878), the flash and fuses (R981, R983, R1019), and the power settings (R1059).
-/

namespace Sys2Proof.Machine

/-- Registers that keep their values through every reset but a power-on reset, or through every reset. -/
def outlives (k : Nat) : Bool :=
  let p := keyPath k
  let off := keyOff k
  if p = P.tollhouse then [0x48, 0x50, 0x58, 0x60, 0x68, 0xB0].contains off
  else if p = P.boot then [0x50, 0x58, 0x60].contains off || ((off == 0x40 || off == 0x48) && keyLo k == 32)
  else if p = P.hostIf then off == 0x48
  else if p = P.power then [0x40, 0x48, 0x78, 0x98].contains off
  else false

/-- Registers that a power-on reset keeps: what the flash and the fuses hold. -/
def outlivesPower (k : Nat) : Bool := outlives k && keyPath k != P.tollhouse && keyPath k != P.power

/-- PW_TH_CTL as it is in effect after a reset. -/
def Dev.latchedGov (d : Dev) : GovSt :=
  { warn := d.rd P.power F.PW_TH_CTL.WARN_MARGIN, thDiv := d.rd P.power F.PW_TH_CTL.TH_DIV, thEn := d.flag P.power F.PW_TH_CTL.TH_EN }

/-- What every reset leaves: host memory and the CXL fabric, which are not the device's, flash and fuses; the Assayer's windows go
on with device time (R19). The near tier's
contents are open after it (log entry 32). -/
def Dev.bare (d : Dev) (keep : Nat → Bool) : Dev :=
  { regs := d.regs.filter (fun (c : Nat × Nat) => keep c.1), nearGen := d.nearGen + 1, hostMem := d.hostMem, fabric := d.fabric, msix := d.msix,
    flashRetired := d.flashRetired, repairs := d.repairs, bt := { d.bt with jrnlBuf := 0, recoveryHold := false }, flash := d.flash, lastSlices := d.slices.map (fun (x : Slice) => x.path),
    rdata := d.rdata, fresh := d.fresh, assay := { start := d.assay.start } }

/-- A device reset with a cause of PW_RESET_CAUSE: 1 PERST_N, 2 CHIP_RESET, 3 RAIL_UV, 4 boot-step timeout. The log, its
status words, the FC_ counters and the pin stay; boot has yet to run. -/
def Dev.deviceReset (d : Dev) (cause : Nat) : Dev :=
  let e := { d.bare outlives with
    log := d.log
    pulseUntil := d.pulseUntil
    power := d.power
    thermTrip := d.thermTrip }
  let e := { e with gov := e.latchedGov }
  (e.wr P.tollhouse F.FC_LOG_STAT.WARM 1).wr P.power F.PW_RESET_CAUSE.CAUSE cause

/-- A power-on reset: nothing but flash, fuses and what is outside the module stays. -/
def Dev.powerOnReset (d : Dev) : Dev := d.bare outlivesPower

end Sys2Proof.Machine
end

