-- ==== Sys2Proof/Machine/Tollhouse.lean ====
section
/-!
DEFINITION. Sys2Proof/Machine/Tollhouse.lean: the fault log (R838 to R845), reaction entries (R846 to R849), phases (R850 to
R853), grace timers and ladders (R854 to R870, R1105), direct actions (R871 to R873), the error pin (R874 to R878), and the
Assayer's count of messages (R902).
-/

namespace Sys2Proof.Machine

/-! ### The Assayer's count (R902) -/

/-- The input of R902 under which a message counts: 0 CE, 1 RETRAIN, 2 DROOP, 3 STALL, 4 BIFAIL, 5 BIREPAIR. -/
def assayInput (kind cls : Nat) : Option Nat :=
  if kind = K.KY_RETRAIN ∨ kind = K.KY_LANE_SPARE then some 1
  else if kind = K.PW_DROOP then some 2
  else if cls = Cls.CORRECTED then some 0
  else if kind = K.TR_STALL ∨ kind = K.CA_STALL ∨ kind = K.KY_SLOW then some 3
  else if kind = K.BI_FAIL then some 4
  else if kind = K.BI_REPAIR then some 5
  else none

/-- The end of the window that begins at or holds `start`: the next multiple of W. -/
def Dev.windowEnd (d : Dev) (start : Nat) : Nat :=
  let w := d.rd P.assayer F.AS_CTL.WINDOW_MS * 1000000
  (start / w + 1) * w

/-- The end of the window that is not yet evaluated. -/
def Dev.assayEnd (d : Dev) : Nat := d.windowEnd d.assay.start

/-- Device time from its low 32 bits, not after `t` (R22). -/
def fullTime (t low : Nat) : Nat := t - (t + 2 ^ 32 - low) % 2 ^ 32

/-- A message that reaches Tollhouse counts in the half-open window that holds its TIME (R19, R20): the present one, or one after
it; a window that has been evaluated counts no more. -/
def Dev.assayCount (d : Dev) (t : Nat) (m : Msg) : Dev :=
  match assayInput m.kind m.cls with
  | none => d
  | some i =>
    let at_ := fullTime t m.time
    if at_ < d.assay.start then d
    else if at_ < d.assayEnd then d.wri P.assayer i F.AS_CNT_DATA.CUR (d.rdi P.assayer i F.AS_CNT_DATA.CUR + 1)
    else { d with assay := { d.assay with later := d.assay.later ++ [(at_, i)] } }

/-! ### Reaction entries -/

/-- The entry in force for a message of a kind and class (R847). -/
def Dev.entryFor (d : Dev) (kind cls : Nat) : Nat :=
  if d.reactWritten.contains kind then d.rdi P.tollhouse kind F.FC_REACT_DATA.ENTRY
  else match kindRow kind with
    | some (_, l) => reactEntry cls l
    | none => 0

/-- The ladder actions of an entry up to the first NONE. -/
def entryActs (e : Nat) : List Nat := [bitsOf e 24 3, bitsOf e 27 3, bitsOf e 30 3].takeWhile (fun a => a != 0)

/-- The direct action of an entry in a phase. -/
def entryDirect (e ph : Nat) : Nat := if ph = 0 then bitsOf e 33 3 else if ph = 2 then bitsOf e 36 3 else bitsOf e 39 3

def Dev.fcPhase (d : Dev) : Nat := d.rd P.tollhouse F.FC_PHASE.PHASE

/-! ### The log -/

/-- R838 to R843: the message's slot, or none when the log is full. -/
def Dev.logMsg (d : Dev) (m : Msg) : Option Nat × Dev :=
  let p := P.tollhouse
  let w := d.rd p F.FC_LOG_STAT.WPTR
  let old := d.slot w
  if old.state = 1 then (none, (d.count p F.FC_OVF_CNT.COUNT 1).raiseBit p F.FC_LOG_STAT.OVERFLOW 0)
  else
    let d := if old.state = 2 then d.count p F.FC_REUSE_CNT.COUNT 1 else d
    let st := if m.cls = Cls.CORRECTED ∨ m.cls = Cls.INFO then 2 else 1
    let d := (d.putSlot w { msg := m, state := st }).wr p F.FC_LOG_STAT.WPTR (w + 1)
    (some w, d.count p F.FC_WRITE_CNT.COUNT 1)

/-- The log slot of a recorded trap, once its message is logged (R709, R841). -/
def Dev.fillFirstTrap (d : Dev) (m : Msg) (slot : Nat) : Dev :=
  match m.first with
  | none => d
  | some k => match Tbl.get noTrap d.firstTraps k with
    | some f =>
      if f.path = m.path ∧ f.time = m.time ∧ f.slot = none then
        { d with firstTraps := Tbl.set noTrap d.firstTraps k (some { f with slot := some slot }) }
      else d
    | none => d

/-- Bits of a slot's status word. -/
def Dev.markSlot (d : Dev) (k : Nat) (f : LogSlot → LogSlot) : Dev := if k < 512 then d.putSlot k (f (d.slot k)) else d

/-! ### The error pin (R874, R877) -/

def Dev.errPin (d : Dev) (t : Nat) : Dev :=
  let p := P.tollhouse
  let armed := d.flag p F.FC_ERR_PIN_CTL.ARMED
  let d := d.wr p F.FC_ERR_PIN_CTL.DRIVE 1
  if armed then
    { (d.wr p F.FC_ERR_PIN_CTL.PULSING 1).wr p F.FC_ERR_PIN_CTL.ARMED 0 with
      pulseUntil := some (t + d.rd p F.FC_ERR_PIN_CTL.ERR_PULSE_MIN * 1000) }
  else d

/-! ### What a step does (R866) -/

/-- The unit that a message's path means: the spare that serves a position reports with the position's path (R828). -/
def Dev.sourceUnit (d : Dev) (p : Nat) : Nat :=
  let spare := P.spare (spanOf p)
  if kindOf p = some .me ∧ d.flag spare F.ME_REMAP.ACTIVE ∧ d.rd spare F.ME_REMAP.SERVED = p then spare else p

/-- The trap of R530 to the clerks of the scope (R868). -/
def Dev.nmi (d : Dev) (p slot : Nat) : Dev :=
  let clerks := if isSpanPath p then (spanUnits (spanOf p)).filter (fun q => kindOf q == some .clerk)
                else allSpans.map (fun s => P.clerk s 0 0)
  (clerks.filter d.on).foldl (fun d q => d.clerkNmi q slot) d

/-- The reload of a span's part of the plan from the plan store (R867): programs, images, Tollgates and descriptors; substitutions
stay. -/
def Dev.reloadSpan (d : Dev) (s : Nat) : Dev :=
  if d.plan.isNone then d
  else
    let x := d.storedImage
    let pl := x.1.plan
    let d := x.2
    let mine (pos : Nat) : Bool := posSpan pos == s
    let d := (pl.mePrograms.filter (fun e => mine e.pos)).foldl Dev.loadProg d
    let d := (pl.sfPrograms.filter (fun e => mine e.pos)).foldl Dev.loadProg d
    let d := (pl.images.filter (fun e => mine e.pos)).foldl Dev.loadImage d
    { d with
      tgs := (pl.tollgates.filter (fun e => mine e.pos)).foldl (fun t e =>
        Tbl.set noTg t ((tileAt e.pos).getD 0 * 16 + e.gate) { op := e.op, grain := e.grain }) d.tgs
      descs := (pl.descs.filter (fun e => mine e.pos)).foldl (fun t e =>
        Tbl.set noDesc t ((tileAt e.pos).getD 0 * 256 + e.num) { loaded := true, pitch := e.pitch, addr := e.addr, advance := e.advance }) d.descs }

/-- FENCE by a ladder (R866, R1089, R44); the span's spare takes over a fenced engine when its AUTO is 1 (R312). -/
def Dev.ladderFence (d : Dev) (t p slot : Nat) : Dev :=
  let d := d.discardUnit t p slot
  (if d.shut p then d else (d.fenceStates t p).autoSubst t p 1 slot).afterLoss t

/-- The work of a ladder action for a source path. -/
def Dev.stepWork (d : Dev) (t act path slot : Nat) : Dev :=
  let p := d.sourceUnit path
  match act with
  | 1 => d.discardUnit t p slot
  | 2 => ((d.discardUnit t p slot).resetSubtree t p slot).startIf t p
  | 3 =>
    if kindOf p = some .me ∧ d.spareFree (spanOf p) then
      ((if d.shut p then d else d.fenceStates t p).beginSubst t p 1 slot).afterLoss t
    else d.ladderFence t p slot
  | 4 => d.ladderFence t p slot
  | 5 =>
    if isSpanPath p then
      let u := P.span (spanOf p)
      (((d.discardUnit t p slot).resetSubtree t u slot).startIf t u).reloadSpan (spanOf p)
    else ((d.discardUnit t p slot).resetSubtree t p slot).startIf t p
  | 6 => d.deviceReset 2
  | 7 => d.nmi p slot
  | _ => d

/-! ### Ladders -/

/-- Do the scopes of two source paths overlap, and does the first contain the second (R863, R864)? -/
def scopesOverlap (a b : Nat) : Bool := !isSpanPath a || !isSpanPath b || spanOf a == spanOf b
def scopeContains (a b : Nat) : Bool := !isSpanPath a || (isSpanPath b && spanOf a == spanOf b)

def Ladder.runs (l : Ladder) : Bool := l.begun && l.waiting.isNone

/-- The first waiting step whose scope no running step, and no earlier waiting step, overlaps (R864). -/
def nextStep : List Ladder → List Ladder → Option Ladder
  | _, [] => none
  | before, l :: rest =>
    if !l.begun && l.waiting.isNone && !before.any (fun x => x.waiting.isNone && scopesOverlap x.path l.path) &&
       !rest.any (fun x => x.runs && scopesOverlap x.path l.path) then some l
    else nextStep (before ++ [l]) rest

/-- Steps that may begin do (R857, R864). -/
def Dev.runLadders (d : Dev) (t : Nat) : Nat → Dev
  | 0 => d.updatePhase
  | fuel + 1 =>
    match nextStep [] d.ladders with
    | none => d.updatePhase
    | some l =>
      let d := { d with ladders := d.ladders.map (fun (x : Ladder) => if x = l then { x with begun := true, since := t } else x) }
      (d.updatePhase.stepWork t (l.acts.getD (l.step - 1) 0) l.path l.slot).runLadders t fuel

def Dev.goLadders (d : Dev) (t : Nat) : Dev := d.runLadders t d.ladders.length

/-- A ladder ends: its slot records the last step and when it completed or failed (R869). -/
def Dev.endLadder (d : Dev) (l : Ladder) : Dev :=
  let d := { d with ladders := d.ladders.filter (fun x => x != l) }
  if l.direct then d else d.markSlot l.slot (fun s => { s with step := l.step, resolved := l.since % 2 ^ 32 })

/-- The next step of a ladder takes its turn at once (R859, R860): the one after, or the last again after a completed
one. -/
def Dev.moveOn (d : Dev) (l : Ladder) : Dev :=
  let l' := { l with step := if l.step < l.acts.length then l.step + 1 else l.step, waiting := none, begun := false }
  { d with ladders := l' :: d.ladders.filter (fun x => x != l) }

/-- A message joins the ladder of its kind and unit (R860, R861, R1105). -/
def Dev.joinLadder (d : Dev) (t : Nat) (l : Ladder) (slot : Nat) : Dev :=
  let d := d.markSlot slot (fun s => { s with joined := true })
  if l.waiting.isSome then (d.moveOn l).goLadders t else d

/-- The ladder of a kind and unit; one whose recurrence interval has passed no longer counts (R860). -/
def Dev.ladderOf (d : Dev) (t kind path : Nat) : Option Ladder :=
  d.ladders.find? (fun l => l.kind == kind && l.path == path && !l.direct &&
    (match l.waiting with | some u => decide (t < u) | none => true))

/-- A grace time is over: STEP1 begins, or the message joins a ladder (R857, R1105); a ladder whose recurrence interval has
passed ends first (R860). -/
def Dev.graceOver (d : Dev) (t kind path slot : Nat) (acts : List Nat) : Dev :=
  match d.ladderOf t kind path with
  | some l => d.joinLadder t l slot
  | none =>
    if acts = [] then d
    else
      let d := (d.ladders.filter (fun l => l.kind == kind && l.path == path && !l.direct)).foldl Dev.endLadder d
      { d with ladders := d.ladders ++ [({ kind := kind, path := path, slot := slot, step := 1, acts := acts } : Ladder)] }.goLadders t

/-- R871, R873: a direct action. -/
def Dev.directAction (d : Dev) (t act : Nat) (m : Msg) (slot : Nat) : Dev :=
  match act with
  | 1 => d.nmi m.path slot
  | 2 => { d with ladders := d.ladders ++ [({ kind := m.kind, path := m.path, slot := slot, step := 1, acts := [2], direct := true } : Ladder)] }.goLadders t
  | 3 => d.deviceReset 2
  | 4 => d.errPin t
  | _ => d

/-- The reaction to a message that has reached the log, or found it full (R836, R841, R855, R861, R871, R872). -/
def Dev.react (d : Dev) (t : Nat) (m : Msg) (slot : Option Nat) (e : Nat) : Dev :=
  let severe := m.cls == Cls.CONTAINED || m.cls == Cls.FATAL
  let ph := d.fcPhase
  let k := slot.getD noSlot
  match (if severe ∧ (ph = 1 ∨ ph = 3) then d.ladderOf t m.kind m.path else none) with
  | some l => d.joinLadder t l k
  | none =>
    if ph = 1 then
      if severe ∧ entryActs e ≠ [] then
        match slot with
        | some s => { d with graces := d.graces ++ [({ slot := s, expiry := t + bitsOf e 8 16 * 1000, acts := entryActs e } : Grace)] }
        | none => d.graceOver t m.kind m.path noSlot (entryActs e)
      else d
    else (d.markSlot k (fun s => { s with direct := true })).directAction t (entryDirect e ph) m k

/-- TOLLHOUSE_MESSAGE: the oldest message of a unit reaches Tollhouse (R831, R838). One whose PATH lies below one that has entered
the log in this MCLK cycle reaches it in a later cycle. -/
def Dev.tollMessage (d : Dev) (t k : Nat) : Dev :=
  match d.outbox[k]? with
  | none => d
  | some m0 =>
    match d.outbox.find? (fun m => m.path == m0.path) with
    | none => d
    | some m =>
      if m.path < d.cyc.tollPath then d
      else
      let d := { d with outbox := d.outbox.erase m, cyc := { d.cyc with tollPath := m.path } }
      let d := d.assayCount t m
      let e := d.entryFor m.kind m.cls
      let r := d.logMsg m
      let d := r.2.fillFirstTrap m (r.1.getD noSlot)
      let d := if r.1.isSome ∧ bitAt e 0 then d.raise (bitsOf e 1 6) else d
      let d := if m.cls = Cls.FATAL then d.errPin t else d
      let d := if m.kind = K.BI_REPAIR ∧ d.repairDiscards.contains m.addr then
          { d with repairDiscards := d.repairDiscards.filter (fun p => p != m.addr) }.discardUnit t m.addr (r.1.getD noSlot)
        else d
      d.react t m r.1 e

/-! ### Acknowledgement and the ends of steps -/

/-- FC_ACK (R844, R856, R857, R862). -/
def Dev.fcAck (d : Dev) (t k : Nat) : Dev :=
  if k ≥ 512 ∨ (d.slot k).state ≠ 1 then d.stateCmd t P.tollhouse
  else
    let g := d.graces.find? (fun x => x.slot == k)
    let late := (d.slot k).expired || (match g with | some x => decide (x.expiry ≤ t) | none => false)
    let d := d.putSlot k { d.slot k with state := 2, late := late }
    let d := { d with graces := d.graces.filter (fun x => x.slot != k) }
    let d := match g with
      | some x => if x.expiry ≤ t then d.graceOver t (d.slot k).msg.kind (d.slot k).msg.path k x.acts else d
      | none => d
    match d.ladders.find? (fun l => l.slot == k && !l.direct) with
    | none => d
    | some l =>
      if l.waiting.isSome then d.endLadder l
      else { d with ladders := d.ladders.map (fun (x : Ladder) => if x = l then { x with acked := true } else x) }

/-- GRACE_TIMER_EXPIRY (R857). -/
def Dev.graceExpiry (d : Dev) (t k : Nat) : Dev :=
  match d.graces.find? (fun x => x.slot == k) with
  | none => d
  | some g =>
    if t < g.expiry then d
    else
      let d := { d with graces := d.graces.filter (fun x => x.slot != k) }
      let d := d.markSlot k (fun s => { s with expired := true })
      d.graceOver t (d.slot k).msg.kind (d.slot k).msg.path k g.acts

/-- The greatest time of an action, in ns (R866). -/
def actLimit (a : Nat) : Nat :=
  match a with
  | 1 => 60000 | 2 => 160000 | 3 => 200000 | 4 => 60000 | 5 => 250000 | 7 => 1000 | _ => 0

/-- Has a step's work ended (R858): its scope is unsealed and its unit ON, OFF with ENABLE = 0, FENCED or served by a
spare? -/
def Dev.stepEnded (d : Dev) (l : Ladder) : Bool :=
  let spans := if isSpanPath l.path then [spanOf l.path] else allSpans
  let p := d.sourceUnit l.path
  spans.all (fun s => !d.isSealed s) &&
  (d.on p || (d.ust p == U.OFF && !d.flag p F.UNIT_CTL.ENABLE) || d.ust p == U.FENCED || d.flag l.path F.UNIT_STAT.SPARED)

/-- A step has completed: its ladder waits for recurrence, or ends when acknowledged (R860, R862). -/
def Dev.stepCompletes (d : Dev) (t : Nat) (l : Ladder) : Dev :=
  let l' := { l with since := t, begun := true, waiting := some (t + d.rd P.tollhouse F.FC_RECUR.MICROS * 1000) }
  let d := { d with ladders := d.ladders.map (fun (x : Ladder) => if x = l then l' else x) }
  if l.direct || l.acked then d.endLadder l' else d

/-- A step has failed (R859, R873): the next begins, or the unit enters FAILED. -/
def Dev.stepFails (d : Dev) (t : Nat) (l : Ladder) : Dev :=
  let l' := { l with since := t }
  let d := { d with ladders := d.ladders.map (fun (x : Ladder) => if x = l then l' else x) }
  if !l.acked ∧ l.step < l.acts.length then d.moveOn l'
  else
    let d := (d.endLadder l').failUnit t (d.sourceUnit l.path)
    (d.markSlot l.slot (fun s => { s with failed := true, resolved := t % 2 ^ 32 })).afterLoss t

/-- Has the greatest time of a running step's action passed without its work ending (R858, R866)? -/
def Dev.stepLate (t : Nat) (l : Ladder) : Bool :=
  let limit := actLimit (l.acts.getD (l.step - 1) 0)
  limit != 0 && decide (l.since + limit < t)

/-- LADDER_STEP_DONE: a running step completes once its work has ended within its greatest time; it fails when its unit is
FAILED or that time has passed (R858). A completed step completes waiting steps in its scope (R864). -/
def Dev.ladderStepDone (d : Dev) (t k : Nat) (ok : Bool) : Dev :=
  match d.ladders.find? (fun l => l.slot == k && l.runs) with
  | none => d
  | some l =>
    if Dev.stepLate t l then (d.stepFails t l).goLadders t
    else if ok then
      (if d.stepEnded l then
        let inside := d.ladders.filter (fun x => !x.begun && x.waiting.isNone && scopeContains l.path x.path)
        let d := inside.foldl (fun d x => d.stepCompletes t x) (d.stepCompletes t l)
        d.goLadders t
      else d)
    else if d.ust (d.sourceUnit l.path) = U.FAILED ∨ t ≥ l.since + actLimit (l.acts.getD (l.step - 1) 0) then (d.stepFails t l).goLadders t
    else d

/-- RECUR_END (R860). -/
def Dev.recurEnd (d : Dev) (t k : Nat) : Dev :=
  match d.ladders.find? (fun l => l.slot == k && (match l.waiting with | some u => decide (u ≤ t) | none => false)) with
  | none => d
  | some l => d.endLadder l

/-! ### Register commands -/

/-- ERR_PULSE_END (R874, R876). -/
def Dev.errPulseEnd (d : Dev) (t : Nat) : Dev := match d.pulseUntil with
  | none => d
  | some u => if t < u then d else { d.wr P.tollhouse F.FC_ERR_PIN_CTL.PULSING 0 with pulseUntil := none }

/-- Is VDD_IO up: power-up has completed and no undervoltage has come; a thermal trip leaves it up (R1046, R1054, R1075)? -/
def Dev.vddIo (d : Dev) : Bool := d.power == .up || d.power == .tripped

/-- R876, R986: does the device drive ERR_N low? With VDD_IO down it drives nothing (R1075). -/
def Dev.errLow (d : Dev) : Bool :=
  d.vddIo && (d.flag P.tollhouse F.FC_ERR_PIN_CTL.PULSING || d.flag P.tollhouse F.FC_ERR_PIN_CTL.DRIVE || d.bt.recoveryHold)

/-- A write of FC_ERR_PIN_CTL (R875, R877, R18). -/
def Dev.errPinWrite (d : Dev) (t v : Nat) : Dev :=
  let p := P.tollhouse
  let d := d.wr p F.FC_ERR_PIN_CTL.DRIVE (bitsOf v 0 1)
  let d := if bitAt v 1 then d.wr p F.FC_ERR_PIN_CTL.ARMED 1 else d
  let n := bitsOf v 16 10
  if n < 10 ∨ n > 1000 then d.illegalWrite t p else d.wr p F.FC_ERR_PIN_CTL.ERR_PULSE_MIN n

/-- Does a BIST_WINDOW hold PHASE (R853)? -/
def Dev.windowOpenNow (d : Dev) : Bool := d.bistWin.isSome

/-- A write of FC_PHASE by the host or the management path (R851). -/
def Dev.phaseWrite (d : Dev) (t v : Nat) : Dev :=
  let ph := d.fcPhase
  let n := bitsOf v 0 2
  if !d.windowOpenNow ∧ ((ph = 1 ∧ n = 2) ∨ (ph = 2 ∧ n = 1)) then d.wr P.tollhouse F.FC_PHASE.PHASE n else d.stateCmd t P.tollhouse

/-- A write of FC_REACT_DATA (R848, R849). -/
def Dev.reactWrite (d : Dev) (t v : Nat) : Dev :=
  let kind := d.rd P.tollhouse F.FC_REACT_SEL.KIND
  let grace := bitsOf v 8 16
  if (kindRow kind).isNone then d
  else if grace < 10 ∨ grace > 10000 ∨ bitsOf v 33 3 > 4 ∨ bitsOf v 36 3 > 4 ∨ bitsOf v 39 3 > 4 ∨ bitAt v 7 ∨ bitsOf v 42 22 ≠ 0 then
    d.illegalWrite t P.tollhouse
  else { d.wri P.tollhouse kind F.FC_REACT_DATA.ENTRY v with reactWritten := (kind :: d.reactWritten).eraseDups }

/-- The 128 bits of a message (R827). -/
def msgBits (m : Msg) : Nat :=
  m.path + m.kind * 2 ^ 16 + m.cls * 2 ^ 26 + m.addr * 2 ^ 29 + m.time * 2 ^ 77 + m.aux * 2 ^ 109

/-- The status word of a slot (FC_LOG_DATA2). -/
def LogSlot.word (s : LogSlot) : Nat :=
  s.state + s.step * 4 + bit s.failed * 16 + bit s.late * 32 + bit s.joined * 64 + bit s.direct * 128 + s.resolved * 2 ^ 32

/-- FC_LOG_READ: a read of FC_LOG_DATA0 copies the selected slot into the read buffer (R206, R899). -/
def Dev.fcLogRead (d : Dev) : Dev :=
  let s := d.slot (d.rd P.tollhouse F.FC_LOG_SEL.SLOT)
  let m := msgBits s.msg
  { d with logBuf := (m % 2 ^ 64, m / 2 ^ 64, s.word), rdata := BitVec.ofNat 512 (m % 2 ^ 64) }

/-! ### The commands -/

def execTollhouseMessage (k : Nat) (s : State) := upd s (fun d => d.tollMessage s.now k)
def execFcAck (k : Nat) (s : State) := upd s (fun d => d.fcAck s.now k)
def execGraceTimerExpiry (k : Nat) (s : State) := upd s (fun d => d.graceExpiry s.now k)
def execLadderStepDone (k : Nat) (ok : Bool) (s : State) := upd s (fun d => d.ladderStepDone s.now k ok)
def execRecurEnd (k : Nat) (s : State) := upd s (fun d => d.recurEnd s.now k)
def execErrPulseEnd (s : State) := upd s (fun d => d.errPulseEnd s.now)
def execErrPinCtlWrite (v : Word) (s : State) := upd s (fun d => d.errPinWrite s.now v.toNat)
def execFcPhaseWrite (v : Word) (s : State) := upd s (fun d => d.phaseWrite s.now v.toNat)
def execFcReactWrite (v : Word) (s : State) := upd s (fun d => d.reactWrite s.now v.toNat)
def execFcLogRead (s : State) := upd s (fun d => d.fcLogRead)

end Sys2Proof.Machine
end

