-- ==== Sys2Proof/Machine/Bist.lean ====
section
/-!
DEFINITION. Sys2Proof/Machine/Bist.lean: self-test in service (R881 to R891, R901) and repair (R892 to R898).
-/

namespace Sys2Proof.Machine

/-! ### Slices and passes -/

/-- Slices per pass of a unit (R882); 0: not tested. -/
def sliceTotal (p : Nat) : Nat :=
  match kindOf p with
  | some .me | some .spare => 24
  | some .sf => 4
  | some .clerk => 6
  | some .io => 4
  | some .sp => 16
  | some .spanCache => 48
  | some .ledger | some .carter | some .trestle => 2
  | some .nmChannel => 48
  | some .kyPort => 2
  | some k => if 0x8000 ≤ p ∧ p % 256 = 0 ∧ k ≠ .group ∧ k ≠ .root then 8 else 0
  | none => 0

def Dev.slicesDone (d : Dev) (p : Nat) : Nat := Tbl.get noNat d.biDone p
/-- Time of a unit's last completed pass, in ns. -/
def Dev.passAt (d : Dev) (p : Nat) : Nat := Tbl.get noNat d.biSince p
def Dev.sliceBudget (d : Dev) : Nat := d.rd P.bist F.BI_SLICE_BUDGET.MICROS * 1000

/-- Is a RUN_STEP announced that has not begun and uses the unit (R883)? One that is not yet fetched is read from its
ring. -/
def Dev.runAhead (d : Dev) (p : Nat) : Bool :=
  (List.range 33).any (fun k =>
    let r := d.ring k
    let uses (x : Docket) : Bool := x.opcode == 2 && (d.runUnits (rsMask x)).contains p
    r.q.any (fun x => x.stage == .fetched && uses x) ||
    (List.range (r.tailN - r.headN)).any (fun i =>
      let a := d.ringSlot k (r.headN + i)
      match d.controlBytes a.1 a.2 64 with
      | .ok bs => uses { n := r.headN + i, bytes := bs, snap := [], stage := .fetched }
      | .error _ => false))

/-- Does another slice run in the unit's bay (R883)? -/
def Dev.bayBusy (d : Dev) (p : Nat) : Bool :=
  isSpanPath p && d.slices.any (fun x => isSpanPath x.path && spanOf x.path == spanOf p && bayOf x.path == bayOf p)

/-- Banks FREE, cells clear and shadow EMPTY: an AM slice may run (R882). -/
def Dev.banksIdle (d : Dev) (p : Nat) : Bool :=
  d.rd p F.ME_STAT.BANK_A == 0 && d.rd p F.ME_STAT.BANK_B == 0 && d.rd p F.ME_STAT.SHADOW == 0 && d.rd p F.ME_STAT.CELLS_HELD == 0

/-- The condition of R882 under which the next slice of a unit runs: the units of the last column only in a BIST_WINDOW that
admits them or with no plan loaded, the others in an idle gap or a window under the same condition. -/
def Dev.gapOk (d : Dev) (p : Nat) (inWindow : Bool) : Bool :=
  match kindOf p with
  | some .me | some .spare => decide (d.slicesDone p < 16) || d.banksIdle p
  | some .sf | some .clerk | some .io => true
  | some .nmChannel => d.freeSpares (spanOf p * 4 + (slotOf p - 8)) != []
  | some .kyPort => d.link (p - 0x8210) == Link.DOWN
  | _ => inWindow || d.plan.isNone

/-- Does a BIST_WINDOW admit the unit (R890)? -/
def BistWin.admits (w : BistWin) (p : Nat) : Bool :=
  if isSpanPath p then w.spans.contains (spanOf p) else w.base && p % 256 == 0

/-- Has the unit been idle for BI_IDLE_MIN (R883; log entry 51)? -/
def Dev.idleFor (d : Dev) (t p : Nat) : Bool :=
  decide (t ≥ Tbl.get noNat d.busyAt p + d.rd P.bist F.BI_IDLE_MIN.MICROS * 1000)

/-- The open BIST_WINDOW that admits the unit (R890). -/
def Dev.windowOf (d : Dev) (p : Nat) : Option BistWin := d.bistWin.filter (fun w => w.start.isSome && w.admits p)

/-- Can a slice that starts now end its budget inside the window (R890)? -/
def Dev.budgetFits (d : Dev) (t : Nat) (w : BistWin) : Bool :=
  decide (t + d.sliceBudget ≤ w.start.getD 0 + w.micros * 1000)

/-- May a slice of the unit start now: in the window that admits it, while its pass of the window is pending (R890), or in
an idle gap (R883)? -/
def Dev.sliceMay (d : Dev) (t p : Nat) : Bool :=
  decide (sliceTotal p > 0) && d.on p && !d.slices.any (fun x => x.path == p) && d.gapOk p (d.windowOf p).isSome &&
  (match d.windowOf p with
   | some w => decide (d.passAt p < w.start.getD 0) && d.budgetFits t w
   | none => d.flag P.bist F.BI_CTL.AUTO && !d.serving p && !d.progRuns p && d.idleFor t p && !d.runAhead p && !d.bayBusy p)

/-- SLICE_START (R883, R890). -/
def Dev.sliceStart (d : Dev) (t p : Nat) : Dev :=
  if d.sliceMay t p then { d with slices := d.slices ++ [({ path := p, since := t, window := (d.windowOf p).isSome } : Slice)] } else d

/-- A slice has passed (R886, R887). -/
def Dev.slicePasses (d : Dev) (t : Nat) (x : Slice) : Dev :=
  let p := x.path
  let done := d.slicesDone p + 1
  let full := decide (done ≥ sliceTotal p)
  let d := { d with
    slices := d.slices.filter (fun y => y.path != p)
    biDone := Tbl.set noNat d.biDone p (if full then 0 else done)
    biSince := if full then Tbl.set noNat d.biSince p t else d.biSince
    biTold := if full then d.biTold.filter (fun q => q != p) else d.biTold
    bistWin := d.bistWin.map (fun (w : BistWin) => if x.window then { w with runs := w.runs + 1 } else w) }
  d.count P.bist F.BI_RUN_CNT.COUNT 1

/-- BI_FAIL_LAST takes a confirmed failure. -/
def Dev.failLast (d : Dev) (t p : Nat) (repaired : Bool) : Dev :=
  let u := P.bist
  let d := (d.raiseBit u F.BI_FAIL_LAST.VALID 0).wr u F.BI_FAIL_LAST.REPAIRED (bit repaired)
  (d.wr u F.BI_FAIL_LAST.PATH p).wr u F.BI_FAIL_LAST.TIME t

/-- The repair journal holds 256 records (R897, R898). -/
def Dev.journalRepair (d : Dev) (p kind : Nat) : Dev :=
  if d.repairs.length < 256 then
    ({ d with repairs := d.repairs ++ [(p, kind)] }).wr P.bist F.BI_FUSE_PEND.COUNT (d.repairs.length + 1)
  else d.wr P.bist F.BI_FUSE_PEND.FULL 1

/-- R896: no repair covers the fault. The message comes from the controller, with the unit in ADDRESS and the slice in
AUX (log entry 52); a failed engine's spare takes over (R312). -/
def Dev.sliceFatal (d : Dev) (t : Nat) (x : Slice) : Dev :=
  let p := x.path
  let d := { d with slices := d.slices.filter (fun y => y.path != p) }
  let d := (d.failLast t p false).send t P.bist K.BI_FAIL Cls.DEFERRED p (d.slicesDone p)
  let d := (d.discardUnit t p noSlot).failUnit t p
  (d.autoSubst t p 2 noSlot).afterLoss t

/-- Can the confirmed fault be repaired: a covered SRAM fault under AUTO_REPAIR (R894), or a DRAM row in a window with
NEAR = 1 (R893)? -/
def Dev.canRepair (d : Dev) (x : Slice) (repairable : Bool) : Bool :=
  repairable && (if kindOf x.path = some .nmChannel then x.window && (match d.bistWin with | some w => w.near | none => false)
    else d.flag P.bist F.BI_CTL.AUTO_REPAIR)

/-- A repaired slice has passed again (R894, R895, R897). -/
def Dev.repairDone (d : Dev) (t : Nat) (x : Slice) : Dev :=
  let p := x.path
  let near := kindOf p == some .nmChannel
  let d := (d.journalRepair p (bit near)).failLast t p true
  let d := d.slicePasses t x
  if near then d
  else
    let d := d.send t P.bist K.BI_REPAIR Cls.INFO p 0
    if x.readable then d else { d with repairDiscards := d.repairDiscards ++ [p] }

/-- A slice runs again, with its budget anew (R892, R894); in a window that this budget would outlast it is abandoned
(R890, log entry 51). -/
def Dev.runAgain (d : Dev) (t : Nat) (x : Slice) : Dev :=
  if x.window ∧ !(d.bistWin.all (d.budgetFits t)) then d.abandonSlice x.path
  else { d with slices := d.slices.map (fun (z : Slice) => if z.path = x.path then { x with since := t } else z) }

/-- SLICE_DONE (R885, R892 to R896): before its budget ends, a slice passes, or fails and runs again; a second failure is
confirmed. The slice of a unit that is no longer ON is abandoned. -/
def Dev.sliceDone (d : Dev) (t p : Nat) (pass repairable readable : Bool) : Dev :=
  match d.slices.find? (fun x => x.path == p) with
  | none => d
  | some x =>
    if t ≥ x.since + d.sliceBudget ∨ !d.on p then d.abandonSlice p
    else if pass then (if x.run = 2 then d.repairDone t x else d.slicePasses t x)
    else if x.run = 0 then d.runAgain t { x with run := 1 }
    else
      let d := if x.run = 1 then
          { d with bistWin := d.bistWin.map (fun (w : BistWin) => if x.window then { w with fails := w.fails + 1 } else w) }.count P.bist F.BI_FAIL_CNT.COUNT 1
        else d
      if x.run = 1 ∧ d.canRepair x repairable then d.runAgain t { x with run := 2, readable := readable }
      else d.sliceFatal t x

/-- SLICE_BUDGET_EXPIRY (R885, R886). -/
def Dev.sliceExpiry (d : Dev) (t p : Nat) : Dev :=
  match d.slices.find? (fun x => x.path == p) with
  | none => d
  | some x => if t < x.since + d.sliceBudget then d else d.abandonSlice p

/-- BI_OVERDUE (R887). -/
def Dev.biOverdue (d : Dev) (t p : Nat) : Dev :=
  if sliceTotal p = 0 ∨ d.biTold.contains p ∨ t < d.passAt p + d.rd P.bist F.BI_COVER.HOURS * 3600000000000 then d
  else { d with biTold := d.biTold ++ [p] }.send t P.bist K.BI_OVERDUE Cls.DEFERRED p 0

/-- BI_AUTO_OFF (R901): slices of idle gaps are abandoned. -/
def Dev.biAutoOff (d : Dev) : Dev :=
  ((d.slices.filter (fun x => !x.window)).map (fun x => x.path)).foldl Dev.abandonSlice (d.wr P.bist F.BI_CTL.AUTO 0)

/-! ### BIST_WINDOW -/

/-- Reserved ARGS bits of BIST_WINDOW, and the offsets at which R888 refuses it. -/
def windowMask (o : Nat) : Nat := if o < 0x15 then 0 else if o = 0x15 then 0xFC else 0xFF
def windowBad (x : Docket) : List Nat :=
  let us := x.field 0x10 4
  (if us < 100 ∨ us > 1000000 then [0x10] else []) ++ (if x.field 0x14 1 = 0 ∧ x.field 0x15 1 % 2 = 0 then [0x14] else [])

/-- The window opens once no docket of R889 is in execution. -/
def Dev.windowGo (d : Dev) (t : Nat) : Dev := match d.bistWin with
  | none => d
  | some w =>
    if w.start.isSome ∨ d.streamingIn then d
    else
      { d with bistWin := some { w with start := some t } }

/-- BIST_WINDOW (R888 to R890, R853). -/
def Dev.bistWindowCmd (d : Dev) (t : Nat) : Dev :=
  match d.bistWin with
  | some _ => d.windowGo t
  | none =>
    match d.nextDocket deviceRing with
    | none => d
    | some x =>
      if x.opcode ≠ 11 ∨ d.kill.isSome ∨ d.captureHeld then d
      else match refusal deviceRing x windowMask (windowBad x) with
      | some (st, det) => d.endDocket deviceRing x.n st det
      | none =>
        let fl := x.field 0x15 1
        let d := d.beginDocket deviceRing x.n
        { d.wr P.tollhouse F.FC_PHASE.PHASE 2 with
          bistWin := some { n := x.n, micros := x.field 0x10 4, spans := spansOf (x.field 0x14 1), base := bitAt fl 0, near := bitAt fl 1, phase := d.fcPhase } }.windowGo t

/-- Units that a window admits. -/
def testedUnits : List Nat := allUnits.filter (fun p => decide (sliceTotal p > 0))

/-- BIST_WINDOW_END (R891): the window's time is over, or every admitted unit that is ON has completed its pass. -/
def Dev.bistWindowEnd (d : Dev) (t : Nat) : Dev := match d.bistWin with
  | none => d
  | some w => match w.start with
    | none => d
    | some s0 =>
      let all := (testedUnits.filter (fun p => w.admits p && d.on p)).all (fun p => decide (s0 ≤ d.passAt p) && !d.slices.any (fun x => x.path == p))
      if t < s0 + w.micros * 1000 ∧ !all then d
      else
        let d := ((d.slices.filter (fun x => x.window)).map (fun (x : Slice) => x.path)).foldl Dev.abandonSlice d
        let d := ({ d with bistWin := none }.wr P.tollhouse F.FC_PHASE.PHASE w.phase).updatePhase
        d.endDocket deviceRing w.n St.OK (w.runs % 2 ^ 32 + w.fails % 2 ^ 32 * 2 ^ 32)

/-! ### The commands -/

def execSliceStart (p : Nat) (s : State) := upd s (fun d => d.sliceStart s.now p)
def execSliceDone (p : Nat) (pass repairable readable : Bool) (s : State) := upd s (fun d => d.sliceDone s.now p pass repairable readable)
def execSliceBudgetExpiry (p : Nat) (s : State) := upd s (fun d => d.sliceExpiry s.now p)
def execBiOverdue (p : Nat) (s : State) := upd s (fun d => d.biOverdue s.now p)
def execBistWindow (s : State) := upd s (fun d => d.bistWindowCmd s.now)
def execBistWindowEnd (s : State) := upd s (fun d => d.bistWindowEnd s.now)
def execBiAutoOff (s : State) := upd s (fun d => d.biAutoOff)

end Sys2Proof.Machine
end

