-- ==== Sys2Proof/Machine/Risk.lean ====
section
/-!
DEFINITION. Sys2Proof/Machine/Risk.lean: the risk estimate (R903 to R911), snapshots (R912 to R931, R938 to R940), pairing
(R933, R937) and RESTORE (R941 to R945).
-/

namespace Sys2Proof.Machine

/-! ### The Assayer -/

/-- One entry of the Assayer log of 16 (AS_LOG_DATA). -/
def Dev.assayLog (d : Dev) (t action : Nat) (suppressed : Bool) : Dev :=
  let p := P.assayer
  let n := d.rd p F.AS_LOG_SEL.TOTAL
  let i := n % 16
  let d := (d.wri p i F.AS_LOG_DATA.TIME t).wri p i F.AS_LOG_DATA.RISK (d.rd p F.AS_RISK.RISK)
  let d := (d.wri p i F.AS_LOG_DATA.ACTION action).wri p i F.AS_LOG_DATA.SUPPRESSED (bit suppressed)
  (d.wri p i F.AS_LOG_DATA.OVERRIDDEN (d.rd p F.AS_OVERRIDE.EN)).wr p F.AS_LOG_SEL.TOTAL (n + 1)

/-- R905: the window sum of counts (CE, RETRAIN, DROOP, STALL, BIFAIL, BIREPAIR) and of the smallest margin. -/
def Dev.windowSum (d : Dev) (n : List Nat) (margin : Option Nat) : Nat :=
  let p := P.assayer
  let w := [F.AS_WEIGHT0.W_CE, F.AS_WEIGHT0.W_RETRAIN, F.AS_WEIGHT0.W_DROOP, F.AS_WEIGHT0.W_STALL, F.AS_WEIGHT1.W_BIFAIL, F.AS_WEIGHT1.W_BIREPAIR].map (d.rd p)
  let temp := match margin with
    | some m => d.rd p F.AS_WEIGHT1.W_TEMP * (d.rd p F.AS_THRESH.TEMP_REF - m)
    | none => 0
  min (((w.zip n).map (fun x => x.1 * x.2)).sum + temp + (if d.flag P.snapshot F.SN_STAT.SAME_FEED then d.rd p F.AS_WEIGHT1.FEED_TERM else 0)) 65535

/-- R906 to R908: one threshold. `code` is its ACTION code. -/
def Dev.crossing (d : Dev) (t code : Nat) (th hi en : Fld) : Dev :=
  let p := P.assayer
  let risk := d.rd p F.AS_RISK.RISK
  let v := d.rd p th
  if risk ≥ v ∧ !d.flag p hi then
    let on := d.flag p en
    let d := (d.wr p hi 1).assayLog t code (!on)
    if !on then d
    else if code = 1 then d.send t p K.AS_ADVISE Cls.INFO 0 risk
    else if code = 2 then
      let d := d.send t p K.AS_SNAPSHOT Cls.INFO 0 0
      if d.flag P.snapshot F.SN_CTL.AUTO then d.wr P.snapshot F.SN_STAT.AUTO_PEND 1 else d
    else (d.send t p K.AS_EVACUATE Cls.DEFERRED 0 0).raiseBit p F.AS_RISK.EVAC_REQ 0
  else if d.flag p hi ∧ risk * 8 < v * 7 then d.wr p hi 0
  else d

/-- What has already counted under input `i` in the window that begins at `e`. -/
def Dev.nextCount (d : Dev) (e i : Nat) : Nat := (d.assay.later.filter (fun x => x.2 == i && decide (x.1 < d.windowEnd e))).length

/-- The Assayer in the window that begins at `e`. -/
def Dev.nextWindow (d : Dev) (e : Nat) : AssaySt :=
  { start := e
    margin := (d.assay.laterMargins.filter (fun x => decide (x.1 < d.windowEnd e))).foldl (fun a x => some (min (a.getD x.2) x.2)) none
    later := d.assay.later.filter (fun x => decide (d.windowEnd e ≤ x.1))
    laterMargins := d.assay.laterMargins.filter (fun x => decide (d.windowEnd e ≤ x.1)) }

/-- ASSAYER_EVAL (R903, R905): 4 µs after the window's end. -/
def Dev.assayerEval (d : Dev) (t : Nat) : Dev :=
  let p := P.assayer
  let e := d.assayEnd
  if t < e + 4000 then d
  else
    let n := (List.range 6).map (fun i => d.rdi p i F.AS_CNT_DATA.CUR)
    let s := d.windowSum n d.assay.margin
    let risk := d.rd p F.AS_RISK.RISK
    let new := max s (risk - risk / 2 ^ d.rd p F.AS_CTL.DECAY)
    let new := if d.flag p F.AS_OVERRIDE.EN then d.rd p F.AS_OVERRIDE.VALUE else new
    let d := (d.wr p F.AS_RISK.RISK new).wr p F.AS_RISK.SUM s
    let d := match d.assay.margin with
      | some m => d.wr p F.AS_TEMP.MARGIN (min m 255)
      | none => d
    let d := (List.range 6).foldl (fun d i =>
      (d.wri p i F.AS_CNT_DATA.LAST (n.getD i 0)).wri p i F.AS_CNT_DATA.CUR (d.nextCount e i)) d
    let d := { d with assay := d.nextWindow e }
    let d := d.crossing t 1 F.AS_THRESH.ADVISE F.AS_RISK.ADV_HI F.AS_CTL.ADV_EN
    let d := d.crossing t 2 F.AS_THRESH.SNAPSHOT F.AS_RISK.SNAP_HI F.AS_CTL.SNAP_EN
    d.crossing t 3 F.AS_THRESH.EVACUATE F.AS_RISK.EVAC_HI F.AS_CTL.EVAC_EN

/-! ### SNAPSHOT begins (R912, R915, R927 to R930) -/

def snList (x : Docket) : Nat := x.field 0x10 8
def snCount (x : Docket) : Nat := x.field 0x18 2
def snFlags (x : Docket) : Nat := x.field 0x1A 1
def snStage (x : Docket) : Nat := x.field 0x20 8
def snFar (x : Docket) : Nat := x.field 0x28 8

/-- Reserved ARGS bits of SNAPSHOT (R927). -/
def snapMask (o : Nat) : Nat := if o < 0x1A then 0 else if o = 0x1A then 0xF8 else if o < 0x20 then 0xFF else if o < 0x38 then 0 else 0xFF

/-- The tier of every 2 MiB page that a range touches, and whether it may be written; `none` where one does not
translate. -/
def Dev.rangeTiers (d : Dev) (a n : Nat) (write : Bool) : Option (List Nat) × Dev :=
  (List.range ((a % MiB2 + n + MiB2 - 1) / MiB2)).foldl (fun (acc : Option (List Nat) × Dev) i =>
    match acc.1 with
    | none => acc
    | some ts =>
      let tr := acc.2.translate 8 (a / MiB2 * MiB2 + i * MiB2) write false
      match tr.1 with
      | .to tier _ _ _ => (some (ts ++ [tier]), tr.2)
      | .fail _ _ _ => (none, tr.2)) (some [], d)

/-- Do two ranges of device addresses overlap? -/
def overlap (a n b m : Nat) : Bool := decide (a < b + m) && decide (b < a + n)

/-- Does a range of device addresses overlap an open near-tier window (R918)? -/
def Dev.hitsWindow (d : Dev) (a n : Nat) : Bool :=
  (List.range 1024).any (fun w => d.rdi P.kyWindows w F.KY_WIN_CTL.OPEN == 1 && d.rdi P.kyWindows w F.KY_WIN_CTL.TGT == 1 &&
    overlap a n (d.rdi P.kyWindows w F.KY_WIN_BASE.BASE) (d.rdi P.kyWindows w F.KY_WIN_SIZE.BYTES))

/-- R918: a region lies in near pages and touches no open near window and no staging area. -/
def Dev.regionOk (d : Dev) (stage : Option Nat) (write : Bool) (r : Nat × Nat) : Bool × Dev :=
  let size := d.rd P.snapshot F.SN_SLOT_BYTES.BYTES
  let ts := d.rangeTiers r.1 r.2 write
  let free := !d.hitsWindow r.1 r.2 && (match stage with | some s => !overlap r.1 r.2 s size | none => true)
  (free && (match ts.1 with | some l => l.all (fun x => decide (x ≤ 1)) | none => false), ts.2)

def Dev.regionsOk (d : Dev) (stage : Option Nat) (write : Bool) (rs : List (Nat × Nat)) : Bool × Dev :=
  rs.foldl (fun (acc : Bool × Dev) r => let x := acc.2.regionOk stage write r; (acc.1 && x.1, x.2)) (true, d)

/-- The positions whose generators an image holds, in order of path (R917). -/
def generatorUnits : List Nat := (allSpans.flatMap spanUnits).filter (fun p => kindOf p == some .me || kindOf p == some .sf)

/-- Bytes of an image before its regions, and of the whole image (section *Image format*). -/
def metaBytes (regions : Nat) : Nat := (256 + 32 * regions + 131072 + 32 * generatorUnits.length + 512 + 512 + 4095) / 4096 * 4096
def imageBytes (rs : List (Nat × Nat)) : Nat := metaBytes rs.length + (rs.map (fun r => r.2)).sum + 64

/-- An access of the snapshot engine: with outcome `res` where that is a failure, else as the command's next access comes back. -/
def Dev.snAccess (d : Dev) (t : Nat) (o : Owner) (p : Nat × Nat) (write : Bool) (bs : List Byte) (res : ReqOutcome) (never : Bool) :
    Option (List Byte) × Dev :=
  match res with
  | .failed _ => d.access t P.snapshot o p.1 p.2 write bs { res := res } 0 never
  | _ => d.accessNext t P.snapshot o p.1 p.2 write bs never

/-- Bytes of a device range as the snapshot engine reads them; a failed or held request ends it with its cause. A region list's read
fails under either failure mode and is never held (R1104): `never`. -/
def Dev.snRead (d : Dev) (t : Nat) (o : Owner) (a n : Nat) (res : ReqOutcome) (never : Bool := false) : Option (List Byte) × Dev :=
  (pieces512 a n).foldl (fun (acc : Option (List Byte) × Dev) p =>
    match acc.1 with
    | none => acc
    | some bs =>
      let r := acc.2.snAccess t o p false [] res never
      (r.1.map (fun x => bs ++ x), r.2)) (some [], d)

/-- Bytes written by the snapshot engine, request by request: did every one succeed? A failed one does not stop the others
(R678). -/
def Dev.snWrite (d : Dev) (t : Nat) (o : Owner) (a : Nat) (bs : List Byte) (res : ReqOutcome) : Bool × Dev :=
  (pieces512 a bs.length).foldl (fun (acc : Bool × Dev) p =>
    let r := acc.2.snAccess t o p true ((bs.drop (p.1 - a)).take p.2) res false
    (acc.1 && r.1.isSome, r.2)) (true, d)

/-- Does a request of the engine stay held under STALL (R676, R681)? Its work then waits for good. -/
def Dev.snHeld (d : Dev) : Bool := d.reqs.any (fun r => r.path == P.snapshot && r.held)

/-- A destination that was asked for, failed. -/
def SnDest.fails (y : SnDest) (st det : Nat) : SnDest := match y with
  | .unused => .unused
  | _ => .failed st det

/-- The DETAIL of the earliest failed request of the engine in this command (R680). -/
def Dev.snDetail (d : Dev) : Nat := d.env.err.getD 0

/-- The offsets at which R928 refuses a SNAPSHOT whose list holds `rs`. -/
def Dev.snapBad (d : Dev) (x : Docket) (rs : List (Nat × Nat)) : List Nat × Dev :=
  let fl := snFlags x
  let must (bad : Bool) (off : Nat) : List Nat := if bad then [off] else []
  let stage := if bitAt fl 2 then some (snStage x) else none
  let size := d.rd P.snapshot F.SN_SLOT_BYTES.BYTES
  let regs := d.regionsOk stage false rs
  let st := if bitAt fl 2 then regs.2.rangeTiers (snStage x) size false else (some [], regs.2)
  let far := if bitAt fl 1 then st.2.rangeTiers (snFar x) (2 * size) false else (some [], st.2)
  let tiersIn (ts : Option (List Nat)) (ok : Nat → Bool) : Bool := match ts with
    | some l => l.all ok
    | none => false
  (must (snList x % 64 != 0) 0x10 ++ must (snCount x == 0 || decide (snCount x > 256)) 0x18 ++
   must (fl % 4 == 0) 0x1A ++ must (bitAt fl 0 && !d.flag P.snapshot F.SN_STAT.PAIRED) 0x1A ++
   must (rs.any (fun r => r.1 % 4096 != 0 || r.2 % 4096 != 0)) 0x10 ++ must (!regs.1) 0x10 ++
   must (decide (imageBytes rs > size)) 0x10 ++
   must (bitAt fl 2 && (snStage x % 4096 != 0 || !tiersIn st.1 (fun k => decide (k ≤ 1)))) 0x20 ++
   must (bitAt fl 1 && (snFar x % 4096 != 0 || !tiersIn far.1 (fun k => k == 2 || k == 3))) 0x28, far.2)

/-- The regions of a list as its bytes give them. -/
def listRegions (bs : List Byte) (n : Nat) : List (Nat × Nat) := (List.range n).map (fun i => (fieldAt bs (16 * i) 8, fieldAt bs (16 * i + 8) 8))

/-- The docket of a SNAPSHOT. -/
def Snap.owner (x : Snap) : Owner := match x.n with
  | some n => .ring deviceRing n
  | none => .nobody

/-- A SNAPSHOT with accepted arguments is in execution. -/
def Dev.startSnap (d : Dev) (t : Nat) (n : Option Nat) (x : Docket) (rs : List (Nat × Nat)) : Dev :=
  let fl := snFlags x
  { d with snaps := d.snaps ++ [({ n := n, regions := rs, stage := if bitAt fl 2 then some (snStage x) else none, farAddr := snFar x, tag := x.field 0x30 8, point := none, buddy := if bitAt fl 0 then .stage 1 else .unused, far := if bitAt fl 1 then .stage 1 else .unused } : Snap)] }.setPoint t

/-- A SNAPSHOT docket of the device ring begins (R912, R928, R1104). -/
def Dev.beginSnap (d : Dev) (t : Nat) (x : Docket) : Dev :=
  let k := deviceRing
  match refusal k x snapMask ((if snList x % 64 != 0 then [0x10] else []) ++ (if snCount x == 0 ∨ snCount x > 256 then [0x18] else [])) with
  | some (st, det) => d.endDocket k x.n st det
  | none =>
    if d.rangeRetrains (snList x) (16 * snCount x) then d
    else
    let b := d.snRead t (.ring k x.n) (snList x) (16 * snCount x) .ok true
    match b.1 with
    | none => b.2.endDocket k x.n St.TIER_ERROR b.2.snDetail
    | some bs =>
      let rs := listRegions bs (snCount x)
      let bad := b.2.snapBad x rs
      match badArgs bad.1 with
      | some (st, det) => bad.2.endDocket k x.n st det
      | none => (bad.2.beginDocket k x.n).startSnap t (some x.n) x rs

/-- R929: the docket held at SN_AUTO_DOCKET begins, at its boundary `due`. Refused arguments are an SN_FAIL with AUX 3 (R930), a failed
read of it or of its list one with AUX 5 (R1104). -/
def Dev.autoSnap (d : Dev) (t due : Nat) : Dev :=
  let p := P.snapshot
  let a := d.rd p F.SN_AUTO_DOCKET.BASE * 64
  let fail (aux : Nat) (d : Dev) : Dev := d.send t p K.SN_FAIL Cls.DEFERRED 0 aux
  let r := d.controlNext (d.flag p F.SN_AUTO_DOCKET.LOC) a 64
  let d := r.2
  match r.1 with
  | .error c => fail 5 (d.failMsg t p c a true)
  | .ok bs =>
    let x : Docket := { n := 0, bytes := bs, snap := [], stage := .begun }
    if x.opcode ≠ 8 ∨ (badArgs (reservedAt x snapMask)).isSome then fail 3 d
    else
      let b := d.snRead t .nobody (snList x) (16 * min (snCount x) 256) .ok true
      match b.1 with
      | none => fail 5 b.2
      | some l =>
        let rs := listRegions l (snCount x)
        let bad := b.2.snapBad x rs
        if bad.1 = [] then bad.2.startSnap due none x rs else fail 3 bad.2

/-- SNAPSHOT: the docket that a step boundary has begun for AUTO_PEND (R929), else the device ring's next when it is one. -/
def Dev.snapshotCmd (d : Dev) (t : Nat) : Dev :=
  match d.pr.autoDue with
  | some due => { d with pr.autoDue := none }.autoSnap t due
  | none =>
    match (d.nextDocket deviceRing).filter (fun x => x.opcode == 8) with
    | some x => if d.kill.isSome then d else d.beginSnap t x
    | none => d

/-! ### The capture (R914, R916, R917) -/

/-- Is a docket of R913 or a sub-docket of one of its kinds in execution (R914)? -/
def Dev.captureWaits (d : Dev) : Bool :=
  d.anyExecuting (fun x => [1, 2, 3, 4, 5, 6, 9, 11, 12].contains x.opcode) ||
  d.subs.any (fun b => (match b.stage with | .ended _ _ => false | _ => true) && [3, 4, 5, 6].contains (fieldAt b.bytes 4 1))

/-- The unit whose registers stand for a position: its serving spare's (R319, R917). -/
def Dev.serverOf (d : Dev) (p : Nat) : Nat := d.sourceUnit p

/-- The generator table. -/
def Dev.generatorBytes (d : Dev) : List Byte :=
  generatorUnits.flatMap (fun p =>
    let u := d.serverOf p
    bytesOfNat 2 p ++ bytesOfNat 1 (bit (kindOf p == some .sf)) ++ List.replicate 5 0 ++
    bytesOfNat 8 (d.rd u F.RNG_SEED.SEED) ++ bytesOfNat 8 (d.rd u F.RNG_STREAM.STREAM) ++ bytesOfNat 8 (d.rd u F.RNG_POS.POS))

/-- Step and docket state, 512 bytes. -/
def Dev.stepBytes (d : Dev) : List Byte :=
  let p := P.dkCtl
  bytesOfNat 4 d.stepNo ++ bytesOfNat 4 (d.rd p F.DK_VTOTAL.VALID) ++ bytesOfNat 4 (d.rd p F.DK_VTOTAL.ATTEMPTED) ++
  bytesOfNat 4 (d.rd p F.DK_SKIP_CNT.COUNT) ++
  (List.range 33).flatMap (fun k => bytesOfNat 4 (d.rd (P.ring k) F.DK_LAST_DONE.SEQ) ++ bytesOfNat 4 (d.rd (P.ring k) F.DK_RING_CTL.EXPECT_SEQ)) ++
  List.replicate 232 0

/-- Collective state, 64 entries of 8 bytes. -/
def Dev.groupBytes (d : Dev) : List Byte :=
  (List.range 64).flatMap (fun g => bytesOfNat 8 (g + d.grp g F.CH_GRP_CFG.VALID * 2 ^ 8 + d.grp g F.CH_GRP_SEQ.SEQ * 2 ^ 32))

/-- The region directory, with regions from image offset `off` on. -/
def Dev.directoryBytes (d : Dev) : Nat → List (Nat × Nat) → List Byte
  | _, [] => []
  | off, r :: rest =>
    let tier := match (d.translate 8 r.1 false false).1 with
      | .to t _ _ _ => t
      | .fail _ _ _ => 7
    bytesOfNat 8 r.1 ++ bytesOfNat 8 r.2 ++ bytesOfNat 8 off ++ bytesOfNat 1 tier ++ List.replicate 7 0 ++ d.directoryBytes (off + r.2) rest

/-- A section entry of the header: kind, entry count, image offset. -/
def sectionEntry (x : Nat × Nat × Nat) : List Byte := bytesOfNat 2 x.1 ++ [0, 0] ++ bytesOfNat 4 x.2.1 ++ bytesOfNat 8 x.2.2

/-- The header (R938). -/
def Dev.headerBytes (d : Dev) (t : Nat) (x : Snap) : List Byte :=
  let n := x.regions.length
  let g := generatorUnits.length
  let o2 := 256 + 32 * n
  let o3 := o2 + 131072
  let o4 := o3 + 32 * g
  let secs : List (Nat × Nat × Nat) := [(0, n, 256), (2, 4096, o2), (3, g, o3), (4, 1, o4), (5, 64, o4 + 512), (1, n, metaBytes n)]
  let h : List Byte := ([0x54, 0x5A, 0x53, 0x4E] : List Byte) ++ bytesOfNat 2 1 ++ bytesOfNat 2 256 ++ bytesOfNat 8 (imageBytes x.regions) ++
    bytesOfNat 4 d.stepNo ++ bytesOfNat 4 (match d.plan with | some pl => pl.id | none => 0) ++ bytesOfNat 8 t ++
    bytesOfNat 4 d.myId ++ ([1, BitVec.ofNat 8 (bit Config.engineeringSample), 8, 96] : List Byte) ++ bytesOfNat 2 d.feedId ++ List.replicate 6 0 ++
    bytesOfNat 8 x.tag ++ List.replicate 8 0 ++ secs.flatMap sectionEntry
  h ++ List.replicate (256 - h.length) 0

/-- Chunks of 1 MiB. -/
def chunks (bs : List Byte) : List (List Byte) := (List.range ((bs.length + 2 ^ 20 - 1) / 2 ^ 20)).map (fun i => (bs.drop (i * 2 ^ 20)).take (2 ^ 20))

/-- A SHA-384 digest as its 48 bytes. -/
def shaBytes (bs : List Byte) : List Byte := (bytesOfNat 48 (Config.sha384 bs).toNat).reverse

/-- The digest of an image without its trailer (R940). -/
def imageDigest (body : List Byte) : List Byte := shaBytes ((chunks body).flatMap shaBytes)

/-- Every destination of the oldest SNAPSHOT fails (R924). -/
def Dev.destsFail (d : Dev) (t : Nat) (x : Snap) (det : Nat) (rest : List Snap) : Dev :=
  let d := if x.buddy = .unused then d else d.destFails t false
  let d := if x.far = .unused then d else d.destFails t true
  let x : Snap := { x with buddy := x.buddy.fails St.TIER_ERROR det, far := x.far.fails St.TIER_ERROR det, out := [] }
  { d.sendingEnds x with snaps := x :: rest }

/-- The bytes of the regions, in list order (R916). -/
def Dev.regionsRead (d : Dev) (t : Nat) (o : Owner) (rs : List (Nat × Nat)) : Option (List Byte) × Dev :=
  rs.foldl (fun (acc : Option (List Byte) × Dev) r => match acc.1 with
    | none => acc
    | some bs => let y := acc.2.snRead t o r.1 r.2 .ok; (y.1.map (fun z => bs ++ z), y.2)) (some [], d)

/-- CAPTURE_START (R914, R916, R917): the image is taken as it stands now. -/
def Dev.captureStart (d : Dev) (t : Nat) : Dev := match d.snaps with
  | [] => d
  | x :: rest =>
    if x.capturing ∨ x.captured ∨ !x.reached d ∨ d.captureWaits ∨ d.snHeld ∨ x.regions.any (fun r => d.rangeRetrains r.1 r.2) then d
    else
      let o := x.owner
      let mb := metaBytes x.regions.length
      let amax := (List.range 4096).flatMap (fun e => (List.range 4).flatMap (fun w => bytesOfNat 8 (d.amaxWord e w)))
      let head := d.headerBytes t x ++ d.directoryBytes mb x.regions ++ amax ++ d.generatorBytes ++ d.stepBytes ++ d.groupBytes
      let body := d.regionsRead t o x.regions
      let log (d : Dev) : Dev := if x.n.isNone then d.assayLog t 4 false else d
      let d := body.2
      match body.1 with
      | none =>
        -- a held read never delivers; a failed one leaves no image for any destination
        if d.snHeld then d
        else (log (d.wr P.snapshot F.SN_STAT.CAPTURING 1)).destsFail t { x with capturing := true, step := d.stepNo } d.snDetail rest
      | some bs =>
        let img := head ++ List.replicate (mb - head.length) 0 ++ bs
        { log (d.wr P.snapshot F.SN_STAT.CAPTURING 1) with snaps := { x with capturing := true, step := d.stepNo, image := img ++ imageDigest img ++ List.replicate 16 0 } :: rest }

/-- CAPTURE_END (R916): with STAGE the copy is in the staging area; without it every destination has ended. -/
def Dev.captureEnd (d : Dev) (t : Nat) : Dev := match d.snaps with
  | [] => d
  | x :: rest =>
    if !x.capturing ∨ d.snHeld ∨ (x.stage.isNone ∧ !(x.buddy.done && x.far.done)) ∨
        x.stage.any (fun a => d.rangeRetrains a x.image.length) then d
    else
      let o := x.owner
      let w : Bool × Dev := match x.stage with
        | some a => if x.image = [] then (true, d) else d.snWrite t o a (x.image.take (x.image.length - 64)) .ok
        | none => (true, d)
      if !w.1 ∧ w.2.snHeld then w.2
      else
        let x' : Snap := { x with capturing := false, captured := true }
        let d : Dev := { w.2 with snaps := x' :: rest, capGap := 0 }
        let d := (d.wr P.snapshot F.SN_STAT.CAPTURING 0).wr P.snapshot F.SN_HOLD_NS.COUNT (t - x.heldAt)
        if w.1 then d else d.destsFail t x' d.snDetail rest

/-! ### Sending (R919 to R924) -/

/-- The bytes of a stage and their offset in the slot (R919). -/
def stageBytes (image : List Byte) (k : Nat) : Nat × List Byte :=
  if k = 1 then (0, List.replicate 256 0) else if k = 2 then (256, image.drop 256) else (0, image.take 256)

/-- PUT frames of at most 4,096 bytes to the buddy window (R921). -/
def Dev.buddyFrames (d : Dev) (off : Nat) (bs : List Byte) : List Frame :=
  let p := P.snapshot
  (List.range ((bs.length + 4095) / 4096)).map (fun i =>
    { dst := d.rd p F.SN_BUDDY.ID, op := Op.PUT, key := d.rd p F.SN_BUDDY_KEY.KEY, win := d.rd p F.SN_BUDDY.WIN, tag := (d.nextPutTag + i) % 2 ^ 16, offset := off + 4096 * i, payload := (bs.drop (4096 * i)).take 4096 })

def Dev.sendFrames (d : Dev) (t : Nat) : List Frame → Bool × Dev
  | [] => (true, d)
  | f :: rest =>
    let r := d.kySend t f
    if r.1 then r.2.sendFrames t rest else (false, r.2)

/-- The image that stage `k` sends (R922): with STAGE as the staging area holds it, its digest computed meanwhile. Stage 1 sends
none of it. -/
def Dev.snapImage (d : Dev) (t : Nat) (x : Snap) (k : Nat) : Option (List Byte) × Dev := match x.stage with
  | some a =>
    if k = 1 then (some [], d)
    else
      let r := d.snRead t x.owner a (x.image.length - 64) .ok
      (r.1.map (fun bs => bs ++ imageDigest bs ++ List.replicate 16 0), r.2)
  | none => (some x.image, d)

/-- Stage `k` goes to the buddy: its PUTs are on their way until they are answered (R919, R921). -/
def Dev.stageBuddy (d : Dev) (t k : Nat) (img : List Byte) (x : Snap) (rest : List Snap) : Dev :=
  let p := P.snapshot
  let sb := stageBytes img k
  let fs := d.buddyFrames (4096 + d.rd p F.SN_STAT.NEXT_SLOT * d.rd p F.SN_SLOT_BYTES.BYTES + sb.1) sb.2
  let x := { x with buddy := .sent k, out := fs.map (fun f => (f.dst, f.win, f.tag, f.offset)) }
  let r := ({ d with nextPutTag := (d.nextPutTag + fs.length) % 2 ^ 16, snaps := x :: rest } : Dev).sendFrames t fs
  if r.1 then r.2 else r.2.buddyFails t x rest

/-- Stage `k` goes to the far tier, and every write of it comes back as `res` says. -/
def Dev.stageFar (d : Dev) (t k : Nat) (img : List Byte) (res : ReqOutcome) (x : Snap) (rest : List Snap) : Dev :=
  let p := P.snapshot
  let sb := stageBytes img k
  let r := d.snWrite t x.owner (x.farAddr + d.rd p F.SN_STAT.FAR_NEXT_SLOT * d.rd p F.SN_SLOT_BYTES.BYTES + sb.1) sb.2 res
  if r.1 then (if k < 3 then { r.2 with snaps := { x with far := .stage (k + 1) } :: rest } else r.2.destCompletes t true x rest)
  else if r.2.snHeld then r.2
  else r.2.destEnds t true St.TIER_ERROR r.2.snDetail x rest

/-- SNAPSHOT_STAGE (R919): the next stage of a destination begins, once every write of the stage before has been acknowledged. A
staging area that cannot be read fails the destination. -/
def Dev.snapStage (d : Dev) (t : Nat) (far : Bool) (res : ReqOutcome) : Dev := match d.snaps with
  | [] => d
  | x :: rest =>
    match (if far then x.far else x.buddy) with
    | .stage k =>
      if !(x.captured || (x.capturing && x.stage.isNone)) || d.snHeld || (far && res == .late) ||
          x.stage.any (fun a => d.rangeRetrains a x.image.length) then d
      else
        let r := (d.wr P.snapshot F.SN_STAT.SENDING 1).snapImage t x k
        match r.1 with
        | none => if r.2.snHeld then r.2 else r.2.destEnds t far St.TIER_ERROR r.2.snDetail x rest
        | some img => if far then r.2.stageFar t k img res x rest else r.2.stageBuddy t k img x rest
    | _ => d

/-- SNAPSHOT_COMPLETE (R923): every destination of the oldest SNAPSHOT has ended. -/
def Dev.snapComplete (d : Dev) (t : Nat) : Dev := match d.snaps with
  | [] => d
  | x :: rest =>
    if !x.captured ∨ !x.buddy.done ∨ !x.far.done then d
    else
      let p := P.snapshot
      let out : Nat × Nat := match x.buddy, x.far with
        | .failed st det, _ => (st, det)
        | _, .failed st det => (st, det)
        | _, _ => (St.OK, imageBytes x.regions)
      let d := { d.wr p F.SN_STAT.SENDING 0 with snaps := rest }
      (match x.n with
       | some n => d.endDocket deviceRing n out.1 out.2
       | none => d).setPoint t

/-! ### Pairing and AUTO -/

/-- SN_PAIR (R933). -/
def Dev.snPair (d : Dev) (t : Nat) : Dev := { d with pr.pairAsked := true }.sendPair t false

/-- SN_UNPAIR (R937). -/
def Dev.snUnpair (d : Dev) (t : Nat) : Dev :=
  let p := P.snapshot
  { ((d.wr p F.SN_STAT.PAIRED 0).wr p F.SN_STAT.SAME_FEED 0).wr p F.SN_STAT.REFUSED_FEED 0 with pr.pairAsked := false }.sendPair t true

/-- SN_AUTO_OFF (R931). -/
def Dev.snAutoOff (d : Dev) : Dev := (d.wr P.snapshot F.SN_CTL.AUTO 0).wr P.snapshot F.SN_STAT.AUTO_PEND 0

/-! ### RESTORE -/

def reMask (o : Nat) : Nat := if o < 0x20 then 0 else if o = 0x20 then 0xFC else 0xFF

/-- The section of a kind: its entry count and image offset. -/
def sectionAt (img : List Byte) (kind : Nat) : Option (Nat × Nat) :=
  ((List.range 8).find? (fun i => fieldAt img (0x40 + 16 * i) 2 == kind && fieldAt img (0x48 + 16 * i) 8 != 0)).map (fun i =>
    (fieldAt img (0x44 + 16 * i) 4, fieldAt img (0x48 + 16 * i) 8))

/-- The regions of an image: device address, bytes, image offset. -/
def imageRegions (img : List Byte) : List (Nat × Nat × Nat) := match sectionAt img 0 with
  | none => []
  | some (n, off) => (List.range n).map (fun i => (fieldAt img (off + 32 * i) 8, fieldAt img (off + 32 * i + 8) 8, fieldAt img (off + 32 * i + 16) 8))

/-- The checks of phase 2 on the header alone. -/
def headerOk (img : List Byte) (bytes : Nat) : Bool :=
  img.take 4 == [0x54, 0x5A, 0x53, 0x4E] && fieldAt img 4 2 == 1 && fieldAt img 6 2 == 256 && fieldAt img 8 8 == bytes &&
  decide (bytes ≥ 320) && [0, 2, 3, 4, 5].all (fun k => (sectionAt img k).isSome)

/-- Bytes of an image that phase 2 reads: the header and sections 0 and 2 to 5, which end with the last of the five. -/
def headBytes (img : List Byte) (bytes : Nat) : Nat :=
  let ends (k size : Nat) : Nat := match sectionAt img k with
    | some x => x.2 + x.1 * size
    | none => 0
  min bytes (max 256 (max (ends 0 32) (max (ends 2 32) (max (ends 3 32) (max (ends 4 512) (ends 5 8))))))

/-- Every region lies in the image before its trailer. -/
def regionsIn (img : List Byte) (bytes : Nat) : Bool := (imageRegions img).all (fun r => decide (r.2.2 + r.2.1 + 64 ≤ bytes))

/-- Phase 5 (R942): the amax/scale table, and with STATE the rest of the training state. -/
def Dev.restoreState (d : Dev) (img : List Byte) (all : Bool) : Dev :=
  let off (k : Nat) : Nat := match sectionAt img k with | some x => x.2 | none => 0
  let d := (List.range 4095).foldl (fun d i =>
    (List.range 4).foldl (fun d w =>
      let v := fieldAt img (off 2 + 32 * (i + 1) + 8 * w) 8
      let v := if w = 3 ∧ fmtIsReserved (bitsOf v 32 4) then withFmt v (bitsOf (d.amaxWord (i + 1) 3) 32 4) else v
      d.putAmaxWord (i + 1) w (v % (if w = 3 then 2 ^ 37 else 2 ^ 64))) d) d
  if !all then d
  else
    let n := match sectionAt img 3 with | some x => x.1 | none => 0
    let d := (List.range n).foldl (fun d i =>
      let o := off 3 + 32 * i
      let p := fieldAt img o 2
      if generatorUnits.contains p then
        let u := d.serverOf p
        ((d.wr u F.RNG_SEED.SEED (fieldAt img (o + 8) 8)).wr u F.RNG_STREAM.STREAM (fieldAt img (o + 16) 8)).wr u F.RNG_POS.POS (fieldAt img (o + 24) 8)
      else d) d
    let s := off 4
    let d := { (d.wr P.dkCtl F.DK_STEP.STEP (fieldAt img s 4)).clearAccum with between := true }
    let d := (d.wr P.dkCtl F.DK_VTOTAL.VALID (fieldAt img (s + 4) 4)).wr P.dkCtl F.DK_VTOTAL.ATTEMPTED (fieldAt img (s + 8) 4)
    let d := d.wr P.dkCtl F.DK_VTOTAL_STEP.SET 0
    let d := (List.range 64).foldl (fun d g =>
      let e := fieldAt img (off 5 + 8 * g) 8
      if d.grp g F.CH_GRP_CFG.VALID = 1 ∧ bitAt e 8 then d.wri P.countingHouse g F.CH_GRP_SEQ.SEQ (e / 2 ^ 32) else d) d
    let d := (allSpans.flatMap spanUnits).foldl Dev.clearRecord d
    match d.plan with
    | none => d
    | some pl => { pl.windows.foldl (fun d w => d.wri (P.carter w.span) w.num F.CA_WIN_STAT.DELIV 0) d with readers := [] }

/-- A RESTORE ends. -/
def Dev.endRestore (d : Dev) (n st det : Nat) : Dev := ({ d with restoring := none }.endDocket deviceRing n st det).updatePhase

/-- Phase 2 (R942): the header and sections 0 and 2 to 5 as `head`, and the checks on them; the status and DETAIL of a failure. -/
def Dev.restoreBad (d : Dev) (head : List Byte) (bytes fl : Nat) : Option Nat × Dev :=
  let ok := d.regionsOk none true ((imageRegions head).map (fun y => (y.1, y.2.1)))
  if !regionsIn head bytes ∨ !ok.1 then (some 0x10, ok.2)
  else if bitAt fl 0 ∧ !bitAt fl 1 ∧ (match d.plan with | some pl => pl.id | none => 0) ≠ fieldAt head 0x14 4 then (some 0x20, ok.2)
  else (none, ok.2)

/-- Phases 3 to 6 (R942): the whole image, its digest, the regions, the state. -/
def Dev.restoreWrite (d : Dev) (t n src bytes fl : Nat) (res : ReqOutcome) : Dev :=
  let o : Owner := .ring deviceRing n
  let r := d.snRead t o src bytes res
  match r.1 with
  | none => if r.2.snHeld then r.2 else r.2.endRestore n St.TIER_ERROR r.2.snDetail
  | some img =>
    if (img.drop (bytes - 64)).take 48 ≠ imageDigest (img.take (bytes - 64)) then r.2.endRestore n St.INTEGRITY 0
    else
      let w := (imageRegions img).foldl (fun (acc : Option Nat × Dev) y =>
        let z := acc.2.snWrite t o y.1 ((img.drop y.2.2).take y.2.1) .ok
        (acc.1.or (if z.1 then none else some y.1), z.2)) (none, r.2)
      match w.1 with
      | some _ => if w.2.snHeld then w.2 else w.2.endRestore n St.TIER_ERROR w.2.snDetail
      | none => { w.2.restoreState img (bitAt fl 0) with between := true }.endRestore n St.OK (fieldAt img 0x10 4)

/-- Phases 2 to 6 (R942), once no docket of R402 is in execution. -/
def Dev.restoreGo (d : Dev) (t : Nat) (res : ReqOutcome) : Dev :=
  match d.restoring with
  | none => d
  | some n =>
    match d.docket deviceRing n with
    | none => d
    | some x =>
      let src := x.field 0x10 8
      let bytes := x.field 0x18 8
      let fl := x.field 0x20 1
      let o : Owner := .ring deviceRing n
      let fails (e : Dev) : Dev := if e.snHeld then e else e.endRestore n St.TIER_ERROR e.snDetail
      if d.streamingIn ∨ d.snHeld ∨ res = .late ∨ d.rangeRetrains src bytes then d
      else
        let h := d.snRead t o src 256 res
        match h.1 with
        | none => fails h.2
        | some hdr =>
          if !headerOk hdr bytes then h.2.endRestore n St.BAD_ARGS 0x10
          else
            let m := h.2.snRead t o src (headBytes hdr bytes) res
            match m.1 with
            | none => fails m.2
            | some head =>
              if (imageRegions head).any (fun y => d.rangeRetrains y.1 y.2.1) then d
              else
              let b := m.2.restoreBad head bytes fl
              match b.1 with
              | some det => b.2.endRestore n St.BAD_ARGS det
              | none => b.2.restoreWrite t n src bytes fl res

/-- RESTORE (R139, R913, R941, R942): the docket begins when the device ring's next one is a RESTORE, and goes on. -/
def Dev.restoreCmd (d : Dev) (t : Nat) (res : ReqOutcome) : Dev :=
  match d.restoring with
  | some _ => d.restoreGo t res
  | none =>
    match d.nextDocket deviceRing with
    | none => d
    | some x =>
      if x.opcode ≠ 9 then d
      else if d.kill.isSome then d.endDocket deviceRing x.n St.BAD_ARGS 0
      else if d.captureHeld then d
      else match refusal deviceRing x reMask (if x.field 0x10 8 % 4096 = 0 then [] else [0x10]) with
      | some (st, det) => d.endDocket deviceRing x.n st det
      | none => ({ d.beginDocket deviceRing x.n with restoring := some x.n }.updatePhase).restoreGo t res

/-! ### The commands -/

def execAssayerEval (s : State) := upd s (fun d => d.assayerEval s.now)
def execSnapshot (s : State) (ctl : List ReqOutcome := []) (acc : List AccessErr := []) :=
  upd s (fun d => d.withEnv ctl acc (fun d => d.snapshotCmd s.now))
def execCaptureStart (s : State) (ctl : List ReqOutcome := []) (acc : List AccessErr := []) :=
  upd s (fun d => d.withEnv ctl acc (fun d => d.captureStart s.now))
def execCaptureEnd (s : State) (ctl : List ReqOutcome := []) (acc : List AccessErr := []) :=
  upd s (fun d => d.withEnv ctl acc (fun d => d.captureEnd s.now))
def execSnapshotStage (far : Bool) (res : ReqOutcome) (s : State) (ctl : List ReqOutcome := []) (acc : List AccessErr := []) :=
  upd s (fun d => d.withEnv ctl acc (fun d => d.snapStage s.now far res))
def execSnapshotComplete (s : State) := upd s (fun d => d.snapComplete s.now)
def execSnPair (s : State) := upd s (fun d => d.snPair s.now)
def execSnUnpair (s : State) := upd s (fun d => d.snUnpair s.now)
def execSnAutoOff (s : State) := upd s (fun d => d.snAutoOff)
def execRestore (res : ReqOutcome) (s : State) (ctl : List ReqOutcome := []) (acc : List AccessErr := []) :=
  upd s (fun d => d.withEnv ctl acc (fun d => d.restoreCmd s.now res))

end Sys2Proof.Machine
end

