-- ==== Sys2Proof/Machine/Boot.lean ====
section
/-!
DEFINITION. Sys2Proof/Machine/Boot.lean: boot (R976 to R1001), its journal and levels (R987 to R998), firmware images and their
update (R981 to R986, R997, R1017) and the boot registers (R1018 to R1021). One BOOT command runs every step; log entry 60
says which records it writes and what its operand decides.
-/

namespace Sys2Proof.Machine

/-! ### Journal and levels -/

/-- The boot number (BT_STAT.BOOT). -/
def Dev.bootNo (d : Dev) : Nat := d.rd P.boot F.BT_STAT.BOOT

/-- A record joins the journal of 3,840 (R995); its TIME, counted from the end of the reset, is a free value. -/
def Dev.jot (d : Dev) (step event res level detail : Nat) : Dev :=
  let r := d.freeBelow (2 ^ 32)
  let rec_ : JRec := ⟨d.bootNo, step, event, res, level, detail, r.1⟩
  { r.2 with bt.journal := (rec_ :: d.bt.journal).take 3840 }

def Dev.level (d : Dev) (r : Nat) : Nat := Tbl.get noNat d.bt.levels r

/-- A resource takes a level, with the boot of the change. -/
def Dev.setLevel (d : Dev) (r v : Nat) : Dev :=
  if d.level r = v then d
  else { d with bt.levels := Tbl.set noNat d.bt.levels r v, bt.levelBoot := Tbl.set noNat d.bt.levelBoot r d.bootNo }

/-- R988. -/
def Dev.exhausted (d : Dev) (r : Nat) : Bool := decide (d.level r ≥ d.rd P.boot F.BT_MAX_ATTEMPTS.COUNT)

/-- A failure of a resource: its level rises and FAIL is recorded (R989, R990). -/
def Dev.resFails (d : Dev) (step r detail : Nat) : Dev :=
  let d := d.setLevel r (min 7 (d.level r + 1))
  d.jot step 2 r (d.level r) detail

/-- A step tries a resource until it works or is exhausted (R989); `bad` attempts fail. The fuel covers the seven levels. -/
def Dev.tryRes (d : Dev) (step r : Nat) : Nat → Nat → Dev × Bool
  | 0, _ => (d, false)
  | fuel + 1, bad =>
    if d.exhausted r then (d, false)
    else if bad = 0 then (d, true)
    else
      let d := d.resFails step r 0
      if d.exhausted r then (d, false) else (d.jot step 3 r (d.level r) 0).tryRes step r fuel (bad - 1)

/-- How many of a resource's attempts fail in this boot. -/
def bootFails (f : BootFacts) (r : Nat) : Nat := match f.fails.find? (fun x => x.1 == r) with
  | some x => x.2
  | none => 0

/-- A resource's part of a step: an alternative past the first is recorded as ALT. A skipped resource stays so at every boot until
CLEAR_LEVELS (R994). -/
def Dev.runRes (d : Dev) (step r : Nat) (f : BootFacts) : Dev × Bool :=
  if d.bt.skipped.contains r then (d, false) else
  let d := if 0 < d.level r ∧ !d.exhausted r then d.jot step 3 r (d.level r) 0 else d
  d.tryRes step r 8 (bootFails f r)

/-- A resource is skipped (R989, R994); SKIP is recorded when it was not yet. -/
def Dev.skipRes (d : Dev) (step r : Nat) : Dev :=
  if d.bt.skipped.contains r then d else { d.jot step 4 r (d.level r) 0 with bt.skipped := d.bt.skipped ++ [r] }

def Dev.atStep (d : Dev) (k : Nat) : Dev := d.wr P.boot F.BT_STAT.STEP k

/-- Boot ends with the root in NO_SERVICE (R993). -/
def Dev.bootStops (d : Dev) (t step r : Nat) : Dev :=
  let d := (d.jot step 5 r (d.level r) 0).wr P.boot F.BT_STAT.STOPPED 1
  ({ d with noService := true }.setState t P.root U.NO_SERVICE).holdFenced

/-! ### Layered identity (R1002 to R1006) -/

/-- HMAC-SHA-384 (RFC 2104), whose blocks are 128 B. -/
def hmac384 (key msg : List Byte) : List Byte :=
  let k := if key.length > 128 then shaBytes key else key
  let k := k ++ List.replicate (128 - k.length) 0
  shaBytes (k.map (fun b => b ^^^ 0x5C) ++ shaBytes (k.map (fun b => b ^^^ 0x36) ++ msg))

/-- The blocks T(i) of HKDF-Expand (RFC 5869), after the block `last` with number `i`. -/
def hkdfBlocks (prk info : List Byte) : Nat → Nat → List Byte → List Byte
  | 0, _, _ => []
  | fuel + 1, i, last =>
    let b := hmac384 prk (last ++ info ++ [BitVec.ofNat 8 (i + 1)])
    b ++ hkdfBlocks prk info fuel (i + 1) b

/-- HKDF-SHA-384 (RFC 5869); without a salt, 48 zero bytes. -/
def hkdf (salt secret info : List Byte) : List Byte :=
  let prk := hmac384 (if salt = [] then List.replicate 48 0 else salt) secret
  (hkdfBlocks prk info ((Config.derivedBytes + 47) / 48) 0 []).take Config.derivedBytes

def asciiBytes (s : String) : List Byte := s.toList.map (fun c => BitVec.ofNat 8 c.toNat)

/-- The order of P-384. -/
def p384Order : Nat := 0xFFFFFFFFFFFFFFFFFFFFFFFFFFFFFFFFFFFFFFFFFFFFFFFFC7634D81F4372DDF581A0DB248B0A77AECEC196ACCC52973

/-- The private key of a derived value (R1002), read as a big-endian number (log entry 101). -/
def privateKey (derived : List Byte) : Nat := natOfBytes derived.reverse % (p384Order - 1) + 1

def digestBytes (v : BitVec 384) : List Byte := (bytesOfNat 48 v.toNat).reverse

/-- ROM derives the DeviceID key pair (R1002). -/
def Dev.deriveDevice (d : Dev) : Dev :=
  let k := privateKey (hkdf [] (digestBytes Config.uniqueSecret) (asciiBytes "TZ9 DeviceID"))
  { d with dice := { deviceKey := some k, devicePub := Config.p384Public k } }

/-- The digest of the header and body of an image area (R1009, R1003). -/
def Dev.imageSha (d : Dev) (b : Bool) : List Byte :=
  digestBytes (Config.imageDigest (bit b) (d.flash.filter (fun c => c.1 / 2 ^ 24 == bit b + 1)))

/-- IMAGE derives the alias identity of an accepted image, issues its certificate, and before the firmware starts erases the
DeviceID private key and locks the unique device secret (R1003 to R1005). -/
def Dev.deriveAlias (d : Dev) (digest : List Byte) (svn slot : Nat) : Dev :=
  let id := hkdf (digest ++ bytesOfNat 4 svn ++ bytesOfNat 1 slot) (digestBytes Config.uniqueSecret) []
  let k := privateKey (hkdf [] id (asciiBytes "TZ9 Alias"))
  let pub := Config.p384Public k
  { d with dice := { d.dice with
      aliasId := id, aliasKey := k, deviceKey := none, locked := true
      cert := d.dice.deviceKey.map (fun dk => { key := pub, digest := digest, svn := svn, slot := slot, signature := Config.ecdsaSign dk (pub ++ digest ++ bytesOfNat 4 svn ++ bytesOfNat 1 slot) }) } }

/-! ### ROM -/

/-- R990, R991: resources whose last record from the previous boot is a START. -/
def Dev.openStarts (d : Dev) : List Nat :=
  (List.range 60).filter (fun r => match d.bt.journal.find? (fun x => x.boot + 1 == d.bootNo && x.resource == r) with
    | some x => x.event == 0
    | none => false)

/-- Every level and skip cleared (R996). -/
def Dev.levelsCleared (d : Dev) : Dev :=
  if d.bt.clearPend then { (List.range 60).foldl (fun d r => d.setLevel r 0) d with bt.skipped := [], bt.clearPend := false } else d

/-- Step ROM (R990, R996, R1002, R1071, R1079). -/
def Dev.stepRom (d : Dev) (f : BootFacts) : Dev :=
  let u := P.boot
  let d := (d.wr u F.BT_STAT.BOOT (d.bootNo + 1)).atStep 0
  let d := (d.wr u F.BT_STRAPS.SLOT_ID f.slotId).wr u F.BT_STRAPS.MGMT_SEL (bit f.mgmtSel)
  let d := (d.wr u F.BT_STRAPS.DBG_EN (bit f.dbgEn)).wr u F.BT_STRAPS.FEED_ID f.feedId
  let d := (d.wr P.snapshot F.SN_FEED.STRAP (f.feedId % 256)).wr P.snapshot F.SN_FEED.VALUE (f.feedId % 256)
  let d := d.levelsCleared.deriveDevice
  d.openStarts.foldl (fun d r => d.resFails 0 (if r = 1 then 0 else r) 0) d

/-! ### IMAGE -/

/-- Where an image area begins in the flash (R981). -/
def imageBase (imageB : Bool) : Nat := if imageB then 0x2000000 else 0x1000000

def Dev.flashBytes (d : Dev) (a n : Nat) : List Byte := Tbl.getN zeroByte d.flash a n
def Dev.flashNat (d : Dev) (a n : Nat) : Nat := natOfBytes (d.flashBytes a n)

/-- Has the area been written since manufacture? -/
def Dev.imageWritten (d : Dev) (b : Bool) : Bool := d.flash.any (fun c => c.1 / 2 ^ 24 == imageBase b / 2 ^ 24)

/-- Check 1 of R984: MAGIC, VERSION and BODY_BYTES of R982. -/
def Dev.headerOk (d : Dev) (b : Bool) : Bool :=
  let a := imageBase b
  let body := d.flashNat (a + 12) 4
  !d.imageWritten b ||
  (d.flashBytes a 4 == ([0x54, 0x5A, 0x46, 0x57] : List Byte) && d.flashNat (a + 4) 2 == 1 && body % 16 == 0 && decide (body + 352 ≤ 2 ^ 24))

def Dev.imageSlot (d : Dev) (b : Bool) : Nat := d.flashNat (imageBase b + 6) 1
def Dev.imageSvn (d : Dev) (b : Bool) : Nat := d.flashNat (imageBase b + 8) 4

/-- Check 3 of R984: SHA-384 of PUBKEY is the digest of the key slot. -/
def Dev.keyOk (d : Dev) (b : Bool) : Bool :=
  !d.imageWritten b || shaBytes (d.flashBytes (imageBase b + 0x20) 97) == digestBytes (Config.keyDigest (d.imageSlot b))

/-- The checks of R984 on an image: 0, or the number of the first that fails; whether the signature verifies (check 5) is the
operand's. -/
def Dev.imageCheck (d : Dev) (b : Bool) (f : BootFacts) : Nat :=
  let u := P.boot
  let k := d.imageSlot b
  if !d.headerOk b then 1
  else if k > 2 ∨ !bitAt (d.rd u F.BT_KEY_STAT.PROGRAMMED) k ∨ bitAt (d.rd u F.BT_KEY_STAT.REVOKED) k then 2
  else if !d.keyOk b then 3
  else if d.imageSvn b < d.rd u F.BT_SVN.FUSE_SVN then 4
  else if !(if b then f.sigB else f.sigA) then 5
  else 0

/-- An image is accepted (R1003 to R1005). -/
def Dev.acceptImage (d : Dev) (b : Bool) : Dev :=
  let u := P.boot
  let d := (d.wr u F.BT_STAT.IMAGE (bit b)).wr u F.BT_STAT.KEY_SLOT (d.imageSlot b)
  let d := d.deriveAlias (d.imageSha b) (d.imageSvn b) (d.imageSlot b)
  (d.wr u F.BT_SVN.IMAGE_SVN (d.imageSvn b)).jot 1 1 0xFF 0 0

/-- The recovery hold (R986). -/
def Dev.holdRecovery (d : Dev) : Dev := { d with bt.recoveryHold := true }

/-- Step IMAGE (R984 to R986): both images are tried in one boot; false: the recovery hold. -/
def Dev.stepImage (d : Dev) (f : BootFacts) : Dev × Bool :=
  let d := d.atStep 1
  if d.exhausted 0 then (d.holdRecovery, false)
  else
    let d := if 0 < d.level 0 then d.jot 1 3 0 (d.level 0) 0 else d
    let first := d.flag P.boot F.BT_CTL.NEXT_IMAGE != decide (0 < d.level 0)
    let c := d.imageCheck first f
    if c = 0 then (d.acceptImage first, true)
    else
      let d := d.resFails 1 0 c
      let d := d.jot 1 3 0 (d.level 0) 0
      let c := d.imageCheck (!first) f
      if c = 0 then (d.acceptImage (!first), true) else ((d.resFails 1 0 c).holdRecovery, false)

/-! ### BASE to BIST -/

/-- Step BASE: the root VCO and the PHY PLLs lock (R976). -/
def Dev.stepBase (d : Dev) (f : BootFacts) : Dev × Bool :=
  let u := P.clocks
  let r := (d.atStep 2).runRes 2 1 f
  if !r.2 then r
  else
    let d := (r.1.wr u F.CK_STAT.REF_OK 1).wr u F.CK_STAT.VCO_LOCK 1
    (((d.wr u F.CK_STAT.FALLBACK 0).wr u F.CK_PHY_LOCK0.G7 (2 ^ 32 - 1)).wr u F.CK_PHY_LOCK1.KY (2 ^ 24 - 1) |>.wr u F.CK_PHY_LOCK1.CXL 3, true)

/-- The remap table of a stack from the flash (R623). -/
def Dev.reloadRemaps (d : Dev) (n : Nat) : Dev :=
  let p := P.nmChannel n
  let one (d : Dev) (e : Nat × Retired) : Dev :=
    let d := (d.wri p e.1 F.NM_REMAP_DATA.GRANULE e.2.granule).wri p e.1 F.NM_REMAP_DATA.SPARE e.2.spare
    let d := (d.wri p e.1 F.NM_REMAP_DATA.CAUSE e.2.cause).wri p e.1 F.NM_REMAP_DATA.TIME e.2.time
    d.wri p e.1 F.NM_REMAP_DATA.VALID 1
  let mine := d.flashRetired.filter (fun r => r.stack == n)
  ((List.range mine.length).zip mine).foldl one d

/-- A stack trains at the rate of its level, or is absent (R987, R994). -/
def Dev.bootStack (f : BootFacts) (d : Dev) (n : Nat) : Dev :=
  let p := P.nmChannel n
  let r := d.runRes 3 (2 + n) f
  if r.2 then ((r.1.wr p F.NM_CH_STAT.PRESENT 1).wr p F.NM_CH_STAT.RATE (min 2 (r.1.level (2 + n)))).reloadRemaps n
  else (r.1.skipRes 3 (2 + n)).wr p F.NM_CH_STAT.PRESENT 0

/-- Post-package repair of a row of stack `n`, whose granules are retired, in a maintenance boot (R893, R897): the repair
is a pending fuse repair (log entry 61). -/
def Dev.bootPpr (d : Dev) (n : Nat) : Dev :=
  if n < 32 ∧ d.flashRetired.any (fun r => r.stack == n) then d.journalRepair (P.nmChannel n) 1 else d

/-- The persistent changes of a maintenance boot (R898, R999 to R1001). -/
def Dev.maintenance (f : BootFacts) (d : Dev) : Dev :=
  let u := P.boot
  if !d.flag u F.BT_CTL.MAINT_NEXT then d
  else
    let d := d.wr u F.BT_STAT.MAINT 1
    let d : Dev := d.repairs.foldl (fun d _ => d.jot 3 1 0xFF 0 0) d
    let d : Dev := { d with repairs := [] }
    let d := f.ppr.foldl Dev.bootPpr d
    let svn := min 64 (d.rd u F.BT_SVN.IMAGE_SVN)
    let d := if d.flag u F.BT_CTL.SVN_COMMIT ∧ d.rd u F.BT_SVN.FUSE_SVN < svn then (d.wr u F.BT_SVN.FUSE_SVN svn).jot 3 1 0xFF 0 0 else d
    let k := d.rd u F.BT_CTL.REVOKE
    let d := if 0 < k ∧ d.rd u F.BT_STAT.KEY_SLOT ≠ k - 1 then
        (d.wr u F.BT_KEY_STAT.REVOKED (Nat.lor (d.rd u F.BT_KEY_STAT.REVOKED) (2 ^ (k - 1)))).jot 3 1 0xFF 0 0
      else d
    ((d.wr u F.BT_CTL.MAINT_NEXT 0).wr u F.BT_CTL.SVN_COMMIT 0).wr u F.BT_CTL.REVOKE 0

/-- Step NEAR (R976, R987, R623, R999). -/
def Dev.stepNear (d : Dev) (f : BootFacts) : Dev :=
  let d := (d.atStep 3).jot 3 0 0xFF 0 0
  let d := (List.range 32).foldl (Dev.bootStack f) d
  (d.maintenance f).jot 3 1 0xFF 0 0

/-- Step KYINO (R980): a port whose calibration fails up to the limit is skipped. -/
def Dev.stepKyino (d : Dev) (f : BootFacts) : Dev :=
  (List.range 24).foldl (fun d p =>
    let r := d.runRes 4 (34 + p) f
    if r.2 then r.1 else r.1.skipRes 4 (34 + p)) (d.atStep 4)

/-- The CXL links as they train at the level of resource 58 (R987). -/
def Dev.linkUpAt (d : Dev) (level : Nat) : Dev :=
  let u := P.hostIf
  let two := level == 0 && d.flag u F.HI_LINK_CFG.BIFURCATE
  let d := d.wr u F.HI_LINK_STAT.MODE (if level = 0 then bit two else 2)
  let d := (d.wr u F.HI_LINK_STAT.UP0 1).wr u F.HI_LINK_STAT.UP1 (bit two)
  let d := (d.wr u F.HI_LINK_STAT.RATE (if level < 2 then 0 else 1)).wr u F.HI_LINK_STAT.FLIT256 (if level < 2 then 1 else 0)
  (d.wr u F.HI_LINK_STAT.WIDTH0 (if level = 0 ∧ !two then 16 else 8)).wr u F.HI_LINK_STAT.WIDTH1 (if two then 8 else 0)

/-- Step CXL (R976, R987). -/
def Dev.stepCxl (d : Dev) (f : BootFacts) : Dev × Bool :=
  let r := (d.atStep 5).runRes 5 58 f
  if !r.2 then r else ((r.1.linkUpAt (r.1.level 58)).jot 5 1 58 (r.1.level 58) 0, true)

/-- A unit that step BIST finds bad enters FAILED (R896), with its slice a free value. -/
def Dev.bootBad (t : Nat) (d : Dev) (p : Nat) : Dev :=
  if sliceTotal p = 0 ∨ d.ust p = U.FAILED then d
  else
    let r := d.freeBelow (sliceTotal p)
    let d := (r.2.count P.bist F.BI_FAIL_CNT.COUNT 1).failLast t p false
    (d.send t P.bist K.BI_FAIL Cls.DEFERRED p r.1).setState t p U.FAILED

/-- A unit whose slice ran when the previous boot ended (R992). -/
def Dev.bootUntested (t : Nat) (d : Dev) (p : Nat) : Dev := (d.setState t p U.FAILED).jot 6 4 59 (d.level 59) p

/-- Step BIST (R976, R992): a full pass of every unit. -/
def Dev.stepBist (d : Dev) (t : Nat) (f : BootFacts) : Dev × Bool :=
  let r := (d.atStep 6).runRes 6 59 f
  if !r.2 then r
  else
    let d := r.1.wr P.bist F.BI_FUSE_PEND.COUNT r.1.repairs.length
    let d := d.lastSlices.foldl (Dev.bootUntested t) d
    let d := { d with lastSlices := [], biDone := [], biTold := [] }
    let d := f.badUnits.foldl (Dev.bootBad t) d
    let good := allUnits.filter (fun p => decide (sliceTotal p > 0) && d.ust p != U.FAILED)
    ({ d with biSince := good.map (fun (p : Nat) => (p, t)) |>.foldl (fun m e => Tbl.set noNat m e.1 e.2) [] }, true)

/-! ### READY -/

/-- A unit that passed is enabled and, below an ON parent, ON (R976); a skipped port stays OFF (R994). -/
def Dev.bootEnable (t : Nat) (d : Dev) (p : Nat) : Dev :=
  if d.shut p ∨ d.heldOff p then d
  else
    let d := d.wr p F.UNIT_CTL.ENABLE 1
    if d.parentOn p then (d.startWork p).moveUnit t p U.ON else d

/-- Step READY (R43, R46, R49, R850). -/
def Dev.stepReady (d : Dev) (t : Nat) : Dev :=
  let d := allUnits.foldl (Dev.bootEnable t) (d.atStep 7)
  let d := { d with hdmSize := d.reserveStart }
  let d := (d.wr P.boot F.BT_STAT.READY 1).wr P.tollhouse F.FC_PHASE.PHASE 1
  let d := d.jot 7 1 0xFF 0 0
  if d.serviceMet then d else ({ d with noService := true }.setState t P.root U.NO_SERVICE).holdFenced

/-! ### BOOT -/

/-- May boot run: the module is powered, and no boot has run since the reset? -/
def Dev.unbooted (d : Dev) : Bool :=
  d.power == .up && !d.flag P.boot F.BT_STAT.READY && !d.flag P.boot F.BT_STAT.STOPPED && !d.bt.recoveryHold

/-- Steps NEAR to READY. -/
def Dev.bootRest (d : Dev) (t : Nat) (f : BootFacts) : Dev :=
  let r := ((d.stepNear f).stepKyino f).stepCxl f
  if !r.2 then r.1.bootStops t 5 58
  else
    let r := r.1.stepBist t f
    if !r.2 then r.1.bootStops t 6 59 else r.1.stepReady t

/-- BOOT (R976). -/
def Dev.boot (d : Dev) (t : Nat) (f : BootFacts) : Dev :=
  if !d.unbooted then d
  else
    let r := (d.stepRom f).stepImage f
    if !r.2 then r.1
    else
      let r := r.1.stepBase f
      if !r.2 then r.1.bootStops t 2 1 else r.1.bootRest t f

/-- The resource of a step that is a single resource; 0xFF for the others. -/
def stepResource (k : Nat) : Nat := if k = 1 then 0 else if k = 2 then 1 else if k = 5 then 58 else if k = 6 then 59 else 0xFF

/-- BOOT_STEP_TIMEOUT (R977): the step's START has no outcome, so that R990 counts it at the next boot. -/
def Dev.bootTimeout (d : Dev) (k : Nat) : Dev :=
  if !d.unbooted ∨ k > 7 then d
  else
    let d := d.wr P.boot F.BT_STAT.BOOT (d.bootNo + 1)
    let d := (d.jot k 0 (stepResource k) (if stepResource k = 0xFF then 0 else d.level (stepResource k)) 0).jot k 2 0xFF 0 0
    d.deviceReset 4

/-! ### Boot registers and firmware -/

/-- REVOKE (R1020): a value that names an unprogrammed slot is ignored. -/
def Dev.revoke (d : Dev) (t v : Nat) : Dev :=
  if v > 3 ∨ (0 < v ∧ !bitAt (d.rd P.boot F.BT_KEY_STAT.PROGRAMMED) (v - 1)) then d.illegalWrite t P.boot
  else d.wr P.boot F.BT_CTL.REVOKE v

/-- The 128 bits of a journal record (R995). -/
def JRec.bits (r : JRec) : Nat :=
  r.boot % 2 ^ 32 + r.step % 8 * 2 ^ 32 + r.event % 8 * 2 ^ 35 + r.resource % 256 * 2 ^ 40 + r.level % 4 * 2 ^ 48 +
  r.detail % 2 ^ 32 * 2 ^ 64 + r.time % 2 ^ 32 * 2 ^ 96

/-- BT_JRNL_READ (R1021): the selected record enters the read buffer; where no record is held, zero. -/
def Dev.jrnlRead (d : Dev) : Dev :=
  let v := match d.bt.journal[d.rd P.boot F.BT_JRNL_SEL.RECORD]? with
    | some r => r.bits
    | none => 0
  { d with bt.jrnlBuf := v, rdata := BitVec.ofNat 512 (v % 2 ^ 64) }

/-- Does the management path run (R998, R1012): from step BASE, or for firmware update in the recovery hold? -/
def Dev.booted (d : Dev) : Bool := d.flag P.boot F.BT_STAT.READY || d.flag P.boot F.BT_STAT.STOPPED

/-- FIRMWARE_UPDATE (R986, R1017): bytes of the area that NEXT_IMAGE does not name, and never of the running image. -/
def Dev.firmwareUpdate (d : Dev) (off : Nat) (bs : List Byte) : Dev :=
  let b := !d.flag P.boot F.BT_CTL.NEXT_IMAGE
  let running := d.booted && d.flag P.boot F.BT_STAT.IMAGE == b
  if !(d.booted || d.bt.recoveryHold) ∨ running ∨ off + bs.length > 2 ^ 24 then d
  else { d with flash := Tbl.setAll zeroByte d.flash (imageBase b + off) bs, updated := some (bit b) }

/-- ACTIVATE_FIRMWARE (R997). -/
def Dev.activate (d : Dev) : Dev := match d.updated with
  | some b => (d.wr P.boot F.BT_CTL.NEXT_IMAGE b).setLevel 0 0
  | none => d

/-! ### The commands -/

def execBoot (f : BootFacts) (s : State) := upd s (fun d => d.boot s.now f)
def execBootStepTimeout (k : Nat) (s : State) := upd s (fun d => d.bootTimeout k)
def execClearLevels (s : State) := upd s (fun d => { d with bt.clearPend := true })
def execMaintNext (s : State) := upd s (fun d => d.wr P.boot F.BT_CTL.MAINT_NEXT 1)
def execSvnCommit (s : State) := upd s (fun d => d.wr P.boot F.BT_CTL.SVN_COMMIT 1)
def execRevoke (v : Nat) (s : State) := upd s (fun d => d.revoke s.now v)
def execNextImage (b : Bool) (s : State) := upd s (fun d => d.wr P.boot F.BT_CTL.NEXT_IMAGE (bit b))
def execBtJrnlRead (s : State) := upd s (fun d => d.jrnlRead)
def execFirmwareUpdate (off : Nat) (bs : List Byte) (s : State) := upd s (fun d => d.firmwareUpdate off bs)
def execActivateFirmware (s : State) := upd s (fun d => d.activate)

end Sys2Proof.Machine
end

