-- ==== Sys2Proof/Machine/HostIf.lean ====
section
/-!
DEFINITION. Sys2Proof/Machine/HostIf.lean: the CXL side (R950 to R975): HDM reads and writes, the snoop filter, resets and link
events; and attestation and telemetry (R1007 to R1013, R1073).
-/

namespace Sys2Proof.Machine

/-! ### HDM (R961 to R970) -/

/-- The line of a host request, which lies in the HDM range, below the device reserve (R596), and reaches the device over a link that
is up. -/
def Dev.hdmLine (d : Dev) (addr : Nat) : Option Nat :=
  if addr / 64 * 64 + 64 ≤ min d.hdmSize d.reserveStart ∧ d.anyCxl then some (addr / 64) else none

/-- Does the stack of a striped address retrain its link (R587)? -/
def Dev.stackBusy (d : Dev) (key : Nat) : Bool := match d.nearPlace key with
  | some (k, _) => d.retraining.contains k
  | none => false

/-- Lines of the snoop filter in the set of a line: 262,144 entries, 16-way (R966). -/
def Dev.sfSet (d : Dev) (line : Nat) : List SfLine := d.snoop.filter (fun l => l.line % 16384 == line % 16384)

/-- R966, R969: the line enters the filter, or is its most recent use. false: its set is full, and the request waits for
the host to give up the least recently used entry. -/
def Dev.sfEnter (d : Dev) (line : Nat) (excl : Bool) : Bool × Dev :=
  if !d.flag P.hostIf F.HI_HDM_CTL.DB_EN then (true, d)
  else match d.snoop.find? (fun l => l.line == line) with
    | some l =>
      if l.asked then (false, d)
      else (true, { d with snoop := d.snoop.filter (fun x => x.line != line) ++ [({ line := line, excl := l.excl || excl } : SfLine)] })
    | none =>
      if (d.sfSet line).length < 16 then (true, { d with snoop := d.snoop ++ [({ line := line, excl := excl } : SfLine)] })
      else match d.sfSet line with
        | [] => (true, d)
        | l :: _ =>
          if l.asked ∧ l.inv then (false, d)
          else (false, { d.count P.hostIf F.HI_BISNP_CNT.COUNT 1 with
            snoop := d.snoop.map (fun (x : SfLine) => if x.line = l.line then { x with asked := true, inv := true } else x)
            cxl := d.cxl ++ [.bisnpInv l.line] })

/-- HDM_READ (R963, R964, R470): one line from the near tier and the span caches. -/
def Dev.hdmRead (d : Dev) (t addr symErrs : Nat) (excl : Bool) : Dev :=
  match d.hdmLine addr with
  | none => d
  | some line =>
    if d.stackBusy (line * 64) then d
    else
      let e := d.sfEnter line excl
      if !e.1 then e.2
      else
        let r := e.2.nearRead t (line * 64) (line * 64) 64 symErrs
        match r.1 with
        | .bytes bs => { r.2 with rdata := BitVec.ofNat 512 (natOfBytes bs) }
        | .fail c =>
          let d := (r.2.failMsg t P.hostIf c (line * 64) true).count P.hostIf F.HI_POISON_CNT.COUNT 1
          { d with rdata := 0, cxl := d.cxl ++ [.poison (line * 64)] }

/-- A host write of poisoned data: the bytes are stored and their code sectors are poisoned (R965, R602). -/
def Dev.poisonWrite (d : Dev) (t addr : Nat) (data : List Byte) : Dev :=
  let d := d.scInvalidateOthers t 8 (addr / 512)
  (sectorPieces addr data.length).foldl (fun d pc =>
    (d.putStack pc.1 ((data.drop (pc.1 - addr)).take pc.2)).setPoison pc.1 true) d

/-- HDM_WRITE (R963, R965): bytes of one line. -/
def Dev.hdmWrite (d : Dev) (t addr : Nat) (data : List Byte) (poison : Bool) : Dev :=
  match d.hdmLine addr with
  | none => d
  | some line =>
    if d.stackBusy (line * 64) ∨ addr % 64 + data.length > 64 ∨ data = [] then d
    else if poison then d.poisonWrite t addr data
    else
      let r := d.baseWrite t addr addr data 0
      match r.1 with
      | none => r.2
      | some c => r.2.failMsg t P.hostIf c addr true

/-- BISNP_RESPONSE (R967 to R969). -/
def Dev.bisnpResponse (d : Dev) (line : Nat) : Dev :=
  match d.snoop.find? (fun l => l.line == line && l.asked) with
  | none => d
  | some l =>
    if l.inv then { d with snoop := d.snoop.filter (fun x => x.line != line) }
    else { d with snoop := d.snoop.map (fun (x : SfLine) => if x.line = line then { x with excl := false, asked := false } else x) }

/-! ### Resets and link events (R973, R975) -/

/-- PERST_N low for `us` microseconds (R973, R1081, R1083); from 1 to 100 µs the device may take it or not. -/
def Dev.perst (d : Dev) (us : Nat) : Dev :=
  if us < 1 ∨ d.power ≠ .up then d
  else if us ≥ 100 then d.deviceReset 1
  else
    let f := d.freeBelow 2
    if f.1 = 1 then f.2.deviceReset 1 else f.2

/-- An HI_ERR message with its record (R975). -/
def Dev.hiErr (d : Dev) (t link cause : Nat) : Dev :=
  let u := P.hostIf
  let d := d.send t u K.HI_ERR Cls.DEFERRED 0 (cause + 8 * link)
  if d.flag u F.HI_ERR_LAST.VALID then d
  else
    let d := (d.raiseBit u F.HI_ERR_LAST.VALID 0).wr u F.HI_ERR_LAST.CAUSE cause
    (d.wr u F.HI_ERR_LAST.LINK link).wr u F.HI_ERR_LAST.TIME t

/-- Fields of a link in HI_LINK_STAT. -/
def upFld (l : Nat) : Fld := if l = 0 then F.HI_LINK_STAT.UP0 else F.HI_LINK_STAT.UP1
def widthFld (l : Nat) : Fld := if l = 0 then F.HI_LINK_STAT.WIDTH0 else F.HI_LINK_STAT.WIDTH1

/-- CXL_LINK_DOWN (R954, R973): outstanding far-tier requests of the link fail with FAR_DOWN. -/
def Dev.cxlDown (d : Dev) (t l : Nat) : Dev :=
  if l > 1 ∨ !d.cxlUp l then d
  else
    let lost := d.reqs.filter (fun r => !r.held && !(r.kind == 6 && r.timedOut) && (r.tier == 2 || r.tier == 3) && d.farLink r.taddr == l)
    let d := (d.wr P.hostIf (upFld l) 0).wr P.hostIf (widthFld l) 0
    let d := { d with ideBad := d.ideBad.filter (fun x => x != l) }
    lost.foldl (fun d r => d.failReq t r C.FAR_DOWN) (d.hiErr t l 1)

/-- CXL_LINK_UP (R973): link 1 exists with two links only. -/
def Dev.cxlLinkUp (d : Dev) (l : Nat) : Dev :=
  let two := d.rd P.hostIf F.HI_LINK_STAT.MODE == 1
  if l > 1 ∨ (l = 1 ∧ !two) ∨ !d.booted then d
  else ((d.setPll F.CK_PHY_LOCK1.CXL l true).wr P.hostIf (upFld l) 1).wr P.hostIf (widthFld l) (if d.rd P.hostIf F.HI_LINK_STAT.MODE = 0 then 16 else 8)

/-- IDE_FAIL (R973): the streams of a link become insecure. -/
def Dev.ideFail (d : Dev) (t l : Nat) : Dev :=
  let u := P.hostIf
  if l > 1 ∨ !d.cxlUp l ∨ (!d.flag u F.HI_LINK_STAT.IDE_IO ∧ !d.flag u F.HI_LINK_STAT.IDE_CM) then d
  else
    let d := (d.wr u F.HI_LINK_STAT.IDE_IO 0).wr u F.HI_LINK_STAT.IDE_CM 0
    { d with ideBad := (l :: d.ideBad).eraseDups }.hiErr t l 2

/-- AER_UNCORR (R973). -/
def Dev.aerUncorr (d : Dev) (t l : Nat) : Dev := if l > 1 then d else d.hiErr t l 3

/-! ### What the host reads of the function (R953, R1011) -/

/-- UNIT_ID.STEPPING (R66): silicon B1. -/
def stepping : Nat := 1

/-- A word of 4 B of configuration space: vendor and device ID at 0x00, revision ID and class code at 0x08 (R953). -/
def configWord (off : Nat) : Nat :=
  if off = 0x00 then Config.vendorId.toNat + Config.deviceId.toNat * 2 ^ 16
  else if off = 0x08 then stepping + 0x120000 * 2 ^ 8
  else 0

/-- An entry of the CDAT (R1011): the HDM range, or a latency in ns or a bandwidth in GB/s of an access to it. -/
inductive Cdat where
  | dsmas (base length : Nat)
  | readLatency (ns : Nat)
  | writeLatency (ns : Nat)
  | readBandwidth (gbps : Nat)
  | writeBandwidth (gbps : Nat)
  deriving DecidableEq, Repr

/-- The raw rate of the link in GB/s: lanes in use at 64, 32 or 16 GT/s. -/
def Dev.linkRate (d : Dev) : Nat := d.rd P.hostIf F.HI_LINK_STAT.WIDTH0 * (64 / 2 ^ d.rd P.hostIf F.HI_LINK_STAT.RATE) / 8

def Dev.cdat (d : Dev) : List Cdat :=
  [.dsmas 0 d.hdmSize, .readLatency 400, .writeLatency 350, .readBandwidth d.linkRate, .writeBandwidth d.linkRate]

/-! ### SPDM (R1006 to R1010) -/

def Dev.spdmAt (d : Dev) (tr : Nat) : SpdmSt := Tbl.get (fun _ => {}) d.mg.spdm tr
def Dev.putSpdm (d : Dev) (tr : Nat) (x : SpdmSt) : Dev := { d with mg.spdm := Tbl.set (fun _ => {}) d.mg.spdm tr x }

/-- The static address of the management target (R1072). -/
def Dev.mgmtAddress (d : Dev) : Nat := 0x40 + d.rd P.boot F.BT_STRAPS.SLOT_ID % 32

/-- Does a request reach the device (R1007, R1012, R1072): over link 0, or on the sideband bus at an address it answers? The
dynamic address exists in I3C mode only. -/
def Dev.viaUp (d : Dev) (via : MgmtVia) : Bool :=
  d.booted && (match via with
    | .doe => d.hostUp
    | .vdm => d.hostUp
    | .address a => a == d.mgmtAddress
    | .dynamic => d.flag P.boot F.BT_STRAPS.MGMT_SEL)

def Dev.spdmReply (d : Dev) (tr code : Nat) (body : List Byte) : Dev := { d with mg.spdmOut := d.mg.spdmOut ++ [⟨tr, code, body⟩] }

/-- ERROR with an ErrorCode and its data (codes of SPDM 1.3: PRESUMED, log entry 64). -/
def Dev.spdmError (d : Dev) (tr code data : Nat) : Dev := d.spdmReply tr 0x7F (bytesOfNat 1 code ++ bytesOfNat 1 data)

def SpdmErr.invalid : Nat := 0x01
def SpdmErr.unexpected : Nat := 0x04
def SpdmErr.unsupported : Nat := 0x07
def SpdmErr.sessionLimit : Nat := 0x0A

/-- Secured sessions of a transport (R1007). -/
def sessionMax (tr : Nat) : Nat := if tr = 0 then 4 else 2

/-- Requests of the features that R1007 lists; every other is unsupported (R6). -/
def spdmKnown (code : Nat) : Bool := [0x81, 0x82, 0x83, 0x84, 0x85, 0x86, 0xE1, 0xE3, 0xE4, 0xE5, 0xE8, 0xE9, 0xEC, 0xFE].contains code

/-- Requests that name a certificate slot; the device has slot 0 only (R1007). -/
def spdmNamesSlot (code : Nat) : Bool := code == 0x82 || code == 0x83 || code == 0xE4

/-- SPDM_REQUEST: requests of SPDM 1.3 by their codes (PRESUMED, log entry 64). One that is unsupported, out of order, or names
another certificate slot is answered with ERROR. A vendor-defined request in a session over DOE stands for the key
programming of IDE_KM. -/
def Dev.spdmRequest (d : Dev) (via : MgmtVia) (code slot : Nat) : Dev :=
  let tr := via.transport
  let x := d.spdmAt tr
  let ok (d : Dev) : Dev := d.spdmReply tr (code % 128) []
  let early := d.spdmError tr SpdmErr.unexpected 0
  if !d.viaUp via then d
  else if !spdmKnown code then d.spdmError tr SpdmErr.unsupported code
  else if code = 0x84 then ok (d.putSpdm tr { agreed := 1, sessions := 0 })
  else if code = 0xE1 then (if x.agreed = 1 then ok (d.putSpdm tr { x with agreed := 2 }) else early)
  else if code = 0xE3 then (if x.agreed = 2 then ok (d.putSpdm tr { x with agreed := 3 }) else early)
  else if x.agreed < 3 then early
  else if spdmNamesSlot code ∧ slot ≠ 0 then d.spdmError tr SpdmErr.invalid 0
  else if [0x81, 0x82, 0x83, 0x85, 0x86].contains code then ok d
  else if code = 0xE4 then
    (if x.sessions < sessionMax tr then ok (d.putSpdm tr { x with sessions := x.sessions + 1 }) else d.spdmError tr SpdmErr.sessionLimit 0)
  else if x.sessions = 0 then early
  else if [0xE5, 0xE8, 0xE9].contains code then ok d
  else if code = 0xEC then ok (d.putSpdm tr { x with sessions := x.sessions - 1 })
  else if tr = 0 then
    ok { (d.wr P.hostIf F.HI_LINK_STAT.IDE_IO 1).wr P.hostIf F.HI_LINK_STAT.IDE_CM 1 with ideBad := [] }
  else d.spdmError tr SpdmErr.unsupported code

/-- A measurement block (R1009). -/
def Dev.measurement (d : Dev) (i : Nat) : List Byte :=
  let u := P.boot
  let img := d.rd u F.BT_STAT.IMAGE
  let fuse := d.rd u F.BT_SVN.FUSE_SVN
  match i with
  | 1 => digestBytes Config.romDigest
  | 2 => d.imageSha (img == 1)
  | 3 => bytesOfNat 1 img ++ bytesOfNat 1 (d.rd u F.BT_STAT.KEY_SLOT) ++ bytesOfNat 4 (d.rd u F.BT_SVN.IMAGE_SVN) ++ bytesOfNat 1 fuse
  | 4 => shaBytes (digestBytes (Config.keyDigest 0) ++ digestBytes (Config.keyDigest 1) ++ digestBytes (Config.keyDigest 2) ++
      bytesOfNat 1 (d.rd u F.BT_KEY_STAT.REVOKED) ++ bytesOfNat 8 (2 ^ fuse - 1))
  | 5 => shaBytes ((List.range 60).flatMap (fun r => bytesOfNat 1 (d.level r)) ++
      (((List.range 65536).filter (fun p => (kindOf p).isSome && d.ust p == U.FAILED)).flatMap (fun p => bytesOfNat 2 p)))
  | 6 => if d.plan.isNone then List.replicate 48 0 else digestBytes d.planDigest
  | _ => bytesOfNat 1 (bit (Config.engineeringSample && d.flag u F.BT_STRAPS.DBG_EN) + 2 * bit Config.engineeringSample)

/-- GET_MEASUREMENTS (R1010): index 0 the number of blocks, 1 to 7 one block, 0xFF all; signed with the alias key (R1006). -/
def Dev.getMeasurements (d : Dev) (via : MgmtVia) (i slot : Nat) : Dev :=
  let tr := via.transport
  let body : List Byte := if i = 0 then [7] else if i = 0xFF then [1, 2, 3, 4, 5, 6, 7].flatMap d.measurement else d.measurement i
  if !d.viaUp via then d
  else if (d.spdmAt tr).agreed < 3 then d.spdmError tr SpdmErr.unexpected 0
  else if slot ≠ 0 ∨ (7 < i ∧ i ≠ 0xFF) then d.spdmError tr SpdmErr.invalid 0
  else d.spdmReply tr 0x60 (body ++ Config.ecdsaSign d.dice.aliasKey body)

/-! ### Management path (R1012, R1013, R1073) -/

/-- ALERT_N is low in SMBus mode while a packet is held (R1073). -/
def Dev.alertLow (d : Dev) : Bool := d.vddIo && !d.flag P.boot F.BT_STRAPS.MGMT_SEL && !d.mg.mctp.isEmpty

/-- MCTP_PACKET_READ: the bus owner reads the oldest packet. -/
def Dev.mctpRead (d : Dev) (via : MgmtVia) : Dev := match d.mg.mctp with
  | [] => d
  | w :: rest => if d.viaUp via then { d with mg.mctp := rest, rdata := w.setWidth 512 } else d

/-- What stands on a sideband output (R1068, R1075): driven low, driven high, or high-impedance. -/
inductive Pin where
  | low
  | high
  | z
  deriving DecidableEq, Repr

/-- An open-drain output. -/
def openDrain (driven : Bool) : Pin := if driven then .low else .z

/-- The sideband outputs of R1068: PWR_OK is held low while VDD_IO is down, every other one is high-impedance (R1046, R1053, R1075). -/
def Dev.pwrOk (d : Dev) : Pin := if d.vddIo then .high else .low
def Dev.errN (d : Dev) : Pin := openDrain d.errLow
def Dev.thermTripN (d : Dev) : Pin := openDrain (d.vddIo && d.thermTrip)
def Dev.alertN (d : Dev) : Pin := openDrain d.alertLow

/-- HELD slots of the log (FC_LOG_STAT.HELD). -/
def Dev.heldSlots (d : Dev) : Nat := (d.log.filter (fun c => c.2.state == 1)).length

/-- PLDM_SENSOR_UPDATE: the six numeric sensors of R1013; the measured input power is a free value. -/
def Dev.pldmUpdate (d : Dev) : Dev :=
  let w := d.freeBelow 4096
  if !d.booted then d
  else { w.2 with mg.pldm := [w.1, d.rd P.assayer F.AS_TEMP.MARGIN, d.rd P.assayer F.AS_RISK.RISK, d.heldSlots,
    d.present.length, d.ust P.root] }

/-! ### The commands -/

def execHdmRead (addr : Word) (symErrs : Nat) (excl : Bool) (s : State) := upd s (fun d => d.hdmRead s.now addr.toNat symErrs excl)
def execHdmWrite (addr : Word) (data : List Byte) (poison : Bool) (s : State) := upd s (fun d => d.hdmWrite s.now addr.toNat data poison)
def execBisnpResponse (line : Nat) (s : State) := upd s (fun d => d.bisnpResponse line)
def execHostSnoop (addr : Word) (s : State) := upd s (fun d => { d with cxl := d.cxl ++ [.miss addr.toNat] })
def execUioRequest (addr : Word) (s : State) := upd s (fun d => { d with cxl := d.cxl ++ [.unsupported addr.toNat] })
def execPerstN (us : Nat) (s : State) := upd s (fun d => d.perst us)
def execCxlLinkDown (l : Nat) (s : State) := upd s (fun d => d.cxlDown s.now l)
def execCxlLinkUp (l : Nat) (s : State) := upd s (fun d => d.cxlLinkUp l)
def execIdeFail (l : Nat) (s : State) := upd s (fun d => d.ideFail s.now l)
def execAerUncorr (l : Nat) (s : State) := upd s (fun d => d.aerUncorr s.now l)
def execHdmDecoderCommit (c : Bool) (s : State) := upd s (fun d => d.wr P.hostIf F.HI_HDM_CTL.COMMITTED (bit c))
def execSpdmRequest (via : MgmtVia) (code : Nat) (s : State) (slot : Nat := 0) := upd s (fun d => d.spdmRequest via code slot)
def execGetMeasurements (via : MgmtVia) (i : Nat) (s : State) (slot : Nat := 0) := upd s (fun d => d.getMeasurements via i slot)
def execMctpPacketRead (s : State) (via : MgmtVia := .vdm) := upd s (fun d => d.mctpRead via)
def execPldmSensorUpdate (s : State) := upd s (fun d => d.pldmUpdate)

end Sys2Proof.Machine
end

