-- ==== Sys2Proof/Machine/Power.lean ====
section
/-!
DEFINITION. Sys2Proof/Machine/Power.lean: loss of lock (R1027 to R1029), the governor (R1030 to R1038), rails (R1045 to R1048),
voltage droop (R1049) and the thermal limits (R1050 to R1054).
-/

namespace Sys2Proof.Machine

/-! ### Clocks -/

/-- CK_UNLOCK (R1027): whether the reference or the VCO failed is open. -/
def Dev.ckUnlock (d : Dev) (t : Nat) : Dev :=
  let u := P.clocks
  if d.flag u F.CK_STAT.FALLBACK ∨ d.power ≠ .up then d
  else
    let f := d.freeBelow 2
    let d := (f.2.wr u F.CK_STAT.REF_OK f.1).wr u F.CK_STAT.VCO_LOCK 0
    (d.wr u F.CK_STAT.FALLBACK 1).send t u K.CK_UNLOCK Cls.FATAL 0 0

/-- PHY_PLL_UNLOCK (R1029): `kind` 0 a GDDR7 channel, 1 a Kyino port, 2 a CXL link. -/
def Dev.pllUnlock (d : Dev) (t kind n : Nat) : Dev :=
  let lost (d : Dev) (f : Fld) : Dev := (d.setPll f n false).count P.clocks F.CK_UNLOCK_CNT.COUNT 1
  match kind with
  | 0 => if n > 31 then d else { lost d F.CK_PHY_LOCK0.G7 with retraining := (n :: d.retraining).eraseDups }
  | 1 => if n > 23 then d
         else if d.link n = Link.UP then (lost d F.CK_PHY_LOCK1.KY).retrain t n else lost d F.CK_PHY_LOCK1.KY
  | 2 => if n > 1 then d else (lost d F.CK_PHY_LOCK1.CXL).cxlDown t n
  | _ => d

/-! ### The governor -/

/-- Hundredths of the factor k (R1030). -/
def govFactor (code : Nat) : Nat := if code = 1 then 130 else if code = 2 then 118 else 122

/-- What one governor period decides: the divider code wanted, the reason (PW_GOV_LOG_DATA.REASON), and the quiet count. -/
structure GovChoice where
  want : Nat
  reason : Nat
  quiet : Nat
  deriving DecidableEq, Repr

/-- The inputs of R1030. -/
structure GovIn where
  p : Nat
  code : Nat
  cap : Nat
  divMin : Nat
  divMax : Nat
  fix : Nat
  thActive : Bool
  thDiv : Nat
  quiet : Nat
  deriving DecidableEq, Repr

/-- R1030. -/
def govern (g : GovIn) : GovChoice :=
  let lo := if g.fix = 0 ∧ g.thActive ∧ g.thDiv > g.divMin then g.thDiv else g.divMin
  let c : GovChoice :=
    if g.fix ≠ 0 then ⟨g.fix - 1, 2, 0⟩
    else if g.p > g.cap then ⟨g.code + 1, 0, 0⟩
    else if g.code > lo ∧ g.p * govFactor g.code * 16 < g.cap * 15 * 100 then
      (if g.quiet + 1 ≥ 8 then ⟨g.code - 1, 1, g.quiet + 1⟩ else ⟨g.code, 0, g.quiet + 1⟩)
    else ⟨g.code, 0, 0⟩
  let c : GovChoice := if g.fix = 0 ∧ g.thActive ∧ c.want < g.thDiv then { c with want := g.thDiv, reason := 4 } else c
  let c : GovChoice := if c.want < g.divMin then { c with want := g.divMin, reason := 3 }
    else if c.want > g.divMax then { c with want := g.divMax, reason := 3 } else c
  if c.want ≠ g.code then { c with quiet := 0 } else c

/-- A change of the divider: its log entry and message (R1032). -/
def Dev.govLog (d : Dev) (t old new reason watts : Nat) : Dev :=
  let u := P.power
  let n := d.rd u F.PW_GOV_LOG_SEL.TOTAL
  let i := n % 16
  let d := (d.wri u i F.PW_GOV_LOG_DATA.TIME t).wri u i F.PW_GOV_LOG_DATA.OLD old
  let d := (d.wri u i F.PW_GOV_LOG_DATA.NEW new).wri u i F.PW_GOV_LOG_DATA.REASON reason
  let d := (d.wri u i F.PW_GOV_LOG_DATA.WATTS watts).wr u F.PW_GOV_LOG_SEL.TOTAL (n + 1)
  d.send t u K.PW_GOV Cls.INFO 0 (old + 4 * new + 16 * reason)

/-- CCLK switches in every span (R1036). -/
def Dev.setDiv (d : Dev) (code : Nat) : Dev := (d.wr P.power F.PW_GOV_STAT.DIV code).wr P.clocks F.CK_STAT.DIV code

/-- The voltage follows (R1035): a faster divider waits for its ramp, a slower one switches and then lowers it. -/
def Dev.govChange (d : Dev) (old new : Nat) : Dev :=
  let d := d.wr P.power F.PW_GOV_STAT.RAMPING 1
  if new < old then { d with gov := { d.gov with ramp := some new } }
  else { d.setDiv new with gov := { d.gov with ramp := none, lowering := true } }

/-- GOVERNOR_PERIOD (R1030 to R1033): settings written in the period take effect now. -/
def Dev.governorPeriod (d : Dev) (t watts : Nat) : Dev :=
  let u := P.power
  if d.power ≠ .up then d
  else
    let d := { d with gov := { d.gov with
      warn := d.rd u F.PW_TH_CTL.WARN_MARGIN, thDiv := d.rd u F.PW_TH_CTL.TH_DIV, thEn := d.flag u F.PW_TH_CTL.TH_EN } }
    let code := match d.gov.ramp with
      | some c => c
      | none => d.rd u F.PW_GOV_STAT.DIV
    let g : GovIn := {
      p := watts
      code := code
      cap := d.rd u F.PW_CAP.WATTS
      divMin := d.rd u F.PW_GOV_CTL.DIV_MIN
      divMax := d.rd u F.PW_GOV_CTL.DIV_MAX
      fix := d.rd u F.PW_GOV_CTL.FIX
      thActive := d.flag u F.PW_GOV_STAT.THERMAL && d.gov.thEn
      thDiv := d.gov.thDiv
      quiet := d.gov.quiet }
    let c := govern g
    let d := { d with gov := { d.gov with quiet := c.quiet } }
    let d := (d.wr u F.PW_GOV_STAT.LAST_W watts).wr u F.PW_GOV_STAT.CAP_UNMET (bit (decide (watts > g.cap) && code == g.divMax))
    if c.want ≠ code then (d.govLog t code c.want c.reason watts).govChange code c.want else d

/-- RAMPING holds while a voltage rises or falls. -/
def Dev.ramping (d : Dev) : Dev := d.wr P.power F.PW_GOV_STAT.RAMPING (bit (d.gov.ramp.isSome || d.gov.lowering))

/-- VOLTAGE_RAMP_DONE (R1035). -/
def Dev.rampDone (d : Dev) : Dev := match d.gov.ramp with
  | none => d
  | some c => ({ d.setDiv c with gov := { d.gov with ramp := none } } : Dev).ramping

/-- VOLTAGE_LOWER_DONE (R1035). -/
def Dev.lowerDone (d : Dev) : Dev := ({ d with gov := { d.gov with lowering := false } } : Dev).ramping

/-! ### Rails -/

/-- POWER_UP: the input crosses 48 V (R1045). -/
def Dev.powerUp (d : Dev) : Dev := if d.power = .off then { d with power := .rising } else d

/-- POWER_UP_COMPLETE (R1046, R1047): a power-on reset. -/
def Dev.powerUpComplete (d : Dev) : Dev := if d.power = .rising then d.powerOnReset else d

/-- INPUT_UNDERVOLTAGE (R1047, R1054): every rail falls, and nothing volatile stays. -/
def Dev.undervoltage (d : Dev) : Dev := if d.power = .off then d else { d.powerOnReset with power := .off }

/-- RAIL_UV (R1048): rail 1 is VDD_MGMT. -/
def Dev.railUv (d : Dev) (rail : Nat) : Dev := if rail < 2 ∨ rail > 8 ∨ d.power ≠ .up then d else d.deviceReset 3

/-- PW_DROOP (R1049): a message of the span at most once in 10 µs. -/
def Dev.droop (d : Dev) (t s : Nat) : Dev :=
  if s > 7 then d
  else
    let d := d.count P.power F.PW_DROOP_CNT.COUNT 1
    let last := Tbl.get noNat d.droopAt s
    if last ≠ 0 ∧ t + 1 < last + 10000 then d
    else { d with droopAt := Tbl.set noNat d.droopAt s (t + 1) }.send t (P.span s) K.PW_DROOP Cls.CORRECTED 0 0

/-! ### Thermal limits -/

/-- A sensor that is present (R1050): a stack's only with its stack. -/
def Dev.sensorThere (d : Dev) (i : Nat) : Bool :=
  decide (i < 112) && (if 72 ≤ i ∧ i < 104 then d.present.contains (i - 72) else true)

def Dev.tripOf (d : Dev) (i : Nat) : Nat := d.rdi P.power i F.PW_TH_DATA.TRIP

/-- The readings of present sensors, by number. -/
def Dev.readings (d : Dev) (temps : List Nat) : List (Nat × Nat) :=
  ((List.range temps.length).zip temps).filter (fun x => d.sensorThere x.1)

/-- The smallest margin and its sensor. -/
def Dev.minMargin (d : Dev) (rs : List (Nat × Nat)) : Option (Nat × Nat) :=
  rs.foldl (fun (acc : Option (Nat × Nat)) x =>
    let m := d.tripOf x.1 - x.2
    match acc with
    | none => some (m, x.1)
    | some a => if m < a.1 then some (m, x.1) else acc) none

/-- The smallest margin of the Assayer's window that holds the reading (R904). -/
def Dev.assayMargin (d : Dev) (t m : Nat) : Dev :=
  if t < d.assayEnd then { d with assay := { d.assay with margin := some (min (d.assay.margin.getD m) m) } }
  else { d with assay := { d.assay with laterMargins := d.assay.laterMargins ++ [(t, m)] } }

/-- R1051, R1052: the warning, and since when the margin has been high enough. -/
def Dev.thermalState (d : Dev) (t m : Nat) : Dev :=
  let g := d.gov
  let d := { d with gov := { g with above := if m ≥ g.warn + 3 then some (g.above.getD t) else none } }
  if m < g.warn ∧ !g.warned then
    let d := { d with gov := { d.gov with warned := true } }
    let d := if g.thEn then d.wr P.power F.PW_GOV_STAT.THERMAL 1 else d
    d.send t P.power K.TH_WARN Cls.DEFERRED 0 0
  else d

/-- What stays powered after a trip (R1054): management path, Tollhouse and boot unit. -/
def survivesTrip (k : Nat) : Bool := outlives k || [P.tollhouse, P.boot, P.mgmt].contains (keyPath k)

/-- R1053: the clocks stop and rails 3 to 8 fall; Tollhouse and its log stay. -/
def Dev.thermalTrip (d : Dev) (t : Nat) : Dev :=
  { d.bare survivesTrip with
    outbox := d.outbox, log := d.log, graces := d.graces, ladders := d.ladders, reactWritten := d.reactWritten
    pulseUntil := d.pulseUntil, mg := { d.mg with spdmOut := [] }, power := .tripped, thermTrip := true }.send
    t P.power K.TH_TRIP Cls.FATAL 0 0

/-- SENSOR_READ (R1050 to R1053). -/
def Dev.sensorRead (d : Dev) (t : Nat) (temps : List Nat) : Dev :=
  if d.power ≠ .up then d
  else
    let rs := d.readings temps
    let d := rs.foldl (fun d x => (d.wri P.power x.1 F.PW_TH_DATA.TEMP (min x.2 255)).wri P.power x.1 F.PW_TH_DATA.VALID 1) d
    let d := match d.minMargin rs with
      | none => d
      | some (m, i) => (((d.wr P.power F.PW_TH_MIN.MARGIN m).wr P.power F.PW_TH_MIN.SENSOR i).assayMargin t m).thermalState t m
    if rs.any (fun x => decide (x.2 ≥ d.tripOf x.1)) then d.thermalTrip t else d

/-- THERMAL_CLEAR (R1052). -/
def Dev.thermalClear (d : Dev) (t : Nat) : Dev := match d.gov.above with
  | none => d
  | some t0 =>
    if d.gov.warned ∧ t ≥ t0 + 1000000000 then { d.wr P.power F.PW_GOV_STAT.THERMAL 0 with gov := { d.gov with warned := false } } else d

/-! ### The commands -/

def execCkUnlock (s : State) := upd s (fun d => d.ckUnlock s.now)
def execPhyPllUnlock (kind n : Nat) (s : State) := upd s (fun d => d.pllUnlock s.now kind n)
def execGovernorPeriod (w : Nat) (s : State) := upd s (fun d => d.governorPeriod s.now w)
def execVoltageRampDone (s : State) := upd s (fun d => d.rampDone)
def execVoltageLowerDone (s : State) := upd s (fun d => d.lowerDone)
def execPowerUp (s : State) := upd s (fun d => d.powerUp)
def execPowerUpComplete (s : State) := upd s (fun d => d.powerUpComplete)
def execInputUndervoltage (s : State) := upd s (fun d => d.undervoltage)
def execRailUv (rail : Nat) (s : State) := upd s (fun d => d.railUv rail)
def execPwDroop (span : Nat) (s : State) := upd s (fun d => d.droop s.now span)
def execSensorRead (temps : List Nat) (s : State) := upd s (fun d => d.sensorRead s.now temps)
def execThermalClear (s : State) := upd s (fun d => d.thermalClear s.now)

end Sys2Proof.Machine
end

