-- ==== Sys2Proof/Machine/Dockets.lean ====
section
/-!
DEFINITION. Sys2Proof/Machine/Dockets.lean: doorbells, fetches and completion rings (R102 to R123), what begins a docket or a
sub-docket (R110 to R114, R520 to R524), BARRIER (R111), and KILL's phases (R135 to R139, R487, R1096).
-/

namespace Sys2Proof.Machine

/-! ### Rings -/

/-- A ring number of the table. -/
def ringOk (k : Nat) : Bool := decide (k ≤ 32)

/-- The tails of every ring, which an accepted doorbell snapshots (R111). -/
def Dev.tails (d : Dev) : List Nat := (List.range 33).map (fun k => (d.ring k).tailN)

def Dev.ringSize (d : Dev) (k : Nat) : Nat := 2 ^ d.rd (P.ring k) F.DK_RING_CFG.LOG2_SIZE

/-- DOORBELL (R105 to R107, R960). -/
def Dev.doorbell (d : Dev) (t k tail : Nat) : Dev :=
  let p := P.ring k
  let r := d.ring k
  let step := (tail + 2 ^ 32 - r.tailN % 2 ^ 32) % 2 ^ 32
  if !ringOk k then d
  else if !d.on p then d.stateCmd t p
  else if step ≤ r.headN + d.ringSize k - r.tailN then
    (if step = 0 then d else ({ d with cyc.belled := (if Tbl.get noNat d.cyc.belled k = 0 then Tbl.set noNat d.cyc.belled k (r.tailN + 1) else d.cyc.belled) } : Dev).putRing k
      { r with tailN := r.tailN + step, anns := r.anns ++ [(r.tailN + step, d.tails)] })
  else d.raiseBit p F.DK_RING_STAT.DB_ERR 0

/-- The tails that all rings had when the docket with index `n` was announced. -/
def snapFor (anns : List (Nat × List Nat)) (n : Nat) : List Nat := match anns.find? (fun a => decide (n < a.1)) with
  | some a => a.2
  | none => []

/-- May ring `k` fetch: ON, not STOPPED, no KILL in progress (R138) and no DISCARDED record to be written (R129), with a docket
announced, and over a link that is up? -/
def Dev.mayFetch (d : Dev) (k : Nat) : Bool :=
  let p := P.ring k
  ringOk k && d.on p && d.kill.isNone && !d.flag p F.DK_RING_STAT.STOPPED && !(d.ring k).stopping && decide ((d.ring k).headN < (d.ring k).tailN) &&
  (d.flag p F.DK_RING_BASE.LOC || d.hostUp)

/-- HEAD passes a docket, which joins the ring's queue. -/
def Dev.takeDocket (d : Dev) (k : Nat) (x : Docket) : Dev :=
  let r := d.ring k
  let h := r.headN + 1
  d.putRing k { r with headN := h, q := r.q ++ [x], anns := r.anns.filter (fun a => decide (h < a.1)) }

/-- The read of the docket failed (R1104). -/
def Dev.fetchFails (d : Dev) (t k cause : Nat) : Dev :=
  let p := P.ring k
  let a := d.ringSlot k (d.ring k).headN
  let seq := d.rd p F.DK_RING_CTL.EXPECT_SEQ
  let x : Docket := { n := (d.ring k).headN, bytes := List.replicate 64 0, seqOf := some seq, snap := [], stage := .ended St.TIER_ERROR (controlDetail a.1 cause a.2) }
  let d := (d.failMsg t P.dkCtl cause a.2 true).takeDocket k x
  (d.wr p F.DK_RING_CTL.EXPECT_SEQ (seq + 1)).wr p F.DK_RING_STAT.STOPPED 1

/-- A docket has arrived: its SEQ is checked (R117, R118). -/
def Dev.fetched (d : Dev) (k : Nat) (bs : List Byte) : Dev :=
  let p := P.ring k
  let r := d.ring k
  let want := d.rd p F.DK_RING_CTL.EXPECT_SEQ
  let x : Docket := { n := r.headN, bytes := bs, snap := snapFor r.anns r.headN, stage := .fetched }
  if x.seq = want then (d.takeDocket k x).wr p F.DK_RING_CTL.EXPECT_SEQ (want + 1)
  else ((d.takeDocket k { x with stage := .ended St.BAD_SEQ want }).raiseBit p F.DK_RING_STAT.SEQ_ERR 0).wr p F.DK_RING_STAT.STOPPED 1

/-- DOCKET_FETCH (R109, R117, R121, R52, R1104, R835). An uncorrectable error of the word that takes the docket leaves it
unfetched; a late read waits. -/
def Dev.docketFetch (d : Dev) (t k : Nat) (res : ReqOutcome) (sramBits : Nat) : Dev :=
  if !d.mayFetch k ∨ res = .late then d
  else if d.cplFull k then d.raiseBit (P.ring k) F.DK_RING_STAT.CPL_FULL 0
  else if d.noService then d.endUnfetched k St.NO_SERVICE 0
  else
    let a := d.ringSlot k (d.ring k).headN
    let r := d.controlRead a.1 a.2 64 res
    let d := r.2
    match r.1 with
    | .error c => d.fetchFails t k c
    | .ok bs =>
      let e := d.secded sramBits
      if e.1 = 2 then e.2.send t P.dkCtl K.BD_UE Cls.FATAL 0 0
      else
        let d := if e.1 = 1 then e.2.send t P.dkCtl K.BD_CE Cls.CORRECTED 0 0 else e.2
        if sramBits ≥ 3 then (let f := d.freeBytes 64; f.2.fetched k f.1) else d.fetched k bs

/-- RESTART (R119, R120). -/
def Dev.ringRestart (d : Dev) (t k : Nat) : Dev :=
  let p := P.ring k
  if !ringOk k then d
  else if d.flag p F.DK_RING_STAT.STOPPED then d.wr p F.DK_RING_STAT.STOPPED 0
  else d.stateCmd t p

/-- CPL_HEAD_WRITE: the host has consumed records (R121). -/
def Dev.cplHead (d : Dev) (k head : Nat) : Dev := if ringOk k then d.wr (P.ring k) F.DK_CPL_HEAD.HEAD head else d

/-! ### NOP and BARRIER -/

/-- NOP begins and completes (R110, R1093). -/
def Dev.beginNop (d : Dev) (k : Nat) (x : Docket) : Dev :=
  match refusal k x (argMask x) [] with
  | some (st, det) => d.endDocket k x.n st det
  | none => d.endDocket k x.n St.OK 0

/-- Has every docket that its mask names its record (R111, R1095)? -/
def Dev.barrierMet (d : Dev) (x : Docket) : Bool :=
  (List.range 33).all (fun j => !bitAt (x.field 0x10 5) j || decide (x.snap.getD j 0 ≤ (d.ring j).recN))

/-- The BARRIER of a ring that has begun. -/
def Dev.barrierOf (d : Dev) (k : Nat) : Option Docket := (d.ring k).q.find? (fun x => x.begun && x.opcode == 7)

def Dev.barrierGo (d : Dev) (k : Nat) (x : Docket) : Dev := if d.barrierMet x then d.endDocket k x.n St.OK 0 else d

def Dev.beginBarrier (d : Dev) (k : Nat) (x : Docket) : Dev :=
  match refusal k x (argMask x) [] with
  | some (st, det) => d.endDocket k x.n st det
  | none => (d.beginDocket k x.n).barrierGo k x

/-- BARRIER: it begins in its turn, and completes once met. -/
def Dev.barrierCmd (d : Dev) (k : Nat) : Dev :=
  match d.barrierOf k with
  | some x => d.barrierGo k x
  | none => match d.nextDocket k with
    | some x => if x.opcode = 7 ∧ d.kill.isNone then d.beginBarrier k x else d
    | none => d

def Dev.nopCmd (d : Dev) (k : Nat) : Dev :=
  match d.nextDocket k with
  | some x => if x.opcode = 0 ∧ d.kill.isNone then d.beginNop k x else d
  | none => d

/-! ### KILL -/

/-- R490: a scratchpad tile that is FENCED or FAILED during a KILL stays in reset. -/
def Dev.holdTiles (d : Dev) : Dev :=
  { d with resetTiles := (d.resetTiles ++ (scrubList.filter (fun p => kindOf p == some .sp && !d.inService p))).eraseDups }

/-- Phase 1 (R135, R136, R138, R797): every other announced docket completes with KILLED and all work stops. -/
def Dev.killBegin (d : Dev) (t : Nat) (x : Docket) : Dev :=
  let d := (d.beginDocket deviceRing x.n).wr P.dkCtl F.DK_JOB_STAT.KILL_ACTIVE 1
  let d := d.holdTiles.wr P.dkCtl F.DK_JOB_STAT.JOB_FREE 0
  let d := (d.colls.filter (fun c => c.op != 4)).foldl (fun d c => d.sendAbort t c d.myId none) d
  let d := (List.range 33).foldl (fun d k =>
    (d.absorb k St.KILLED x.seq (fun y => k == deviceRing && y.n == x.n)).wr (P.ring k) F.DK_RING_STAT.STOPPED 1) d
  let d := d.stopWork t allSpans true (fun o => match o with
    | .ring k n => !(k == deviceRing && n == x.n)
    | .sub _ _ => true
    | .nobody => false)
  ({ d.abandonWindow.dropSnaps with load := none, apQ := [], kill := some { ring := deviceRing, n := x.n, phase := 2 } } : Dev).updatePhase

/-- Phase 2 of R487, one phase of R374 at a time: seal, quiesce, flush, clear in place of load, unseal (R389); then phase 3
begins: every window closes and window writes that have not ended are abandoned (R491). -/
def Dev.killNet (d : Dev) (t : Nat) (x : KillSt) : Dev :=
  let go (d : Dev) (net : Nat) : Dev := { d with kill := some { x with net := net } }
  match x.net with
  | 0 => go (d.setAllPhases 1) 1
  | 1 => { d.setAllPhases 2 with kill := some { x with net := 2, quiesceAt := d.cclk } }
  | 2 => if d.quiet allSpans || d.quiesceOver x.quiesceAt then go (d.endQuiesce t) 3 else d
  | 3 => go ((d.flush t allSpans P.joints).setAllPhases 4) 4
  | 4 => go (d.clearPlan.setAllPhases 5) 5
  | _ => if d.epochBusy allSpans then d else { d.openAll.closeWindows with kill := some { x with phase := 3 } }

/-- The next phase of R487 that may run. Phase 4 covers every unit but scratchpad tiles held in reset (R490); as JOB_FREE rises
every window is closed (R493). -/
def Dev.killGo (d : Dev) (t : Nat) (x : KillSt) : Dev :=
  match x.phase with
  | 2 => d.killNet t x
  | 3 => if d.reqsOutstanding then d else { d with kill := some { x with phase := 4 } }
  | 4 => { (d.scrub (fun p => kindOf p != some .sp || !d.heldInReset p)).killTables with kill := some { x with phase := 5 } }
  | _ =>
    let d := (d.holdTiles.scrubUnit P.kyWindows).wr P.dkCtl F.DK_JOB_STAT.JOB_FREE 1 |>.wr P.dkCtl F.DK_JOB_STAT.KILL_ACTIVE 0
    let d := (List.range 33).foldl (fun d k => d.wr (P.ring k) F.DK_RING_STAT.STOPPED 1) d
    ({ d with kill := none } : Dev).endDocket x.ring x.n St.OK 0

def Dev.beginKill (d : Dev) (t : Nat) (x : Docket) : Dev :=
  match refusal deviceRing x (argMask x) [] with
  | some (st, det) => d.endDocket deviceRing x.n st det
  | none => d.killBegin t x

/-- KILL: the docket begins in its turn, and each further command runs the next phase. -/
def Dev.killCmd (d : Dev) (t : Nat) : Dev :=
  match d.kill with
  | some x => d.killGo t x
  | none => match d.nextDocket deviceRing with
    | some x => if x.opcode = 10 then d.beginKill t x else d
    | none => d

/-! ### DOCKET_BEGIN -/

/-- Does a rule hold the beginning of a command that its ring does not allow (R1094): R712 a counted REDUCE, R913 what waits
for a capture? -/
def Dev.opHeld (d : Dev) (x : Docket) : Bool :=
  if x.opcode = 6 then d.reduceHeld x else [1, 9, 11, 12].contains x.opcode && d.captureHeld

/-- DOCKET_BEGIN: the ring's next docket begins, or is refused (R110, R139, R1094); in NO_SERVICE it ends (R52). -/
def Dev.docketBegin (d : Dev) (t k : Nat) : Dev :=
  if !ringOk k then d
  else if d.noService then
    match d.firstFetched k with
    | some x => d.endDocket k x.n St.NO_SERVICE 0
    | none => d
  else
    match d.nextDocket k with
    | none => d
    | some x =>
      let refused := if x.opcode > 0x0C then some St.BAD_OPCODE else if k ≠ deviceRing ∧ deviceOnly x.opcode then some St.BAD_RING else none
      match refused with
      | some st => if st = St.BAD_RING ∧ d.opHeld x then d else d.endDocket k x.n st 0
      | none =>
        match x.opcode with
        | 0 => d.nopCmd k
        | 1 => d.loadPlan t .ok
        | 2 => d.runStepCmd k
        | 6 => d.reduceCmd t (rdOp x)
        | 7 => d.barrierCmd k
        | 8 => d.snapshotCmd t
        | 9 => d.restoreCmd t .ok
        | 10 => d.killCmd t
        | 11 => d.bistWindowCmd t
        | 12 => d.nmScrubCmd
        | op => d.carterCmd t k op

/-! ### SUB_DOCKET_BEGIN -/

/-- Does ORDERED hold a sub-docket behind the previous one of its clerk (R522)? -/
def Dev.subHeld (d : Dev) (b : Sub) : Bool :=
  let before := (d.subs.takeWhile (fun y => !(y.span == b.span && y.entry == b.entry))).filter (fun y => y.clerk == b.clerk)
  b.docket.ordered && (match before.getLast? with
    | some y => (match y.stage with | .ended _ _ => false | _ => true)
    | none => false)

/-- SUB_DOCKET_BEGIN (R520 to R524). -/
def Dev.subBegin (d : Dev) (t s e : Nat) : Dev :=
  match d.subs.find? (fun b => b.span == s && b.entry == e && b.stage == .fetched) with
  | none => d
  | some b =>
    let x := b.docket
    let o : Owner := .sub s e
    let begun (d : Dev) : Dev := { d with subs := d.subs.map (fun (y : Sub) => if y.span = s ∧ y.entry = e then { y with stage := .begun } else y) }
    if d.subHeld b then d
    else if x.opcode = 0 then d.endOwner o St.OK 0
    else
      let bad := if x.opcode = 6 then d.reduceBad x else d.caBad x (some s)
      match badArgs bad with
      | some (st, det) => d.endOwner o st det
      | none =>
        if x.opcode = 6 then (if d.reduceHeld x then d else (begun d).startReduce t x o)
        else (begun d).startCarter t x o

/-! ### The commands -/

def execDoorbell (k : Nat) (tail : W32) (s : State) := upd s (fun d => d.doorbell s.now k tail.toNat)
def execDocketFetch (k : Nat) (res : ReqOutcome) (bits : Nat) (s : State) := work s (fun d => d.docketFetch s.now k res bits)
def execDocketBegin (k : Nat) (s : State) (ctl : List ReqOutcome := []) := work s (fun d => d.withEnv ctl [] (fun d => d.docketBegin s.now k))
def execCompletionWrite (k : Nat) (s : State) := work s (fun d => if ringOk k then d.recordNext s.now k else d)
def execCplHeadWrite (k : Nat) (head : W32) (s : State) := upd s (fun d => d.cplHead k head.toNat)
def execRestart (k : Nat) (s : State) := upd s (fun d => d.ringRestart s.now k)
def execNop (k : Nat) (s : State) := upd s (fun d => d.nopCmd k)
def execBarrier (k : Nat) (s : State) := upd s (fun d => d.barrierCmd k)
def execKill (s : State) := upd s (fun d => d.killCmd s.now)
def execSubDocketBegin (span e : Nat) (s : State) (ctl : List ReqOutcome := []) :=
  work s (fun d => d.withEnv ctl [] (fun d => d.subBegin s.now span e))

end Sys2Proof.Machine
end

