-- ==== Sys2Proof/Machine/Header.lean ====
section
/-!
DEFINITION. Sys2Proof/Machine/Header.lean: a register access by its bytes (R61 to R63), the words of the common page
header (UNIT_ID to UNIT_SCRATCH, R65 to R77), and what a write does to an ordinary field by its access code (R13 to R18).
-/

namespace Sys2Proof.Machine

/-! ### Accesses -/

/-- The bits of a 64-bit register that an access of `size` bytes at page offset `off` touches, and its value at its place
in the register (R63). -/
structure Access where
  reg : Nat
  mask : Nat
  val : Nat
  deriving DecidableEq, Repr

def accessOf (off size v : Nat) : Access :=
  if size = 8 then ⟨off, 2 ^ 64 - 1, v % 2 ^ 64⟩
  else if off % 8 = 0 then ⟨off, 2 ^ 32 - 1, v % 2 ^ 32⟩
  else ⟨off - 4, (2 ^ 32 - 1) * 2 ^ 32, v % 2 ^ 32 * 2 ^ 32⟩

/-- R61: 4 B or 8 B, naturally aligned, inside the page. -/
def accessOk (off size : Nat) : Bool := (size == 4 || size == 8) && off % size == 0 && decide (off < 4096)

/-- Does an access touch a field, and which of the field's bits? -/
def Access.fieldMask (a : Access) (f : Fld) : Nat := bitsOf a.mask f.lo f.w
def Access.hits (a : Access) (f : Fld) : Bool := a.fieldMask f != 0

/-- The field's bits that the access writes. -/
def Access.field (a : Access) (f : Fld) : Nat := Nat.land (bitsOf a.val f.lo f.w) (a.fieldMask f)

/-- A field of 64 bits or fewer after the access: written bits new, the others as before. -/
def Access.merge (a : Access) (f : Fld) (old : Nat) : Nat :=
  a.field f + Nat.land old (2 ^ f.w - 1 - a.fieldMask f)

/-- A bit that the access writes as 1. -/
def Access.one (a : Access) (f : Fld) : Bool := a.field f == 1

/-! ### Ordinary fields -/

/-- What the fields at a register offset of a page hold, at index `idx`; a WO field reads zero (R13). -/
def Dev.regFields (d : Dev) (p idx off : Nat) : Nat :=
  ((rowsOf p).filter (fun r => r.fld.off == off && r.acc != .wo)).foldl (fun v r => v + d.rdi p idx r.fld * 2 ^ r.fld.lo) 0

/-- The register at its reset values (R65). -/
def resetWord (p off : Nat) : Nat := ({} : Dev).regFields p 0 off

/-- TR_SLOT_SEL of a network: POS names a column of R326, OUTPUT an output of R332. -/
def slotSelDefined (f : Fld) (v : Nat) : Bool :=
  (f != F.TR_SLOT_SEL.POS || decide (v % 16 < 12)) && (f != F.TR_SLOT_SEL.OUTPUT || decide (v < 5) || (decide (8 ≤ v) && decide (v < 12)))

/-- Does a field's table define a value (R18)? CA_LEAD_FIX is 0 or at least 256, SN_SLOT_BYTES a multiple of 4 KiB, a window's BASE
and SIZE suit one of the two targets of R450, the selectors of a network name positions of R326 and outputs of R332; the other fields
take a range. -/
def valueDefined (p : Nat) (r : Row) (v : Nat) : Bool :=
  decide (r.least ≤ v) && decide (v ≤ r.most) &&
  (match kindOf p, r.fld.off with
   | some .carter, 0x50 => v == 0 || decide (256 ≤ v)
   | some .snapshotEng, 0x68 => v % 4096 == 0
   | some .kyWindows, 0x50 => decide (v < 2 ^ 19) || v % 4096 == 0
   | some .kyWindows, 0x58 => v % 512 == 0 && (decide (v ≤ 2 ^ 28) || v % 4096 == 0)
   | some .trestle, 0x80 => slotSelDefined r.fld v
   | some .trestle, 0x90 => r.fld != F.TR_QUEUE_SEL.POS || decide (v % 16 < 12)
   | _, _ => true)

/-- One field of a written register; the flag says that the value was undefined (R18). A one-bit WO field is a trigger
and stores nothing. -/
def Dev.writeField (d : Dev) (p idx : Nat) (a : Access) (r : Row) : Bool × Dev :=
  let old := d.rdi p idx r.fld
  let new := a.merge r.fld old
  match r.acc with
  | .rw => if valueDefined p r new then (false, d.wri p idx r.fld new) else (true, d)
  | .w1c => (false, d.wri p idx r.fld (Nat.land old (Nat.lor (2 ^ r.fld.w - 1 - a.field r.fld) (d.newMask p idx r.fld))))
  | .w1s => (false, d.wri p idx r.fld (Nat.lor old (a.field r.fld)))
  | .wo => (false, if r.fld.w = 1 then d else d.wri p idx r.fld new)
  | .ro => (false, d)
  | .rc => (false, d)

/-- The fields of a register that an access touches, by their access codes; `sel` leaves some out. -/
def Dev.writeFields (d : Dev) (t p idx : Nat) (a : Access) (sel : Fld → Bool) : Dev :=
  let r := ((rowsOf p).filter (fun r => r.fld.off == a.reg && a.hits r.fld && sel r.fld)).foldl (fun (acc : Bool × Dev) r =>
    let x := acc.2.writeField p idx a r
    (acc.1 || x.1, x.2)) (false, d)
  if r.1 then r.2.illegalWrite t p else r.2

def anyField (_ : Fld) : Bool := true

/-- The RC fields of a register. -/
def rcRows (p off : Nat) : List Row := (rowsOf p).filter (fun r => r.fld.off == off && r.acc == .rc)

/-- What hardware has added to an RC field in this MCLK cycle and the field still holds (R15). -/
def Dev.newHeld (d : Dev) (p idx : Nat) (f : Fld) : Nat := min (d.newCount p idx f) (d.rdi p idx f)

/-- What a read that clears does not yet see of a register's RC fields: the increments of its own cycle (R15). -/
def Dev.unseen (d : Dev) (p idx off : Nat) : Nat := ((rcRows p off).map (fun r => d.newHeld p idx r.fld * 2 ^ r.fld.lo)).sum

/-- A read of RC fields clears the bits that it touches (R13, R63); the increments of its own cycle stay (R15). -/
def Dev.clearRc (d : Dev) (p idx : Nat) (a : Access) : Dev :=
  (rcRows p a.reg).foldl (fun d r =>
    d.wri p idx r.fld (Nat.land (d.rdi p idx r.fld) (2 ^ r.fld.w - 1 - a.fieldMask r.fld) +
      Nat.land (d.newHeld p idx r.fld) (a.fieldMask r.fld))) d

/-! ### The header's words -/

/-- UNIT_ID.LEVEL (R24). -/
def unitLevel (p : Nat) (k : UKind) : Nat := match levelOf k with
  | some l => l
  | none => (Config.besideLevel p).toNat

/-- STEPPING and ES (R66). -/
def dieBits : Nat := stepping * 2 ^ 40 + bit Config.engineeringSample * 2 ^ 48

/-- UNIT_ID (R58 to R60, R66). -/
def unitId (p : Nat) : Nat := match kindOf p with
  | none => 0
  | some k => p + k.type * 2 ^ 16 + unitLevel p k * 2 ^ 24 + (Config.unitVersion p).toNat * 2 ^ 32 + dieBits

/-- UNIT_CAP (R45, R68). -/
def unitCap (p : Nat) : Nat :=
  bit (canCommand p) * 7 + bit (isSparable p) * 8 + (Config.regBytes p).toNat * 2 ^ 16

/-- UNIT_STAT: what the page holds, with ERR and SUB_ERR. -/
def Dev.unitStat (d : Dev) (p : Nat) : Nat := d.regFields p 0 0x18 + bit (d.errAny p) * 2 ^ 5 + bit (d.subErr p) * 2 ^ 6

/-- The words of a page behind its header and registers, and how many of them the child table takes. -/
def freeFrom (p : Nat) : Nat := (rowsOf p).foldl (fun m r => max m (r.fld.off / 8 + 1)) 8
def tableWords (p : Nat) : Nat := ((childrenOf p).length + 3) / 4

/-- The byte offset of a unit's child table, 0 where it has no children: somewhere behind the page's registers, and whole
inside the page (R74; log entry 9). -/
def tableOffset (p : Nat) : Nat :=
  if (childrenOf p).isEmpty then 0
  else (freeFrom p + (Config.childTable p).toNat % (512 - freeFrom p - tableWords p + 1)) * 8

/-- UNIT_CHILD (R74 to R77). -/
def unitChild (p : Nat) : Nat := (childrenOf p).length + tableOffset p * 2 ^ 32

/-- A word of the page at an offset that no register has: four child paths, or zero. -/
def childWord (p off : Nat) : Nat :=
  if (childrenOf p).isEmpty ∨ off < tableOffset p then 0
  else
    let i := (off - tableOffset p) / 8 * 4
    (List.range 4).foldl (fun v j => v + (childrenOf p).getD (i + j) 0 * 2 ^ (16 * j)) 0

/-- UNIT_CTL is written (R68 to R70, R78 to R94): at most one of the three commands, else ENABLE. -/
def Dev.ctlWrite (d : Dev) (t p : Nat) (a : Access) : Dev :=
  let reset := a.one F.UNIT_CTL.BLOCK_RESET
  let fence := a.one F.UNIT_CTL.FENCE
  let release := a.one F.UNIT_CTL.RELEASE
  if !a.hits F.UNIT_CTL.ENABLE then d
  else if (reset && fence) || (reset && release) || (fence && release) then d.illegalWrite t p
  else if reset then d.blockReset t p true
  else if fence then d.fenceCmd t p
  else if release then d.releaseCmd t p
  else if a.one F.UNIT_CTL.ENABLE then d.unitEnable t p
  else d.unitDisable t p

/-- A write of a header register. -/
def Dev.headerWrite (d : Dev) (t p : Nat) (a : Access) : Dev :=
  if a.reg = 0x10 then d.ctlWrite t p a else d.writeFields t p 0 a anyField

end Sys2Proof.Machine
end

