-- ==== Sys2Proof/Machine/Viaduct.lean ====
section
/-!
DEFINITION. Sys2Proof/Machine/Viaduct.lean: the viaduct of a collective group: contributions and aggregates up and down
the rank tree (R817 to R822), writes forwarded to every member (R100, R823, R824), and the group page (R95 to R101, R825).
-/

namespace Sys2Proof.Machine

/-! ### Membership and the tree (R817) -/

def Dev.vgGroup (d : Dev) : Nat := d.rd P.kyino F.KY_VG_CTL.GROUP
def Dev.vgMember (d : Dev) : Bool := d.flag P.kyino F.KY_VG_CTL.JOIN && d.grp d.vgGroup F.CH_GRP_CFG.VALID == 1
def Dev.vgRank (d : Dev) : Nat := d.grp d.vgGroup F.CH_GRP_CFG.RANK
def Dev.vgCount (d : Dev) : Nat := d.grp d.vgGroup F.CH_GRP_CFG.MEMBERS

/-- The member devices by rank; none where the list cannot be read (R1104). -/
def Dev.vgList (d : Dev) : List Nat := d.membersNow d.vgGroup

def vgChildren (n r : Nat) : List Nat := ([2 * r + 1, 2 * r + 2] : List Nat).filter (fun c => decide (c < n))

/-- How many of `n` members the subtree of ranks `a` to `b` of one level holds. -/
def subtreeSize (n a b : Nat) : Nat → Nat
  | 0 => 0
  | fuel + 1 => if a < n then min b (n - 1) + 1 - a + subtreeSize n (2 * a + 1) (2 * b + 2) fuel else 0
def subtreeOf (n r : Nat) : Nat := subtreeSize n r r 18

/-! ### Contributions (R97 to R99, R822) -/

/-- What a VGC or VGA says of the members that it covers; `flags` are PEND_EN, SPARED, ERR and SUB_ERR. -/
structure Vg where
  err : Nat
  errEn : Nat
  state : Nat
  enable : Bool
  flags : Nat
  cap : Nat
  time : Nat
  faults : Nat
  covered : Nat
  stale : Nat
  oldest : Nat
  deriving DecidableEq, Repr

/-- The place of a STATE in the order of R97; ON is last. -/
def stateOrder (s : Nat) : Nat :=
  if s = U.FAILED then 0 else if s = U.NO_SERVICE then 1 else if s = U.FENCED then 2 else if s = U.DRAINING then 3
  else if s = U.STARTING then 4 else if s = U.OFF then 5 else 6

/-- The later of two device times of which 32 bits are known, at time `t`. -/
def laterOf (t a b : Nat) : Nat := if (t + 2 ^ 32 - a) % 2 ^ 32 ≤ (t + 2 ^ 32 - b) % 2 ^ 32 then a else b

/-- The reductions of R822. -/
def Vg.join (t : Nat) (a b : Vg) : Vg where
  err := Nat.lor a.err b.err
  errEn := Nat.land a.errEn b.errEn
  state := if stateOrder a.state ≤ stateOrder b.state then a.state else b.state
  enable := a.enable && b.enable
  flags := Nat.lor a.flags b.flags
  cap := Nat.land a.cap b.cap
  time := laterOf t a.time b.time
  faults := (a.faults + b.faults) % 2 ^ 64
  covered := a.covered + b.covered
  stale := a.stale + b.stale
  oldest := min a.oldest b.oldest

/-- The device's own root page. -/
def Dev.vgOwn (d : Dev) (t : Nat) : Vg where
  err := d.regFields P.root 0 0x20
  errEn := d.regFields P.root 0 0x28
  state := d.ust P.root
  enable := d.flag P.root F.UNIT_CTL.ENABLE
  flags := bitsOf (d.unitStat P.root) 3 4
  cap := unitCap P.root % 32
  time := d.rd P.root F.UNIT_STAT.STATE_TIME
  faults := d.rd P.tollhouse F.FC_WRITE_CNT.COUNT
  covered := 1
  stale := 0
  oldest := t

/-- `n` stale members (R99, R819). -/
def vgStale (t n : Nat) : Vg where
  err := 0
  errEn := 2 ^ 64 - 1
  state := U.FAILED
  enable := true
  flags := 8
  cap := 31
  time := (t + 1) % 2 ^ 32
  faults := 0
  covered := n
  stale := n
  oldest := 2 ^ 64 - 1

/-- The payload of R822. -/
def Vg.words (v : Vg) : List Word :=
  ([v.err, v.errEn, v.state + bit v.enable * 2 ^ 3 + v.flags * 2 ^ 4 + v.cap * 2 ^ 8 + v.time * 2 ^ 32, v.faults,
    v.covered % 2 ^ 18 + v.stale % 2 ^ 18 * 2 ^ 32, v.oldest, 0, 0] : List Nat).map (BitVec.ofNat 64)

def vgOfWords (ws : List Word) : Vg :=
  let w (i : Nat) : Nat := (ws.getD i 0).toNat
  { err := w 0
    errEn := w 1
    state := bitsOf (w 2) 0 3
    enable := bitAt (w 2) 3
    flags := bitsOf (w 2) 4 4
    cap := bitsOf (w 2) 8 5
    time := bitsOf (w 2) 32 32
    faults := w 3
    covered := bitsOf (w 4) 0 18
    stale := bitsOf (w 4) 32 18
    oldest := w 5 }

/-- Is a contribution that arrived at `at_` older than KY_VG_STALE_LIMIT? -/
def Dev.vgTooOld (d : Dev) (t at_ : Nat) : Bool := decide (t > at_ + d.rd P.kyino F.KY_VG_STALE_LIMIT.MICROS * 1000)

def noVgc (_ : Nat) : Option (Nat × List Word) := none

/-- What the subtree of child rank `c` contributes (R819). -/
def Dev.vgChild (d : Dev) (t c : Nat) : Vg := match Tbl.get noVgc d.vgcs c with
  | some (at_, ws) => if d.vgTooOld t at_ then vgStale t (subtreeOf d.vgCount c) else vgOfWords ws
  | none => vgStale t (subtreeOf d.vgCount c)

/-- The aggregate of a member (R818). -/
def Dev.vgSum (d : Dev) (t : Nat) : Vg :=
  ((vgChildren d.vgCount d.vgRank).map (d.vgChild t)).foldl (Vg.join t) (d.vgOwn t)

/-- What the group page shows (R820). -/
def Dev.vgShown (d : Dev) (t : Nat) : Vg :=
  let alone := if d.vgCount ≤ 1 then d.vgOwn t else (d.vgOwn t).join t (vgStale t (d.vgCount - 1))
  match d.vga with
  | some (at_, ws) => if d.vgTooOld t at_ then alone else vgOfWords ws
  | none => alone

/-! ### Frames -/

/-- A control frame to the member of a rank; an unreachable member does not block (R101). -/
def Dev.vgSend (d : Dev) (t r op : Nat) (payload : List Byte) : Dev := match d.vgList[r]? with
  | some dev => (d.kySend t { dst := dev, op := op, payload := payload }).2
  | none => d

def Dev.vgSendDown (d : Dev) (t op : Nat) (payload : List Byte) : Dev :=
  (vgChildren d.vgCount d.vgRank).foldl (fun d c => d.vgSend t c op payload) d

def wordBytes (ws : List Word) : List Byte := ws.flatMap (fun w => bytesOfNat 8 w.toNat)

/-- The frame that a command names leaves its queue. -/
def Dev.vgTake (d : Dev) (op src : Nat) : Dev := d.takeFrame (fun f => f.op == op && f.src == src)

/-- A frame from a source that may not send it (R777, R821). -/
def Dev.vgBad (d : Dev) (t src : Nat) : Dev := if d.quarantined src then d.quarDrop else d.strike t src

def Dev.fromParent (d : Dev) (src : Nat) : Bool :=
  d.vgMember && decide (d.vgRank > 0) && d.vgList[(d.vgRank - 1) / 2]? == some src && !d.quarantined src

/-- VGC (R818, R821). -/
def Dev.vgcArrives (d : Dev) (t src : Nat) (ws : List Word) : Dev :=
  let d := d.vgTake Op.VGC src
  match (vgChildren d.vgCount d.vgRank).find? (fun c => d.vgList[c]? == some src) with
  | some c => if d.vgMember && !d.quarantined src then { d with vgcs := Tbl.set noVgc d.vgcs c (some (t, ws)) } else d.vgBad t src
  | none => d.vgBad t src

/-- VGA (R818, R821): kept, and passed on to the children. -/
def Dev.vgaArrives (d : Dev) (t src : Nat) (ws : List Word) : Dev :=
  let d := d.vgTake Op.VGA src
  if d.fromParent src then { d with vga := some (t, ws) }.vgSendDown t Op.VGA (wordBytes ws) else d.vgBad t src

/-- VGC_PERIOD (R818): the root sends the aggregate down, every other member its own up. -/
def Dev.vgPeriod (d : Dev) (t : Nat) : Dev :=
  if !d.vgMember ∨ t < d.vgAt + d.rd P.kyino F.KY_VG_CTL.PERIOD_US * 1000 then d
  else
    let ws := (d.vgSum t).words
    let d := { d with vgAt := t }
    if d.vgRank = 0 then { d with vga := some (t, ws) }.vgSendDown t Op.VGA (wordBytes ws)
    else d.vgSend t ((d.vgRank - 1) / 2) Op.VGC (wordBytes ws)

/-! ### Forwarded writes (R100, R823, R824) -/

/-- The registers of the group page whose writes R97 forwards. -/
def vgForwards (reg : Nat) : Bool := reg == 0x10 || reg == 0x20 || reg == 0x28

/-- A VGW names its register and the half that it writes: 0 the whole, 1 the low half, 2 the high half. -/
def vgwCode (a : Access) : Nat := a.reg + (if a.mask = 2 ^ 64 - 1 then 0 else if a.mask = 2 ^ 32 - 1 then 1 else 2) * 4096
def vgwAccess (code v : Nat) : Access :=
  let reg := code % 4096
  let mask := if code / 4096 = 0 then 2 ^ 64 - 1 else if code / 4096 = 1 then 2 ^ 32 - 1 else (2 ^ 32 - 1) * 2 ^ 32
  ⟨reg, mask, Nat.land v mask⟩
def vgwBytes (code v : Nat) : List Byte := bytesOfNat 8 code ++ bytesOfNat 8 v

/-- A member applies a forwarded write to its own root page and sends it down the tree. -/
def Dev.vgApply (d : Dev) (t code v : Nat) : Dev :=
  let a := vgwAccess code v
  (if vgForwards a.reg then d.headerWrite t P.root a else d).vgSendDown t Op.VGW (vgwBytes code v)

/-- VGW: accepted by the root from any member, and by every other member from its parent. -/
def Dev.vgwArrives (d : Dev) (t src code v : Nat) : Dev :=
  let d := d.vgTake Op.VGW src
  let ok := if d.vgRank = 0 then d.vgMember && d.vgList.contains src && !d.quarantined src else d.fromParent src
  if ok then d.vgApply t code v else d.vgBad t src

/-- A write of the group page: forwarded through the root, or of the device's own UNIT_SCRATCH (R97, R823). -/
def Dev.groupWrite (d : Dev) (t : Nat) (a : Access) : Dev :=
  if !d.vgMember then d
  else if a.reg = F.UNIT_SCRATCH.SCRATCH.off then d.writeFields t P.group 0 a anyField
  else if !vgForwards a.reg then d
  else if d.vgRank = 0 then d.vgApply t (vgwCode a) a.val
  else d.vgSend t 0 Op.VGW (vgwBytes (vgwCode a) a.val)

/-- A word of the group page (R96, R97, R825). -/
def Dev.groupWord (d : Dev) (t off : Nat) : Nat :=
  if !d.vgMember then 0
  else
    let v := d.vgShown t
    match off with
    | 0x00 => unitId P.group
    | 0x08 => Nat.lor v.cap 16
    | 0x10 => bit v.enable
    | 0x18 => v.state + v.flags * 2 ^ 3 + v.time * 2 ^ 32
    | 0x20 => v.err
    | 0x28 => v.errEn
    | 0x30 => d.vgCount
    | 0x38 => d.regFields P.group 0 0x38
    | 0x40 => v.stale
    | 0x48 => t - v.oldest
    | 0x50 => v.faults
    | _ => 0

/-- An access that R61 does not allow sets ACCESS_SIZE; on the group page, in the device's own root page. -/
def Dev.badSize (d : Dev) (t p : Nat) : Dev :=
  if p = P.group then (if d.vgMember then d.accessSize t P.root else d)
  else if (kindOf p).isSome then d.accessSize t p else d

/-- GROUP_PAGE_WRITE: the host's 8 B write of page 0xFF00. -/
def Dev.groupPageWrite (d : Dev) (t off v : Nat) : Dev :=
  if !d.hostUp then d
  else if !accessOk off 8 then d.badSize t P.group
  else d.groupWrite t (accessOf off 8 v)

/-! ### The commands -/

def execGroupPageWrite (off : Nat) (v : Word) (s : State) := upd s (fun d => d.groupPageWrite s.now off v.toNat)
def execVgw (src off : Nat) (v : Word) (s : State) := upd s (fun d => d.vgwArrives s.now src off v.toNat)
def execVgc (src : Nat) (words : List Word) (s : State) := upd s (fun d => d.vgcArrives s.now src words)
def execVga (src : Nat) (words : List Word) (s : State) := upd s (fun d => d.vgaArrives s.now src words)
def execVgcPeriod (s : State) := upd s (fun d => d.vgPeriod s.now)

end Sys2Proof.Machine
end

