-- ==== Sys2Proof/Machine/Registers.lean ====
section
/-!
DEFINITION. Sys2Proof/Machine/Registers.lean: reads and writes of the register pages (R57 to R66) by the host, by clerks
(R499, R500) and by the management path (R1014 to R1016): which index a selector chooses, what a read computes, and what a
write of each register does beside storing its fields.
-/

namespace Sys2Proof.Machine

/-! ### Selected registers -/

/-- The index at which the register at `off` of unit `p` stands, by the page's selector; 0 for a register of which the
page has one. -/
def Dev.bankOf (d : Dev) (p off : Nat) : Nat := match kindOf p, off with
  | some .kyWindows, 0x40 => 0
  | some .kyWindows, _ => if 0x48 ≤ off ∧ off ≤ 0x78 then d.winSel else 0
  | some .ledger, 0x48 => d.rd p F.LG_SEL.COUNTER
  | some .ledger, 0x50 => d.rd p F.LG_SEL.COUNTER
  | some .carter, 0x78 => d.rd p F.CA_STALL_SEL.TIER * 8 + d.rd p F.CA_STALL_SEL.CAUSE
  | some .carter, 0x80 => d.rd p F.CA_STALL_SEL.TIER * 8 + d.rd p F.CA_STALL_SEL.CAUSE
  | some .carter, 0x90 => d.rd p F.CA_ADJ_SEL.ENTRY
  | some .carter, 0x98 => d.rd p F.CA_ADJ_SEL.ENTRY
  | some .carter, 0xA0 => d.rd p F.CA_ADJ_SEL.ENTRY
  | some .carter, 0xB0 => d.rd p F.CA_WIN_SEL.WIN
  | some .tollhouse, 0xA0 => d.rd p F.FC_REACT_SEL.KIND
  | some .dkCtl, 0x78 => d.rd p F.DK_MB_SEL.WORD
  | some .dkCtl, 0x80 => d.rd p F.DK_MB_SEL.WORD
  | some .nmChannel, 0x78 => d.rd p F.NM_REMAP_SEL.ENTRY
  | some .farPath, 0x58 => d.rd p F.FT_EXP_SEL.ENTRY
  | some .farPath, 0x60 => d.rd p F.FT_EXP_SEL.ENTRY
  | some .farPath, 0x68 => d.rd p F.FT_EXP_SEL.ENTRY
  | some .io, 0x50 => d.rd p F.TG_SEL.GATE
  | some .io, 0x58 => d.rd p F.TG_SEL.GATE
  | some .sf, 0x90 => d.rd p F.SF_PREG_SEL.PREG
  | some .kyino, 0x58 => d.rd p F.KY_RT_INDEX.INDEX
  | some .kyPort, 0x88 => d.rd p F.KY_VC_SEL.VC
  | some .countingHouse, _ => if 0x50 ≤ off ∧ off ≤ 0x68 then d.rd p F.CH_GRP_SEL.GROUP else 0
  | some .power, 0x88 => d.rd p F.PW_TH_SEL.SENSOR
  | some .power, 0x68 => d.rd p F.PW_GOV_LOG_SEL.ENTRY
  | some .assayer, 0x78 => d.rd p F.AS_CNT_SEL.INPUT
  | some .assayer, 0x90 => d.rd p F.AS_LOG_SEL.ENTRY
  | _, _ => 0

/-! ### What a read computes -/

/-- TG_STAT of the selected Tollgate (R363). -/
def Dev.tgStat (d : Dev) (p : Nat) : Nat :=
  let gate := d.rd p F.TG_SEL.GATE
  let g := d.tg (p * 16 + gate)
  let queued (port : Nat) : Nat := ((d.circsInto (posOf p) port).map (fun c => (d.circ c.key).queue.length)).sum
  g.op + bit g.stopped * 2 ^ 2 + g.grain * 2 ^ 3 + d.tokensHeld p gate * 2 ^ 16 + queued (16 + 3 * gate) * 2 ^ 32 +
    queued (17 + 3 * gate) * 2 ^ 40

/-- TR_STAT.PLAN and PLAN_ID (R408, R444): of span `s`, or of the joint switch. -/
def Dev.planStat (d : Dev) (s : Option Nat) : Nat := match d.plan with
  | none => 0
  | some pl =>
    let held := match s with
      | some s => planUses pl s
      | none => true
    if held then 2 ^ 2 + pl.id * 2 ^ 32 else 0

/-- TR_SLOT_DATA of a span's network and of the joint switch (R342, R343). -/
def Dev.slotData (d : Dev) (p : Nat) : Nat :=
  let pos := d.rd p F.TR_SLOT_SEL.POS
  let out := d.rd p F.TR_SLOT_SEL.OUTPUT
  let slot := d.rd p F.TR_SLOT_SEL.SLOT
  if p = P.joints then slotEntry d.circuits (jointRes pos) slot true
  else if posSpan pos = spanOf p then slotEntry d.circuits (routerRes pos out) slot false else 0

/-- TR_QUEUE_DATA (R408): of the in-port that TR_QUEUE_SEL names, whose one queue several read circuits may share (R394). -/
def Dev.queueData (d : Dev) (p : Nat) : Nat :=
  let pos := d.rd p F.TR_QUEUE_SEL.POS
  let port := d.rd p F.TR_QUEUE_SEL.PORT
  match d.circsInto pos port with
  | [] => 0
  | c :: rest =>
    let occ := ((c :: rest).map (fun c => (d.circ c.key).queue.length)).sum
    let credits := if c.kind = 1 then d.portRoom pos port else (d.circ c.key).credits
    occ + c.depth * 2 ^ 8 + credits * 2 ^ 16 + bit (d.watchHeld (posSpan pos)) * 2 ^ 24 + d.watchCount (portKey pos port false) * 2 ^ 32

/-- CA_WIN_STAT.DECLARED, READERS and HOLDING of the selected window. -/
def Dev.windowStat (d : Dev) (p : Nat) : Nat := match d.winDecl (d.rd p F.CA_WIN_SEL.WIN) with
  | none => 0
  | some w =>
    if w.span = spanOf p then
      let rs := d.winReaders w
      2 ^ 32 + rs.length % 64 * 2 ^ 34 + (rs.filter (fun q => (d.holdNow q w.num).isSome)).length % 64 * 2 ^ 40
    else 0

/-- BI_UNIT_DATA of the selected unit: slices done, slices of a pass, and minutes since its last pass. -/
def Dev.bistStat (d : Dev) (t : Nat) : Nat :=
  let p := d.rd P.bist F.BI_UNIT_SEL.PATH
  if sliceTotal p = 0 then 0
  else d.slicesDone p + sliceTotal p * 2 ^ 16 + min ((t - d.passAt p) / 60000000000) 65535 * 2 ^ 32

/-- BT_LEVEL_DATA of the selected resource. -/
def Dev.levelData (d : Dev) : Nat :=
  let r := d.rd P.boot F.BT_LEVEL_SEL.RESOURCE
  d.level r + bit (d.bt.skipped.contains r) * 2 ^ 3 + Tbl.get noNat d.bt.levelBoot r % 2 ^ 32 * 2 ^ 32

/-- PW_IN: what the module's input draws is measured, and so a free value (log entry 55). -/
def Dev.inputNow (d : Dev) : Nat × Dev := d.freeBelow (2 ^ 36)

/-- The MSI-X table and its pending-bit array (R957). -/
def Dev.msixRead (d : Dev) (off : Nat) : Nat :=
  if 0x800 ≤ off ∧ off < 0xC00 then d.msixWord ((off - 0x800) / 8)
  else if off = 0xC00 then (List.range 64).foldl (fun v k => v + bit (Tbl.get notPending d.msixPend k) * 2 ^ k) 0
  else 0

/-- The part of a register that is computed and not held: zero for most. Its fields are never written. -/
def Dev.computed (d : Dev) (t p off : Nat) : Nat := match off, kindOf p with
  | 0x00, _ => unitId p
  | 0x08, _ => unitCap p
  | 0x18, _ => bit (d.errAny p) * 2 ^ 5 + bit (d.subErr p) * 2 ^ 6
  | 0x30, _ => unitChild p
  | 0x58, some .ring => (d.ring (ringNo p)).headN % 2 ^ 32
  | 0x70, some .ring => (d.ring (ringNo p)).recN % 2 ^ 32
  | 0x48, some .nearMgr => (d.present.map (fun k => 2 ^ k)).sum
  | 0x40, some .nmChannel =>
    let k := spanOf p * 4 + (slotOf p - 8)
    if d.present.contains k then (d.freeSpares k).length * 2 ^ 4 else 0
  | 0x90, some .sf => if 28 ≤ d.rd p F.SF_PREG_SEL.PREG then d.preg p (d.rd p F.SF_PREG_SEL.PREG) else 0
  | 0x48, some .io => d.tgStat p
  | 0x68, some .io => (d.desc (p * 256 + d.rd p F.IO_DESC_SEL.DESC)).addr
  | 0x40, some .trestle => d.planStat (some (spanOf p))
  | 0x40, some .joints => d.planStat none
  | 0x88, some .trestle => d.slotData p
  | 0x88, some .joints => d.slotData p
  | 0x58, some .dkCtl => d.vValid + d.vAttempted * 2 ^ 16
  | 0xB0, some .carter => d.windowStat p
  | 0x48, some .clerk => min (d.clerk p).moves.length 15 * 2 ^ 4 + (d.clerk p).pc.toNat % 2 ^ 32 * 2 ^ 32
  | 0x50, some .countingHouse => bit (d.vgMember && d.vgGroup == d.rd p F.CH_GRP_SEL.GROUP) * 2 ^ 51
  | 0x48, some .tollhouse => d.heldSlots * 2 ^ 10
  | 0x80, some .tollhouse => d.logBuf.2.1
  | 0x88, some .tollhouse => d.logBuf.2.2
  | 0xB0, some .tollhouse => bit d.errLow * 2 ^ 3
  | 0xB8, some .tollhouse => (d.ladders.filter (fun l => !l.direct)).length % 32
  | 0x80, some .bist => d.bistStat t
  | 0x58, some .hostIf => d.snoop.length
  | 0x78, some .bootUnit => d.bt.jrnlBuf / 2 ^ 64
  | 0x88, some .bootUnit => d.levelData
  | _, some .hostIf => d.msixRead off
  | _, _ => 0

/-- A register that advances or copies when it is read, with its value: the read buffers (R206, R243, R899, R1021),
LG_COUNTER (R486) and KY_RT_DATA (R758). -/
def Dev.activeRead (d : Dev) (p off : Nat) : Option (Nat × Dev) :=
  let answered (d : Dev) : Nat × Dev := (d.rdata.toNat, d)
  match kindOf p, off with
  | some .amaxTable, 0x50 => some (answered d.amaxRead)
  | some .amaxTable, 0x58 => some (d.amaxReadWord 1)
  | some .amaxTable, 0x60 => some (d.amaxReadWord 2)
  | some .amaxTable, 0x68 => some (d.amaxReadWord 3)
  | some .tollhouse, 0x78 => some (answered d.fcLogRead)
  | some .tollhouse, 0x88 =>
    some (d.logBuf.2.2, if d.flag p F.FC_LOG_SEL.AUTO_INC then d.wr p F.FC_LOG_SEL.SLOT (d.rd p F.FC_LOG_SEL.SLOT + 1) else d)
  | some .bootUnit, 0x70 => some (answered d.jrnlRead)
  | some .ledger, 0x48 =>
    let r := d.ledgerFread (spanOf p) (d.rd p F.LG_SEL.COUNTER)
    some (r.1, if r.2.flag p F.LG_SEL.AUTO_INC then r.2.wr p F.LG_SEL.COUNTER (r.2.rd p F.LG_SEL.COUNTER + 1) else r.2)
  | some .kyino, 0x58 =>
    let i := d.rd p F.KY_RT_INDEX.INDEX
    some (d.rtEntry i, if d.flag p F.KY_RT_INDEX.AUTO_INC then d.wr p F.KY_RT_INDEX.INDEX (i + 1) else d)
  | some .trestle, 0x98 => some (d.queueData p, d)
  | some .power, 0x58 => some d.inputNow
  | _, 0x58 => if isTile p then some (answered (d.progRead p)) else none
  | _, 0x60 => if isTile p then some ((d.progBuf p).toNat / 2 ^ 64, d.progInc p) else none
  | _, _ => none

/-- A word of the page that no register has: the child table's, or zero. -/
def tableWord (p off : Nat) : Nat := if (rowsOf p).any (fun r => r.fld.off == off) then 0 else childWord p off

/-- A page of a unit in reset (R65): the words that are fixed per unit, else reset values. -/
def resetPage (p off : Nat) : Nat :=
  if off = 0x00 then unitId p
  else if off = 0x08 then unitCap p
  else if off = 0x30 then unitChild p
  else resetWord p off + tableWord p off + (if p = P.hostIf then ({} : Dev).msixRead off else 0)

/-- A read of the register at `off` (a multiple of 8) of unit `p`; `clears` is false for the management path (R1015). -/
def Dev.readReg (d : Dev) (t p : Nat) (a : Access) (clears : Bool) : Nat × Dev :=
  let off := a.reg
  if p = P.group then (d.groupWord t off, d)
  else if d.heldInReset p then (resetPage p off, d)
  else
    match d.activeRead p off with
    | some r => r
    | none =>
      let i := d.bankOf p off
      let v := d.regFields p i off + d.computed t p off + tableWord p off - (if clears then d.unseen p i off else 0)
      let e := if p = P.kyino ∧ off = F.KY_HOP_DROP_CNT.COUNT.off ∧ clears ∧ a.hits F.KY_HOP_DROP_CNT.COUNT then { d with hopSeen := false } else d
      (v, if clears then e.clearRc p i a else e)

/-! ### Writes by register -/

/-- The whole register as it will read: each RW field merged with the bits written (R63). -/
def Dev.merged (d : Dev) (p idx : Nat) (a : Access) : Nat :=
  ((rowsOf p).filter (fun r => r.fld.off == a.reg)).foldl (fun v r => v +
    (if r.acc = .rw then a.merge r.fld (d.rdi p idx r.fld) else a.field r.fld) * 2 ^ r.fld.lo) 0

/-- A field as it will read after the write. -/
def Dev.newField (d : Dev) (p idx : Nat) (a : Access) (f : Fld) : Nat := a.merge f (d.rdi p idx f)

/-- The registers of a record whose VALID, bit 0 of the register at `off`, clears the whole record when 1 is written to
it (ME_FAULT, SP_ORDER with its count, GC_FAULT, FT_MAP_ERR, KY_REFUSE_LAST, CH_ERR, BI_FAIL_LAST, HI_ERR_LAST). -/
def recordRegs (p off : Nat) : List Nat := match kindOf p, off with
  | some .me, 0x80 => [0x80]
  | some .spare, 0x80 => [0x80]
  | some .sp, 0x50 => [0x50, 0x58]
  | some .clerk, 0x50 => [0x50]
  | some .placement, 0x58 => [0x58]
  | some .kyino, 0x68 => [0x68]
  | some .countingHouse, 0x70 => [0x70]
  | some .bist, 0x88 => [0x88]
  | some .hostIf, 0x70 => [0x70]
  | _, _ => []

/-- The register stores what is written, by its access codes; a record is cleared through its VALID bit. -/
def Dev.plain (d : Dev) (t p : Nat) (a : Access) : Dev :=
  let d := d.writeFields t p (d.bankOf p a.reg) a anyField
  if a.one ⟨a.reg, 0, 1⟩ ∧ recordRegs p a.reg ≠ [] ∧ d.newMask p 0 ⟨a.reg, 0, 1⟩ = 0 then d.clearRegsBut p (fun off => !(recordRegs p a.reg).contains off) else d

/-- Does the access write any field of its register but reserved bits? -/
def Dev.touches (_ : Dev) (p : Nat) (a : Access) : Bool := (rowsOf p).any (fun r => r.fld.off == a.reg && a.hits r.fld)

/-- R103, R105, R121, R119: a ring's page. -/
def Dev.writeRing (d : Dev) (t p : Nat) (a : Access) : Dev :=
  let k := ringNo p
  match a.reg with
  | 0x50 => if a.hits F.DK_DOORBELL.TAIL then d.doorbell t k (a.field F.DK_DOORBELL.TAIL) else d
  | 0x78 => if a.hits F.DK_CPL_HEAD.HEAD then d.cplHead k (a.field F.DK_CPL_HEAD.HEAD) else d
  | 0x88 =>
    let d := d.plain t p a
    if a.one F.DK_RING_CTL.RESTART then d.ringRestart t k else d
  | _ => if [0x40, 0x48, 0x60, 0x68].contains a.reg && d.ust p != U.OFF then d.stateCmd t p else d.plain t p a

/-- R957: a word of the MSI-X table; a vector that is no longer masked and pending is sent. -/
def Dev.msixWrite (d : Dev) (a : Access) : Dev :=
  let k := (a.reg - 0x800) / 8
  let v := Nat.lor (Nat.land (d.msixWord k) (2 ^ 64 - 1 - a.mask)) a.val
  let d := { d with msixTbl := Tbl.set msixReset d.msixTbl k v }
  let vec := k / 2
  if Tbl.get notPending d.msixPend vec ∧ !d.msixMasked vec then
    { d with msix := d.msix ++ [vec], msixPend := Tbl.set notPending d.msixPend vec false }
  else d

def Dev.writeHostIf (d : Dev) (t p : Nat) (a : Access) : Dev :=
  if 0x800 ≤ a.reg ∧ a.reg < 0xC00 then d.msixWrite a
  else if a.reg = 0x50 ∧ a.hits F.HI_HDM_CTL.DB_EN ∧ d.flag p F.HI_HDM_CTL.COMMITTED then d.stateCmd t p
  else d.plain t p a

/-- R734, R758, R776, R817: leaving a viaduct, or naming another group, forgets what its members sent. -/
def Dev.writeKyino (d : Dev) (t p : Nat) (a : Access) : Dev :=
  match a.reg with
  | 0x40 => if a.hits F.KY_DEV_ID.ID then d.devIdWrite t (d.newField p 0 a F.KY_DEV_ID.ID) else d
  | 0x58 =>
    if a.hits F.KY_RT_DATA.ENTRY then d.rtDataWrite (a.merge F.KY_RT_DATA.ENTRY (d.rtEntry (d.rd p F.KY_RT_INDEX.INDEX))) else d
  | 0x60 => (d.plain t p a).settleBuckets d t
  | 0xB0 =>
    let was := d.vgGroup
    let d := d.plain t p a
    if d.flag p F.KY_VG_CTL.JOIN ∧ d.vgGroup = was then d else { d with vgcs := [], vga := none }
  | _ => d.plain t p a

/-- KY_PORT_CTL.MODE changes only while the port is OFF. -/
def Dev.writeKyPort (d : Dev) (t p : Nat) (a : Access) : Dev :=
  if a.reg = 0x40 ∧ d.newField p 0 a F.KY_PORT_CTL.MODE ≠ d.rd p F.KY_PORT_CTL.MODE ∧ d.ust p ≠ U.OFF then
    (d.writeFields t p 0 a (fun f => f != F.KY_PORT_CTL.MODE)).stateCmd t p
  else d.plain t p a

/-- A write of BASE or SIZE of an open window (R451): a change sets STATE_CMD, and a value of no target is an illegal write too
(R18). -/
def Dev.keepOpen (d : Dev) (t w : Nat) (a : Access) (f : Fld) : Dev :=
  let p := P.kyWindows
  let v := d.newField p w a f
  let d' := if (rowsKyWindows.filter (fun r => r.fld == f)).all (fun r => valueDefined p r v) then d else d.illegalWrite t p
  if v = d.rdi p w f then d else d'.stateCmd t p

/-- R451 to R453, R460: the selected window. -/
def Dev.writeWindows (d : Dev) (t p : Nat) (a : Access) : Dev :=
  let w := d.winSel
  let isOpen := d.rdi p w F.KY_WIN_CTL.OPEN == 1
  match a.reg with
  | 0x48 =>
    if !a.hits F.KY_WIN_CTL.OPEN then d
    else if a.one F.KY_WIN_CTL.OPEN then d.winOpen t (d.merged p w a) else d.winClose t (d.merged p w a)
  | 0x50 => if isOpen then d.keepOpen t w a F.KY_WIN_BASE.BASE else d.plain t p a
  | 0x58 => if isOpen then d.keepOpen t w a F.KY_WIN_SIZE.BYTES else d.plain t p a
  | 0x60 => if !a.hits F.KY_WIN_KEY.KEY then d else if isOpen then d.stateCmd t p else d.plain t p a
  | 0x68 => if isOpen then (if d.newField p w a F.KY_WIN_COUNT.COUNT = d.rdi p w F.KY_WIN_COUNT.COUNT then d else d.stateCmd t p) else d.plain t p a
  | _ => d.plain t p a

/-- R796: a group on which a REDUCE executes. -/
def Dev.writeCounting (d : Dev) (t p : Nat) (a : Access) : Dev :=
  let busy := (d.collOf (d.rd p F.CH_GRP_SEL.GROUP)).isSome
  if (a.reg = 0x50 ∨ a.reg = 0x58 ∨ a.reg = 0x60) ∧ d.touches p a ∧ busy then d.stateCmd t p else d.plain t p a

/-- R204, R209, R218 to R221: the amax/scale table. -/
def Dev.writeAmax (d : Dev) (t p : Nat) (a : Access) : Dev :=
  match a.reg with
  | 0x48 =>
    if a.one F.CH_AMAX_ROLL.GO then d.amaxRoll t (d.newField p 0 a F.CH_AMAX_ROLL.FIRST) (d.newField p 0 a F.CH_AMAX_ROLL.LAST)
    else d.plain t p a
  | 0x68 => d.amaxCommit t (d.newField p 0 a F.CH_AMAX_DATA3.WORD3)
  | _ => d.plain t p a

/-- R844, R848, R851, R875, R877: Tollhouse. -/
def Dev.writeTollhouse (d : Dev) (t p : Nat) (a : Access) : Dev :=
  match a.reg with
  | 0x40 => if a.hits F.FC_PHASE.PHASE then d.phaseWrite t (a.field F.FC_PHASE.PHASE) else d
  | 0x90 => if a.hits F.FC_ACK.SLOT then d.fcAck t (a.field F.FC_ACK.SLOT) else d
  | 0xA0 => d.reactWrite t (a.merge F.FC_REACT_DATA.ENTRY (d.rdi p (d.rd p F.FC_REACT_SEL.KIND) F.FC_REACT_DATA.ENTRY))
  | 0xB0 => if a.hits F.FC_ERR_PIN_CTL.DRIVE then d.errPinWrite t a.val else d
  | _ => d.plain t p a

/-- R720: the step registers. -/
def Dev.writeDkCtl (d : Dev) (t p : Nat) (a : Access) : Dev :=
  match a.reg with
  | 0x48 => if a.hits F.DK_STEP.STEP then d.stepWrite t (a.field F.DK_STEP.STEP) else d
  | 0x50 => if a.one F.DK_ACC.CLEAR then d.stepClear t else d
  | _ => d.plain t p a

/-- R910: thresholds that do not ascend strictly are refused whole. -/
def Dev.writeAssayer (d : Dev) (t p : Nat) (a : Access) : Dev :=
  let new (f : Fld) : Nat := d.newField p 0 a f
  if a.reg = 0x58 ∧ !(new F.AS_THRESH.ADVISE < new F.AS_THRESH.SNAPSHOT ∧ new F.AS_THRESH.SNAPSHOT < new F.AS_THRESH.EVACUATE) then
    d.illegalWrite t p
  else d.plain t p a

/-- R931 to R937, R948: the snapshot engine. -/
def Dev.writeSnapshot (d : Dev) (t p : Nat) (a : Access) : Dev :=
  let held := d.flag p F.SN_STAT.PAIRED || !d.snaps.isEmpty
  match a.reg with
  | 0x40 =>
    let off := d.flag p F.SN_CTL.AUTO && a.hits F.SN_CTL.AUTO && !a.one F.SN_CTL.AUTO
    let d := d.plain t p a
    let d := if off then d.snAutoOff else d
    let d := if a.one F.SN_CTL.PAIR then d.snPair t else d
    if a.one F.SN_CTL.UNPAIR then d.snUnpair t else d
  | 0x48 =>
    let was := d.feedId
    let d := d.plain t p a
    if d.pr.pairAsked ∧ d.feedId ≠ was then (d.sendPair t false).pairEval t else d
  | 0x50 => if d.touches p a ∧ held then d.stateCmd t p else d.plain t p a
  | 0x58 => if d.touches p a ∧ held then d.stateCmd t p else d.plain t p a
  | 0x60 => if d.touches p a ∧ held then d.stateCmd t p else d.plain t p a
  | 0x68 => if d.touches p a ∧ held then d.stateCmd t p else d.plain t p a
  | _ => d.plain t p a

/-- R901: clearing AUTO abandons the slices of idle gaps. -/
def Dev.writeBist (d : Dev) (t p : Nat) (a : Access) : Dev :=
  let off := a.reg == 0x40 && a.hits F.BI_CTL.AUTO && !a.one F.BI_CTL.AUTO && d.flag p F.BI_CTL.AUTO
  let d := d.plain t p a
  if off then d.biAutoOff else d

/-- R996, R1018 to R1020: boot. -/
def Dev.writeBoot (d : Dev) (t p : Nat) (a : Access) : Dev :=
  if a.reg = 0x50 then
    let d := d.writeFields t p 0 a (fun f => f != F.BT_CTL.REVOKE)
    let d := if a.one F.BT_CTL.CLEAR_LEVELS then { d with bt.clearPend := true } else d
    if a.hits F.BT_CTL.REVOKE then d.revoke t (a.field F.BT_CTL.REVOKE) else d
  else d.plain t p a

/-- R1034: bounds that cross, or a FIX outside them, are refused whole. -/
def Dev.writePower (d : Dev) (t p : Nat) (a : Access) : Dev :=
  let lo := d.newField p 0 a F.PW_GOV_CTL.DIV_MIN
  let hi := d.newField p 0 a F.PW_GOV_CTL.DIV_MAX
  let fix := d.newField p 0 a F.PW_GOV_CTL.FIX
  if a.reg = 0x48 ∧ (lo > hi ∨ (fix ≠ 0 ∧ (fix < lo + 1 ∨ hi + 1 < fix))) then d.illegalWrite t p
  else d.plain t p a

/-- R640: the expander ranges and COMP_EN stand while a plan is loaded. -/
def Dev.writeFarPath (d : Dev) (t p : Nat) (a : Access) : Dev :=
  let plan := d.plan.isSome
  if plan ∧ (a.reg = 0x58 ∨ a.reg = 0x60) ∧ d.touches p a then d.stateCmd t p
  else if plan ∧ a.reg = 0x40 ∧ a.hits F.FT_CTL.COMP_EN then
    (d.writeFields t p 0 a (fun f => f != F.FT_CTL.COMP_EN)).stateCmd t p
  else d.plain t p a

/-- R580 to R583: the placement table's bases and its invalidation. -/
def Dev.writePlacement (d : Dev) (t p : Nat) (a : Access) : Dev :=
  match a.reg with
  | 0x48 =>
    if a.one F.FT_PT_INV.ALL then
      (if d.flag p F.FT_PT_INV.BUSY then d else d.writeFields t p 0 a (fun f => f == F.FT_PT_INV.ADDR)).ptInv t none
    else if a.one F.FT_PT_INV.PAGE then d.ptInv t (some (d.newField p 0 a F.FT_PT_INV.ADDR))
    else d.plain t p a
  | 0x40 => if d.plan.isSome ∧ d.touches p a then d.stateCmd t p else d.plain t p a
  | 0x60 => if d.plan.isSome ∧ d.touches p a then d.stateCmd t p else d.plain t p a
  | _ => d.plain t p a

/-- R592, R615: the near-tier manager. -/
def Dev.writeNearMgr (d : Dev) (t p : Nat) (a : Access) : Dev :=
  match a.reg with
  | 0x40 => if d.touches p a then d.nmCfgWrite t (d.merged p 0 a) else d
  | 0x68 =>
    if a.one F.NM_RET_CMD.GO then d.nmRetGo t (d.newField p 0 a F.NM_RET_CMD.GRANULE) (d.newField p 0 a F.NM_RET_CMD.STACK)
    else d.plain t p a
  | _ => d.plain t p a

/-- R311 to R314, R320, R321: ME_REMAP of a spare. Each of HOST_SUB and HOST_REL is judged by the spare as the write finds it;
a write of which every command is ignored stores nothing. An engine number of 3 is an illegal write in every case (R18). -/
def Dev.writeRemap (d : Dev) (t p : Nat) (a : Access) : Dev :=
  let s := spanOf p
  let sub := a.one F.ME_REMAP.HOST_SUB
  let rel := a.one F.ME_REMAP.HOST_REL
  let bad := decide (d.newField p 0 a F.ME_REMAP.TGT_ENG = 3) && a.hits F.ME_REMAP.TGT_ENG
  let judged (d : Dev) : Dev := if bad then d.illegalWrite t p else d
  let subs (d : Dev) : Dev := (d.writeFields t p 0 a (fun f => f == F.ME_REMAP.AUTO)).hostSub t s (d.newField p 0 a F.ME_REMAP.TGT_BAY)
    (d.newField p 0 a F.ME_REMAP.TGT_ENG)
  if sub then
    (if d.spareFree s then (if rel then (subs d).stateCmd t p else subs d)
     else if rel ∧ d.mayRelease s then ((d.stateCmd t p).plain t p a).hostRel t s
     else if rel then ((judged d).stateCmd t p).stateCmd t p
     else (judged d).stateCmd t p)
  else if rel then (if d.mayRelease s then (d.plain t p a).hostRel t s else (judged d).stateCmd t p)
  else d.plain t p a

/-- R235, R241 to R244, R545: the pages of matrix engines, spares and SF tiles. A GO that is ignored leaves the ENTRY written with
it in place (DESIGN CHOICE, log entry 105). -/
def Dev.writeTile (d : Dev) (t p : Nat) (a : Access) : Dev :=
  let spare := kindOf p == some .spare
  let sf := kindOf p == some .sf
  match a.reg with
  | 0x40 =>
    let d := d.plain t p a
    let d := if a.one F.ME_CTL.GO then d.tileGo t p else d
    if a.one F.ME_CTL.STOP then d.tileStop p else d
  | 0x60 =>
    let hi := d.newField p 0 a F.ME_PROG_HI.HI
    if d.flag p F.ME_STAT.RUNNING then d.stateCmd t p else (d.wr p F.ME_PROG_HI.HI hi).progWrite t p (BitVec.ofNat 64 hi)
  | 0x820 => if a.one F.TRAP0.VALID then d.trapClear p else d
  | 0xC0 => if spare then d.writeRemap t p a else d.plain t p a
  | 0x90 => if sf ∧ a.hits F.SF_PREG_DATA.VALUE then d.sfPregWrite p (a.field F.SF_PREG_DATA.VALUE) else d.plain t p a
  | _ => d.plain t p a

/-- R441, R444: the check registers of a scratchpad tile. -/
def Dev.writeSp (d : Dev) (t p : Nat) (a : Access) : Dev :=
  match a.reg with
  | 0x40 => if d.touches p a then d.spCheckWrite t p (BitVec.ofNat 64 (d.merged p 0 a)) else d
  | 0x48 => if d.touches p a ∧ d.planIn (spanOf p) then d.stateCmd t p else d.plain t p a
  | _ => d.plain t p a

/-- R235, R537: a clerk. -/
def Dev.writeClerk (d : Dev) (t p : Nat) (a : Access) : Dev :=
  match a.reg with
  | 0x40 =>
    let d := d.plain t p a
    let d := if a.one F.GC_CTL.GO then d.gcGo t p else d
    if a.one F.GC_CTL.STOP then d.gcStop p else d
  | 0x820 => if a.one F.TRAP0.VALID then d.trapClear p else d
  | _ => d.plain t p a

/-- R475, R476: a span cache; INVALIDATE includes what FLUSH does. -/
def Dev.writeSpanCache (d : Dev) (t p : Nat) (a : Access) : Dev :=
  let d := d.plain t p a
  if a.reg ≠ 0x40 then d
  else if a.one F.SC_CTL.INVALIDATE then d.scOp t (spanOf p) true
  else if a.one F.SC_CTL.FLUSH then d.scOp t (spanOf p) false
  else d

/-- R485: an 8 B write of LG_COUNTER is an FSET, a 4 B write sets one half; after either START is VALUE as it then stands. -/
def Dev.writeLedger (d : Dev) (t p : Nat) (a : Access) : Dev :=
  if a.reg ≠ 0x48 then d.plain t p a
  else
    let c := d.rd p F.LG_SEL.COUNTER
    let d := if a.mask = 2 ^ 64 - 1 then d.ledgerFset (spanOf p) c (a.field F.LG_COUNTER.VALUE) (a.field F.LG_COUNTER.LIMIT)
      else
        let d := if a.hits F.LG_COUNTER.VALUE then d.wri p c F.LG_COUNTER.VALUE (a.field F.LG_COUNTER.VALUE)
          else d.wri p c F.LG_COUNTER.LIMIT (a.field F.LG_COUNTER.LIMIT)
        d.wri p c F.LG_START.START (d.lgValue (spanOf p) c)
    if d.flag p F.LG_SEL.AUTO_INC then d.wr p F.LG_SEL.COUNTER (c + 1) else d

/-- R669: the bounds of the lead do not cross. -/
def Dev.writeCarter (d : Dev) (t p : Nat) (a : Access) : Dev :=
  if (a.reg = 0x40 ∧ d.newField p 0 a F.CA_LEAD_MIN.ROWS > d.rd p F.CA_LEAD_MAX.ROWS) ∨
      (a.reg = 0x48 ∧ d.newField p 0 a F.CA_LEAD_MAX.ROWS < d.rd p F.CA_LEAD_MIN.ROWS) then d.illegalWrite t p
  else d.plain t p a

/-- R409: the limits of the watchdog and of a quiesce. -/
def Dev.writeTrestle (d : Dev) (t p : Nat) (a : Access) : Dev :=
  if a.reg = 0x48 ∧ a.hits F.TR_WATCHDOG.LIMIT then d.watchdogWrite t (spanOf p) false (d.newField p 0 a F.TR_WATCHDOG.LIMIT)
  else if a.reg = 0x50 ∧ a.hits F.TR_SEAL_TIMEOUT.LIMIT then d.watchdogWrite t (spanOf p) true (d.newField p 0 a F.TR_SEAL_TIMEOUT.LIMIT)
  else d.plain t p a

/-- A write of a block register (offsets from +0x040). -/
def Dev.blockWrite (d : Dev) (t p : Nat) (a : Access) : Dev := match kindOf p with
  | some .ring => d.writeRing t p a
  | some .hostIf => d.writeHostIf t p a
  | some .kyino => d.writeKyino t p a
  | some .kyPort => d.writeKyPort t p a
  | some .kyWindows => d.writeWindows t p a
  | some .countingHouse => d.writeCounting t p a
  | some .amaxTable => d.writeAmax t p a
  | some .tollhouse => d.writeTollhouse t p a
  | some .dkCtl => d.writeDkCtl t p a
  | some .assayer => d.writeAssayer t p a
  | some .snapshotEng => d.writeSnapshot t p a
  | some .bist => d.writeBist t p a
  | some .bootUnit => d.writeBoot t p a
  | some .power => d.writePower t p a
  | some .farPath => d.writeFarPath t p a
  | some .placement => d.writePlacement t p a
  | some .nearMgr => d.writeNearMgr t p a
  | some .me | some .spare | some .sf => d.writeTile t p a
  | some .sp => d.writeSp t p a
  | some .clerk => d.writeClerk t p a
  | some .spanCache => d.writeSpanCache t p a
  | some .ledger => d.writeLedger t p a
  | some .carter => d.writeCarter t p a
  | some .trestle => d.writeTrestle t p a
  | some .io | some .joints | some .clocks | some .nmChannel => d.plain t p a
  | some .root | some .group | some .span | some .bay | some .mgmt | some .regFabric => d
  | none => d

/-- A write of a register of unit `p`. A unit held in reset takes none (R65, DESIGN CHOICE, log entry 58), but outside
NO_SERVICE UNIT_CTL, by which its RELEASE comes. -/
def Dev.writeReg (d : Dev) (t p : Nat) (a : Access) : Dev :=
  if p = P.group then d.groupWrite t a
  else if d.heldInReset p && (d.noService || a.reg != 0x10) then d
  else if a.reg < 0x40 then d.headerWrite t p a
  else d.blockWrite t p a

/-! ### Who may access what -/

/-- Pages that clerks do not reach (R500), and those that the management path writes (R1014). -/
def blockOfPath (p : Nat) : Nat := bitsOf p 8 7
def clerkBarred (p : Nat) : Bool := decide (0x8000 ≤ p) && (blockOfPath p == 0x08 || blockOfPath p == 0x0D)
def mgmtWrites (p : Nat) : Bool := decide (0x8000 ≤ p) && ([0x04, 0x05, 0x08, 0x0D].contains (blockOfPath p))

/-- Does the access path of a source work now? -/
def Dev.srcUp (d : Dev) (src : Src) (p : Nat) (write : Bool) : Bool := match src with
  | .host => d.hostUp
  | .clerk _ => !clerkBarred p
  | .mgmt => d.booted && (!write || mgmtWrites p)

/-- The half of a word that an access reads (R63). -/
def Access.answer (a : Access) (v : Nat) : Nat :=
  if a.mask = 2 ^ 64 - 1 then v else if a.mask = 2 ^ 32 - 1 then v % 2 ^ 32 else v / 2 ^ 32 % 2 ^ 32

/-- The management path makes 8 B accesses only (R1014). -/
def widthFits (src : Src) (size : Nat) : Bool := src != .mgmt || size == 8

/-- A read of `size` bytes at page offset `off` (R61 to R66). -/
def Dev.pageRead (d : Dev) (t : Nat) (src : Src) (p off size : Nat) : Nat × Dev :=
  if !d.srcUp src p false ∨ !widthFits src size then (0, d)
  else if !accessOk off size then (0, d.badSize t p)
  else if (kindOf p).isNone then (0, d)
  else
    let a := accessOf off size 0
    let r := d.readReg t p a (src != .mgmt)
    (a.answer r.1, r.2)

/-- A write of `size` bytes at page offset `off` (R61 to R64). -/
def Dev.pageWrite (d : Dev) (t : Nat) (src : Src) (p off size v : Nat) : Dev :=
  if !d.srcUp src p true ∨ !widthFits src size then d
  else if !accessOk off size then d.badSize t p
  else if (kindOf p).isNone then d
  else d.writeReg t p (accessOf off size v)

/-- REGISTER_READ: the value is the last answer. -/
def Dev.registerRead (d : Dev) (t : Nat) (src : Src) (p off size : Nat) : Dev :=
  let r := d.pageRead t src p off size
  { r.2 with rdata := BitVec.ofNat 512 r.1 }

/-- MCTP_REGISTER_ACCESS (R1014, R1015): an 8 B access by a message with the vendor ID of R953; a read's answer waits for the bus
owner. A message that does not reach the device, or has another vendor ID, is none of these. -/
def Dev.mctpAccess (d : Dev) (t : Nat) (via : MgmtVia) (vendor : Nat) (write : Bool) (p off v : Nat) : Dev :=
  if !d.viaUp via ∨ via = .doe ∨ vendor ≠ Config.vendorId.toNat then d
  else if write then d.pageWrite t .mgmt p off 8 v
  else
    let r := d.pageRead t .mgmt p off 8
    { r.2 with mg.mctp := r.2.mg.mctp ++ [BitVec.ofNat 64 r.1] }

/-! ### The commands -/

def execRegisterWrite (src : Src) (p off size : Nat) (v : Word) (s : State) := upd s (fun d => d.pageWrite s.now src p off size v.toNat)
def execRegisterRead (src : Src) (p off size : Nat) (s : State) := upd s (fun d => d.registerRead s.now src p off size)
def execMctpRegisterAccess (write : Bool) (p off : Nat) (v : Word) (s : State) (via : MgmtVia := .vdm)
    (vendor : Nat := Config.vendorId.toNat) :=
  upd s (fun d => d.mctpAccess s.now via vendor write p off v.toNat)

end Sys2Proof.Machine
end

