-- ==== Sys2Proof/Machine/RvFloat.lean ====
section
/-!
DEFINITION. Sys2Proof/Machine/RvFloat.lean: the binary32 and binary64 arithmetic of a clerk (R494), as the RISC-V F, D and V
extensions give it from IEEE 754: exact values are computed first, and rounded once. PRESUMED, log entry 24.
-/

namespace Sys2Proof.Machine

def fmtFP64 : FFmt := ⟨11, 52, 1023, .ieee⟩

/-- The floating-point format of elements of `w` bits (32 or 64). -/
def fOf (w : Nat) : FFmt := if w = 64 then fmtFP64 else fmtFP32

/-- The accrued exception flags of fcsr. -/
def FF.NV : Nat := 16
def FF.DZ : Nat := 8
def FF.OF : Nat := 4
def FF.UF : Nat := 2
def FF.NX : Nat := 1

/-- A result code with the flags that its operation raises. -/
structure FRes where
  code : Nat
  flags : Nat
  deriving DecidableEq, Repr

/-! ### Rounding -/

/-- Rounding modes: 0 RNE, 1 RTZ, 2 RDN, 3 RUP, 4 RMM, and 5 round to odd. The magnitude in quanta, and was it exact? -/
def rvQuanta (rm : Nat) (neg : Bool) (n d : Nat) (q : Int) : Nat × Bool :=
  let num := n * pow2Den q
  let den := d * pow2Num q
  let k := num / den
  let rem := num % den
  let up := match rm with
    | 0 => decide (2 * rem > den) || (2 * rem == den && k % 2 == 1)
    | 1 => false
    | 2 => neg
    | 3 => !neg
    | 4 => decide (2 * rem ≥ den)
    | _ => k % 2 == 0
  if rem = 0 then (k, true) else (if up then k + 1 else k, false)

/-- Does a result overflow to infinity, or stay at the largest finite value? -/
def overToInf (rm : Nat) (neg : Bool) : Bool := match rm with
  | 0 => true | 4 => true | 2 => neg | 3 => !neg | _ => false

/-- A value rounded into a format; tininess is judged after rounding. A NaN becomes the canonical NaN and raises nothing
here. -/
def rvRound (f : FFmt) (rm : Nat) (x : Num) : FRes :=
  let sgn (b : Bool) : Nat := if b then 2 ^ f.magBits else 0
  match x with
  | .nan => ⟨f.nanCode, 0⟩
  | .inf s => ⟨sgn s + f.infCode, 0⟩
  | .fin s n d =>
    if n = 0 then ⟨sgn s, 0⟩
    else
      let q := f.quantum n d
      let r := rvQuanta rm s n d q
      let code := f.codeOf r.1 q
      if code > f.maxCode then ⟨sgn s + (if overToInf rm s then f.infCode else f.maxCode), FF.OF + FF.NX⟩
      else
        let fl := floorLog2 n d
        let emin : Int := 1 - f.bias
        let wide := rvQuanta rm s n d (fl - f.mb)
        let tiny := decide (fl < emin) && !(fl == emin - 1 && wide.1 == 2 ^ (f.mb + 1))
        ⟨sgn s + code, (if r.2 then 0 else FF.NX) + (if !r.2 && tiny then FF.UF else 0)⟩

/-! ### Operands -/

/-- The canonical NaN of a width; a NaN; a signalling NaN; the sign. -/
def cNan (w : Nat) : Nat := (fOf w).nanCode
def isNanCode (w x : Nat) : Bool := (fOf w).decode x == .nan
def isSnan (w x : Nat) : Bool := isNanCode w x && !bitAt x ((fOf w).mb - 1)
def fpSign (w x : Nat) : Bool := bitAt x (w - 1)

/-- Add flags to a result. -/
def FRes.also (r : FRes) (b : Bool) (fl : Nat) : FRes := { r with flags := if b then Nat.lor r.flags fl else r.flags }

/-- A sum with the sign that a zero of operands of both signs takes. -/
def rvAdd (rm : Nat) (a b : Num) : Num :=
  match a.add b with
  | .fin s 0 d => if a.isNeg != b.isNeg then .fin (rm == 2) 0 d else .fin s 0 d
  | r => r

/-! ### Operations on codes -/

def fAdd (w rm x y : Nat) : FRes :=
  let a := (fOf w).decode x
  let b := (fOf w).decode y
  let inv := isSnan w x || isSnan w y || (a.isInf && b.isInf && a.isNeg != b.isNeg)
  (rvRound (fOf w) rm (rvAdd rm a b)).also inv FF.NV

def fNeg (w x : Nat) : Nat := Nat.xor x (2 ^ (w - 1))
def fSub (w rm x y : Nat) : FRes :=
  let b := (fOf w).decode y
  let a := (fOf w).decode x
  let inv := isSnan w x || isSnan w y || (a.isInf && b.isInf && a.isNeg == b.isNeg)
  (rvRound (fOf w) rm (rvAdd rm a b.negate)).also inv FF.NV

def fMul (w rm x y : Nat) : FRes :=
  let a := (fOf w).decode x
  let b := (fOf w).decode y
  let inv := isSnan w x || isSnan w y || (a.isInf && b.isZero) || (a.isZero && b.isInf)
  (rvRound (fOf w) rm (a.mul b)).also inv FF.NV

def fDiv (w rm x y : Nat) : FRes :=
  let a := (fOf w).decode x
  let b := (fOf w).decode y
  let inv := isSnan w x || isSnan w y || (a.isInf && b.isInf) || (a.isZero && b.isZero)
  ((rvRound (fOf w) rm (a.div b)).also inv FF.NV).also (b.isZero && a.isFinite && !a.isZero) FF.DZ

def fSqrt (w rm x : Nat) : FRes :=
  let a := (fOf w).decode x
  let inv := isSnan w x || (a.isNeg && !a.isZero && a != .nan)
  (rvRound (fOf w) rm (if a.isNeg && !a.isZero then .nan else a.sqrt)).also inv FF.NV

/-- The fused x × y + z, with the product and the addend negated or not; an operand of `wx` bits, a result of `w`. -/
def fMaddW (wx w rm x y z : Nat) (negP negC : Bool) : FRes :=
  let a := (fOf wx).decode x
  let b := (fOf wx).decode y
  let c := (fOf w).decode z
  let m := a.mul b
  let p := if negP then m.negate else m
  let c := if negC then c.negate else c
  let inv := isSnan wx x || isSnan wx y || isSnan w z || (a.isInf && b.isZero) || (a.isZero && b.isInf) ||
    (p.isInf && c.isInf && p.isNeg != c.isNeg)
  (rvRound (fOf w) rm (rvAdd rm p c)).also inv FF.NV
def fMadd (w rm x y z : Nat) (negP negC : Bool) : FRes := fMaddW w w rm x y z negP negC

/-- Minimum and maximum: a number wins over a NaN, and -0 is below +0. -/
def fMinMax (w : Nat) (max : Bool) (x y : Nat) : FRes :=
  let a := (fOf w).decode x
  let b := (fOf w).decode y
  let less := a.lt b || (a.isZero && b.isZero && fpSign w x && !fpSign w y)
  let code :=
    if isNanCode w x && isNanCode w y then cNan w
    else if isNanCode w x then y
    else if isNanCode w y then x
    else if less != max then x else y
  (⟨code, 0⟩ : FRes).also (isSnan w x || isSnan w y) FF.NV

/-- Comparisons: 0 less or equal, 1 less, 2 equal (quiet). -/
def fCmp (w kind x y : Nat) : FRes :=
  let a := (fOf w).decode x
  let b := (fOf w).decode y
  let nan := isNanCode w x || isNanCode w y
  let eq := !a.lt b && !b.lt a
  let v := !nan && (match kind with
    | 0 => a.lt b || eq
    | 1 => a.lt b
    | _ => eq)
  (⟨bit v, 0⟩ : FRes).also (if kind = 2 then isSnan w x || isSnan w y else nan) FF.NV

/-- Sign injection: 0 the sign of y, 1 its opposite, 2 the product of the signs. -/
def fSgnj (w kind x y : Nat) : Nat :=
  let s := match kind with
    | 0 => fpSign w y
    | 1 => !fpSign w y
    | _ => fpSign w x != fpSign w y
  x % 2 ^ (w - 1) + bit s * 2 ^ (w - 1)

/-- FCLASS. -/
def fClass (w x : Nat) : Nat :=
  let s := fpSign w x
  match (fOf w).decode x with
  | .nan => if isSnan w x then 2 ^ 8 else 2 ^ 9
  | .inf _ => if s then 2 ^ 0 else 2 ^ 7
  | .fin _ n _ =>
    if n = 0 then (if s then 2 ^ 3 else 2 ^ 4)
    else if x % 2 ^ (w - 1) < 2 ^ (fOf w).mb then (if s then 2 ^ 2 else 2 ^ 5)
    else (if s then 2 ^ 1 else 2 ^ 6)

/-- Conversion into an integer of `iw` bits, signed or not; out of range and NaN give the ends. -/
def fToInt (w rm iw : Nat) (sgd : Bool) (x : Nat) : FRes :=
  let hi : Nat := if sgd then 2 ^ (iw - 1) - 1 else 2 ^ iw - 1
  let lo : Nat := if sgd then 2 ^ (iw - 1) else 0
  match (fOf w).decode x with
  | .nan => ⟨hi, FF.NV⟩
  | .inf s => ⟨if s then lo else hi, FF.NV⟩
  | .fin s n d =>
    let r := rvQuanta rm s n d 0
    if s then
      (if r.1 > lo then ⟨lo, FF.NV⟩ else ⟨(2 ^ iw - r.1) % 2 ^ iw, if r.2 then 0 else FF.NX⟩)
    else (if r.1 > hi then ⟨hi, FF.NV⟩ else ⟨r.1, if r.2 then 0 else FF.NX⟩)

/-- Conversion of an integer of `iw` bits. -/
def intToF (w rm iw : Nat) (sgd : Bool) (x : Nat) : FRes :=
  rvRound (fOf w) rm (if sgd then .ofInt (signed iw x) else .fin false (x % 2 ^ iw) 1)

/-- Conversion between widths. -/
def fToF (wx w rm x : Nat) : FRes := (rvRound (fOf w) rm ((fOf wx).decode x)).also (isSnan wx x) FF.NV

/-! ### Estimates of V (7 bits) -/

/-- The 7 result bits of the reciprocal of (128 + i + 1/2) / 128. -/
def rec7Bits (i : Nat) : Nat := (65536 / (257 + 2 * i) * 2 + 1 + (if 65536 % (257 + 2 * i) * 2 ≥ 257 + 2 * i then 1 else 0)) / 2 - 128

/-- The 7 result bits of the reciprocal square root of a significand whose top 6 bits are `i`, doubled when `even`. -/
def rsqrt7Bits (even : Bool) (i : Nat) : Nat := (isqrt (4 * 65536 * 128 / ((129 + 2 * i) * (if even then 2 else 1))) + 1) / 2 - 128

/-- A subnormal's exponent and significand as of a normal number: exponent at most 0, leading one removed. -/
def normSub (f : FFmt) (m : Nat) : Int × Nat :=
  let lz := f.mb - 1 - Nat.log2 m
  (-(lz : Int), m * 2 ^ (lz + 1) % 2 ^ f.mb)

/-- VFREC7. -/
def fRec7 (w rm x : Nat) : FRes :=
  let f := fOf w
  let s := fpSign w x
  let sgn := bit s * 2 ^ f.magBits
  match f.decode x with
  | .nan => (⟨cNan w, 0⟩ : FRes).also (isSnan w x) FF.NV
  | .inf _ => ⟨sgn, 0⟩
  | .fin _ n _ =>
    if n = 0 then ⟨sgn + f.infCode, FF.DZ⟩
    else
      let mag := x % 2 ^ f.magBits
      let e0 := mag / 2 ^ f.mb
      let m0 := mag % 2 ^ f.mb
      let nrm : Int × Nat := if e0 = 0 then normSub f m0 else ((e0 : Int), m0)
      if nrm.1 < -1 then ⟨sgn + (if overToInf rm s then f.infCode else f.maxCode), FF.OF + FF.NX⟩
      else
        let out := rec7Bits (nrm.2 / 2 ^ (f.mb - 7))
        let e : Int := 2 * f.bias - 1 - nrm.1
        let sig := out * 2 ^ (f.mb - 7)
        if e ≥ 1 then ⟨sgn + e.toNat * 2 ^ f.mb + sig, 0⟩
        else if e = 0 then ⟨sgn + (2 ^ f.mb + sig) / 2, 0⟩
        else ⟨sgn + (2 ^ f.mb + sig) / 4, 0⟩

/-- VFRSQRT7. -/
def fRsqrt7 (w x : Nat) : FRes :=
  let f := fOf w
  let s := fpSign w x
  match f.decode x with
  | .nan => (⟨cNan w, 0⟩ : FRes).also (isSnan w x) FF.NV
  | .inf neg => if neg then ⟨cNan w, FF.NV⟩ else ⟨0, 0⟩
  | .fin _ n _ =>
    if n = 0 then ⟨bit s * 2 ^ f.magBits + f.infCode, FF.DZ⟩
    else if s then ⟨cNan w, FF.NV⟩
    else
      let mag := x % 2 ^ f.magBits
      let e0 := mag / 2 ^ f.mb
      let m0 := mag % 2 ^ f.mb
      let nrm : Int × Nat := if e0 = 0 then normSub f m0 else ((e0 : Int), m0)
      let out := rsqrt7Bits (nrm.1 % 2 == 0) (nrm.2 / 2 ^ (f.mb - 6))
      let e : Int := (3 * f.bias - 1 - nrm.1) / 2
      ⟨e.toNat * 2 ^ f.mb + out * 2 ^ (f.mb - 7), 0⟩

end Sys2Proof.Machine
end

