-- ==== Sys2Proof/Machine/RvInt.lean ====
section
/-!
DEFINITION. Sys2Proof/Machine/RvInt.lean: the integer half of a clerk's RISC-V profile (R494): arithmetic of any
width, compressed instructions, memory accesses (R496 to R501), atomics, and CSRs (R498, R538). What an instruction of
the profile does is RISC-V's; PRESUMED, log entry 24.
-/

namespace Sys2Proof.Machine

/-- How far an instruction or one of its accesses comes: done with a result, an exception of a cause and mtval, or a
wait (R507) after which it is tried again. -/
inductive Rv (α : Type) where
  | ok (a : α) (d : Dev)
  | exc (cause tval : Nat) (d : Dev)
  | wait (d : Dev)

def Rv.bind {α β : Type} (r : Rv α) (f : α → Dev → Rv β) : Rv β := match r with
  | .ok a d => f a d
  | .exc c v d => .exc c v d
  | .wait d => .wait d

/-! ### Integer arithmetic of `w` bits -/

def wrapI (w : Nat) (i : Int) : Nat := (i % ((2 ^ w : Nat) : Int)).toNat
def sext (w v : Nat) : Nat := wrapI 64 (signed w v)
def iSub (w a b : Nat) : Nat := (a + 2 ^ w - b % 2 ^ w) % 2 ^ w
def iSll (w a s : Nat) : Nat := (a <<< (s % w)) % 2 ^ w
def iSrl (w a s : Nat) : Nat := (a % 2 ^ w) >>> (s % w)
def iSra (w a s : Nat) : Nat := wrapI w (signed w a / ((2 ^ (s % w) : Nat) : Int))
def iSlt (w a b : Nat) : Bool := decide (signed w a < signed w b)
def iUlt (w a b : Nat) : Bool := decide (a % 2 ^ w < b % 2 ^ w)
def iMulh (w a b : Nat) : Nat := wrapI w (signed w a * signed w b / ((2 ^ w : Nat) : Int))
def iMulhu (w a b : Nat) : Nat := (a % 2 ^ w) * (b % 2 ^ w) / 2 ^ w
def iMulhsu (w a b : Nat) : Nat := wrapI w (signed w a * ((b % 2 ^ w : Nat) : Int) / ((2 ^ w : Nat) : Int))
def iDiv (w a b : Nat) : Nat := if b % 2 ^ w = 0 then 2 ^ w - 1 else wrapI w (Int.tdiv (signed w a) (signed w b))
def iDivu (w a b : Nat) : Nat := if b % 2 ^ w = 0 then 2 ^ w - 1 else (a % 2 ^ w) / (b % 2 ^ w)
def iRem (w a b : Nat) : Nat := if b % 2 ^ w = 0 then a % 2 ^ w else wrapI w (Int.tmod (signed w a) (signed w b))
def iRemu (w a b : Nat) : Nat := if b % 2 ^ w = 0 then a % 2 ^ w else (a % 2 ^ w) % (b % 2 ^ w)

/-- The base operations by funct3, with the alternative of funct7 bit 5. -/
def iBase (w f3 : Nat) (alt : Bool) (a b : Nat) : Nat := match f3 with
  | 0 => if alt then iSub w a b else (a + b) % 2 ^ w
  | 1 => iSll w a b
  | 2 => bit (iSlt w a b)
  | 3 => bit (iUlt w a b)
  | 4 => Nat.xor a b
  | 5 => if alt then iSra w a b else iSrl w a b
  | 6 => Nat.lor a b
  | _ => Nat.land a b

/-- The operations of M by funct3. -/
def iMulDiv (w f3 a b : Nat) : Nat := match f3 with
  | 0 => a * b % 2 ^ w
  | 1 => iMulh w a b
  | 2 => iMulhsu w a b
  | 3 => iMulhu w a b
  | 4 => iDiv w a b
  | 5 => iDivu w a b
  | 6 => iRem w a b
  | _ => iRemu w a b

/-! ### Immediates -/

def immI (w : Nat) : Nat := sext 12 (bitsOf w 20 12)
def immS (w : Nat) : Nat := sext 12 (bitsOf w 7 5 + bitsOf w 25 7 * 32)
def immB (w : Nat) : Nat := sext 13 (bitsOf w 8 4 * 2 + bitsOf w 25 6 * 32 + bitsOf w 7 1 * 2048 + bitsOf w 31 1 * 4096)
def immU (w : Nat) : Nat := sext 32 (bitsOf w 12 20 * 4096)
def immJ (w : Nat) : Nat :=
  sext 21 (bitsOf w 21 10 * 2 + bitsOf w 20 1 * 2048 + bitsOf w 12 8 * 4096 + bitsOf w 31 1 * 2 ^ 20)

/-! ### Compressed instructions (C) as the instructions that they abbreviate -/

def encR (f7 rs2 rs1 f3 rd op : Nat) : Nat := f7 * 2 ^ 25 + rs2 * 2 ^ 20 + rs1 * 2 ^ 15 + f3 * 2 ^ 12 + rd * 2 ^ 7 + op
def encI (imm rs1 f3 rd op : Nat) : Nat := imm % 4096 * 2 ^ 20 + rs1 * 2 ^ 15 + f3 * 2 ^ 12 + rd * 2 ^ 7 + op
def encS (imm rs2 rs1 f3 op : Nat) : Nat := encR (bitsOf imm 5 7) rs2 rs1 f3 (bitsOf imm 0 5) op
def encB (imm rs1 f3 : Nat) : Nat :=
  encR (bitsOf imm 5 6 + bitsOf imm 12 1 * 64) 0 rs1 f3 (bitsOf imm 1 4 * 2 + bitsOf imm 11 1) 0x63
def encJ (imm rd : Nat) : Nat :=
  (bitsOf imm 12 8 + bitsOf imm 11 1 * 2 ^ 8 + bitsOf imm 1 10 * 2 ^ 9 + bitsOf imm 20 1 * 2 ^ 19) * 2 ^ 12 + rd * 2 ^ 7 + 0x6F

/-- The three quadrants; `none` for a reserved encoding. -/
def cQuad0 (h : Nat) : Option Nat :=
  let rd := 8 + bitsOf h 2 3
  let rs := 8 + bitsOf h 7 3
  let u8 := bitsOf h 10 3 * 8 + bitsOf h 5 2 * 64
  let u4 := bitsOf h 10 3 * 8 + bitsOf h 6 1 * 4 + bitsOf h 5 1 * 64
  match bitsOf h 13 3 with
  | 0 =>
    let u := bitsOf h 7 4 * 64 + bitsOf h 11 2 * 16 + bitsOf h 5 1 * 8 + bitsOf h 6 1 * 4
    if u = 0 then none else some (encI u 2 0 rd 0x13)
  | 1 => some (encI u8 rs 3 rd 0x07)
  | 2 => some (encI u4 rs 2 rd 0x03)
  | 3 => some (encI u8 rs 3 rd 0x03)
  | 5 => some (encS u8 rd rs 3 0x27)
  | 6 => some (encS u4 rd rs 2 0x23)
  | 7 => some (encS u8 rd rs 3 0x23)
  | _ => none

def cQuad1 (h : Nat) : Option Nat :=
  let rd := bitsOf h 7 5
  let rc := 8 + bitsOf h 7 3
  let r2 := 8 + bitsOf h 2 3
  let imm := sext 6 (bitsOf h 2 5 + bitsOf h 12 1 * 32)
  let sh := bitsOf h 2 5 + bitsOf h 12 1 * 32
  let bo := sext 9 (bitsOf h 3 2 * 2 + bitsOf h 10 2 * 8 + bitsOf h 2 1 * 32 + bitsOf h 5 2 * 64 + bitsOf h 12 1 * 256)
  match bitsOf h 13 3 with
  | 0 => some (encI imm rd 0 rd 0x13)
  | 1 => if rd = 0 then none else some (encI imm rd 0 rd 0x1B)
  | 2 => some (encI imm 0 0 rd 0x13)
  | 3 =>
    if rd = 2 then
      let i := sext 10 (bitsOf h 6 1 * 16 + bitsOf h 2 1 * 32 + bitsOf h 5 1 * 64 + bitsOf h 3 2 * 128 + bitsOf h 12 1 * 512)
      if i = 0 then none else some (encI i 2 0 2 0x13)
    else if imm = 0 then none
    else some (imm % 2 ^ 20 * 2 ^ 12 + rd * 2 ^ 7 + 0x37)
  | 4 =>
    match bitsOf h 10 2 with
    | 0 => some (encI sh rc 5 rc 0x13)
    | 1 => some (encI (1024 + sh) rc 5 rc 0x13)
    | 2 => some (encI imm rc 7 rc 0x13)
    | _ =>
      match bitsOf h 12 1, bitsOf h 5 2 with
      | 0, 0 => some (encR 32 r2 rc 0 rc 0x33)
      | 0, 1 => some (encR 0 r2 rc 4 rc 0x33)
      | 0, 2 => some (encR 0 r2 rc 6 rc 0x33)
      | 0, 3 => some (encR 0 r2 rc 7 rc 0x33)
      | 1, 0 => some (encR 32 r2 rc 0 rc 0x3B)
      | 1, 1 => some (encR 0 r2 rc 0 rc 0x3B)
      | _, _ => none
  | 5 =>
    some (encJ (sext 12 (bitsOf h 3 3 * 2 + bitsOf h 11 1 * 16 + bitsOf h 2 1 * 32 + bitsOf h 7 1 * 64 +
      bitsOf h 6 1 * 128 + bitsOf h 9 2 * 256 + bitsOf h 8 1 * 1024 + bitsOf h 12 1 * 2048)) 0)
  | 6 => some (encB bo rc 0)
  | _ => some (encB bo rc 1)

def cQuad2 (h : Nat) : Option Nat :=
  let rd := bitsOf h 7 5
  let r2 := bitsOf h 2 5
  let sh := bitsOf h 2 5 + bitsOf h 12 1 * 32
  let l8 := bitsOf h 5 2 * 8 + bitsOf h 12 1 * 32 + bitsOf h 2 3 * 64
  let s8 := bitsOf h 10 3 * 8 + bitsOf h 7 3 * 64
  match bitsOf h 13 3 with
  | 0 => some (encI sh rd 1 rd 0x13)
  | 1 => some (encI l8 2 3 rd 0x07)
  | 2 => if rd = 0 then none else some (encI (bitsOf h 4 3 * 4 + bitsOf h 12 1 * 32 + bitsOf h 2 2 * 64) 2 2 rd 0x03)
  | 3 => if rd = 0 then none else some (encI l8 2 3 rd 0x03)
  | 4 =>
    if bitsOf h 12 1 = 0 then
      (if r2 = 0 then (if rd = 0 then none else some (encI 0 rd 0 0 0x67)) else some (encR 0 r2 0 0 rd 0x33))
    else if r2 = 0 then (if rd = 0 then some 0x00100073 else some (encI 0 rd 0 1 0x67))
    else some (encR 0 r2 rd 0 rd 0x33)
  | 5 => some (encS s8 r2 2 3 0x27)
  | 6 => some (encS (bitsOf h 9 4 * 4 + bitsOf h 7 2 * 64) r2 2 2 0x23)
  | _ => some (encS s8 r2 2 3 0x23)

def cExpand (h : Nat) : Option Nat := match h % 4 with
  | 0 => cQuad0 h
  | 1 => cQuad1 h
  | _ => cQuad2 h

/-! ### Completing an instruction -/

/-- The clerk after an instruction of `len` bytes has executed, and `f` applied after its retirement; nothing where
the instruction itself took the clerk out of service. -/
def Dev.rvDone (d : Dev) (p len : Nat) (f : ClerkSt → ClerkSt) : Rv Unit :=
  .ok () (if d.on p then d.putClerk p (f ((d.clerk p).retire len)) else d)

/-- The same with a result for an x register. -/
def Dev.rvX (d : Dev) (p len rd v : Nat) : Rv Unit := d.rvDone p len (fun (c : ClerkSt) => c.wx rd (BitVec.ofNat 64 v))

def ClerkSt.xn (c : ClerkSt) (i : Nat) : Nat := (c.rx i).toNat

/-! ### Memory (R496 to R501, R507) -/

def inItcm (a : Nat) : Bool := decide (a < 0x20000)
def inDtcm (a : Nat) : Bool := decide (0x100000 ≤ a) && decide (a < 0x110000)
def inStage (a : Nat) : Bool := decide (0x200000 ≤ a) && decide (a < 0x202000)
def inWindow (a : Nat) : Bool := decide (0x40000000 ≤ a) && decide (a < 0x50000000)
def inDevice (a : Nat) : Bool := decide (0x10000000000 ≤ a) && decide (a < 2 ^ 63)

/-- Who owns the requests of a clerk: the RUN_STEP whose part it executes. -/
def ClerkSt.owner (c : ClerkSt) : Owner := match c.part with
  | some q => .ring q.ring q.n
  | none => .nobody

/-- Is a request of this clerk held (R676, R681)? -/
def Dev.clerkHeld (d : Dev) (p : Nat) : Bool := d.reqs.any (fun r => r.path == p && r.kind == 6 && r.held)

/-- A clerk's access to a device address (R501): the clerk waits while it is late (R676), behind a retraining link too (R587), and for
good where it is held; a failed one answers nothing. The outcome is the command's next. -/
def Dev.clerkAccess (d : Dev) (t p addr n : Nat) (write : Bool) (bytes : List Byte) : Option (List Byte) × Dev :=
  let e := d.takeAcc
  e.2.access t p (d.clerk p).owner addr n write bytes (if d.rangeRetrains addr n then { e.1 with res := .late } else e.1)

/-- One element access of `n` bytes: `write` gives the bytes to store, and a load answers its bytes as a number. `vec`
is an access of a vector instruction. -/
def Dev.rvMem (d : Dev) (t p a n : Nat) (vec : Bool) (write : Option Nat) : Rv Nat :=
  let c := d.clerk p
  let misC := if write.isSome then 6 else 4
  let accC := if write.isSome then 7 else 5
  let bytes : List Byte := bytesOfNat n (write.getD 0)
  if !(inItcm a || inDtcm a || inStage a || inWindow a || inDevice a) then .exc accC a d
  else if a % n ≠ 0 then .exc misC a d
  else if inItcm a then
    match write with
    | some _ => .ok 0 (d.putClerk p { c with itcm := Tbl.setAll zeroByte c.itcm a bytes })
    | none => .ok (natOfBytes (Tbl.getN zeroByte c.itcm a n)) d
  else if inDtcm a then
    match write with
    | some _ => .ok 0 (d.putClerk p { c with dtcm := Tbl.setAll zeroByte c.dtcm (a - 0x100000) bytes })
    | none => .ok (natOfBytes (Tbl.getN zeroByte c.dtcm (a - 0x100000) n)) d
  else if inStage a then
    let o := a - 0x200000
    if c.moves.any (fun m => m.slot == o / 512) then .wait d
    else
      match write with
      | some _ => .ok 0 (d.putClerk p { c with stage := Tbl.setAll zeroByte c.stage o bytes })
      | none => .ok (natOfBytes (Tbl.getN zeroByte c.stage o n)) d
  else if inWindow a then
    let pg := (a - 0x40000000) / 4096
    if vec ∨ (n ≠ 4 ∧ n ≠ 8) ∨ clerkBarred pg then .exc accC a d
    else
      match write with
      | some v => .ok 0 (d.pageWrite t (.clerk p) pg (a % 4096) n v)
      | none =>
        let r := d.pageRead t (.clerk p) pg (a % 4096) n
        .ok r.1 r.2
  else
    let addr := a - 0x10000000000
    let r := d.clerkAccess t p addr n write.isSome bytes
    match r.1 with
    | some bs => .ok (natOfBytes bs) r.2
    | none => if r.2.clerkHeld p || (r.2.lateReq p addr write.isSome).isSome then .wait r.2 else .exc accC a r.2

/-- Scalar loads by funct3: signed below 4, unsigned above. -/
def Dev.rvLoad (d : Dev) (t p w len : Nat) : Option (Rv Unit) :=
  let f3 := funct3Of w
  if f3 = 7 then none
  else
    let n := 2 ^ (f3 % 4)
    let a := ((d.clerk p).xn (rs1Of w) + immI w) % 2 ^ 64
    some ((d.rvMem t p a n false none).bind (fun v d => d.rvX p len (rdOf w) (if f3 < 4 then sext (8 * n) v else v)))

def Dev.rvStore (d : Dev) (t p w len : Nat) : Option (Rv Unit) :=
  let f3 := funct3Of w
  if f3 > 3 then none
  else
    let n := 2 ^ f3
    let c := d.clerk p
    let a := (c.xn (rs1Of w) + immS w) % 2 ^ 64
    some ((d.rvMem t p a n false (some (c.xn (rs2Of w) % 2 ^ (8 * n)))).bind (fun _ d => d.rvDone p len id))

/-- The operation of an AMO on `w` bits: the word in memory and the operand. -/
def amoOp (f5 w m x : Nat) : Option Nat := match f5 with
  | 0x01 => some x
  | 0x00 => some ((m + x) % 2 ^ w)
  | 0x04 => some (Nat.xor m x)
  | 0x0C => some (Nat.land m x)
  | 0x08 => some (Nat.lor m x)
  | 0x10 => some (if iSlt w x m then x else m)
  | 0x14 => some (if iSlt w m x then x else m)
  | 0x18 => some (min m x)
  | 0x1C => some (max m x)
  | _ => none

/-- LR, SC and AMO, on data memory only (R497). -/
def Dev.rvAmo (d : Dev) (p w len : Nat) : Option (Rv Unit) :=
  let f3 := funct3Of w
  let f5 := bitsOf w 27 5
  let n := 2 ^ f3
  let c := d.clerk p
  let a := c.xn (rs1Of w)
  let x := c.xn (rs2Of w) % 2 ^ (8 * n)
  let lr := f5 == 2
  let mapped := inItcm a || inDtcm a || inStage a || inWindow a || inDevice a
  let m := natOfBytes (Tbl.getN zeroByte c.dtcm (a - 0x100000) n)
  let put (v : Nat) : Tbl Byte := Tbl.setAll zeroByte c.dtcm (a - 0x100000) (bytesOfNat n v)
  if (f3 ≠ 2 ∧ f3 ≠ 3) ∨ (f5 ≠ 2 ∧ f5 ≠ 3 ∧ (amoOp f5 8 0 0).isNone) ∨ (lr ∧ rs2Of w ≠ 0) then none
  else if mapped ∧ a % n ≠ 0 then some (.exc (if lr then 4 else 6) a d)
  else if !inDtcm a then some (.exc 7 a d)
  else if lr then some (d.rvDone p len (fun (c : ClerkSt) => { c.wx (rdOf w) (BitVec.ofNat 64 (sext (8 * n) m)) with reservation := some a }))
  else if f5 = 3 then
    let ok := c.reservation == some a
    some (d.rvDone p len (fun (c : ClerkSt) => { c.wx (rdOf w) (if ok then 0 else 1) with reservation := none, dtcm := if ok then put x else c.dtcm }))
  else
    match amoOp f5 (8 * n) m x with
    | none => none
    | some v => some (d.rvDone p len (fun (c : ClerkSt) => { c.wx (rdOf w) (BitVec.ofNat 64 (sext (8 * n) m)) with dtcm := put v }))

/-! ### CSRs -/

/-- The fixed bits of mstatus: FS, VS and SD dirty, MPP machine. -/
def mstatusFixed : Nat := 2 ^ 63 + 0x600 + 0x1800 + 0x6000
/-- misa of RV64IMAFDCV with a non-standard extension. -/
def misaValue : Nat := 2 ^ 63 + 2 ^ 0 + 2 ^ 2 + 2 ^ 3 + 2 ^ 5 + 2 ^ 8 + 2 ^ 12 + 2 ^ 21 + 2 ^ 23

/-- A read of a CSR; `none` where the clerk has no such CSR. The cycle counter runs with the device-wide count of CCLK (R498,
log entry 19); its entry holds what a write has added to it. -/
def Dev.csrRead (d : Dev) (t p n : Nat) : Option (Nat × Dev) :=
  let c := d.clerk p
  match n with
  | 0x003 => some (c.rcsr 2 * 32 + c.rcsr 1, d)
  | 0x00F => some (c.rcsr 0xA * 2 + c.rcsr 9, d)
  | 0x300 => some (Nat.lor (c.rcsr 0x300) mstatusFixed, d)
  | 0x301 => some (misaValue, d)
  | 0x304 => some (0, d)
  | 0x344 => some (0, d)
  | 0x320 => some (0, d)
  | 0xB00 => some ((d.cclk / 15 + c.rcsr 0xB00) % 2 ^ 64, d)
  | 0xC00 => some ((d.cclk / 15 + c.rcsr 0xB00) % 2 ^ 64, d)
  | 0xC01 => some (t, d)
  | 0xC02 => some (c.rcsr 0xB02, d)
  | 0xC22 => some (64, d)
  | _ =>
    if [0x001, 0x002, 0x008, 0x009, 0x00A, 0x305, 0x340, 0x341, 0x342, 0x343, 0x7C0, 0xB02, 0xC20, 0xC21].contains n then
      some (c.rcsr n, d)
    else if [0xF11, 0xF12, 0xF13, 0xF14, 0xF15].contains n then some ((Config.clerkId p n).toNat, d)
    else if (0xB03 ≤ n ∧ n ≤ 0xB1F) ∨ (0x323 ≤ n ∧ n ≤ 0x33F) then some (0, d)
    else none

/-- A write of a CSR that exists and is not read-only. -/
def ClerkSt.csrWrite (c : ClerkSt) (n v : Nat) : ClerkSt := match n with
  | 0x001 => c.wcsr 1 (v % 32)
  | 0x002 => c.wcsr 2 (v % 8)
  | 0x003 => (c.wcsr 1 (v % 32)).wcsr 2 (v / 32 % 8)
  | 0x008 => c.wcsr 8 (v % 512)
  | 0x009 => c.wcsr 9 (v % 2)
  | 0x00A => c.wcsr 0xA (v % 4)
  | 0x00F => (c.wcsr 9 (v % 2)).wcsr 0xA (v / 2 % 4)
  | 0x300 => c.wcsr 0x300 (Nat.land v 0x88)
  | 0x305 => c.wcsr 0x305 (v - bitsOf v 1 1 * 2)
  | 0x341 => c.wcsr 0x341 (v - v % 2)
  | _ => if [0x340, 0x342, 0x343, 0x7C0, 0xB02].contains n then c.wcsr n v else c

/-- CSRRW, CSRRS, CSRRC and their immediate forms. -/
def Dev.rvCsr (d : Dev) (t p w len : Nat) : Option (Rv Unit) :=
  let f3 := funct3Of w
  let n := bitsOf w 20 12
  let src := if f3 ≥ 4 then rs1Of w else (d.clerk p).xn (rs1Of w)
  let writes := f3 % 4 == 1 || rs1Of w != 0
  match d.csrRead t p n with
  | none => none
  | some (old, d1) =>
    if writes && n / 2 ^ 10 == 3 then none
    else
      let new := match f3 % 4 with
        | 1 => src
        | 2 => Nat.lor old src
        | _ => old - Nat.land old src
      let d := if f3 % 4 == 1 && rdOf w == 0 then d else d1
      some (d.rvDone p len (fun (c : ClerkSt) =>
        let c := c.wx (rdOf w) (BitVec.ofNat 64 old)
        if !writes then c
        else if n = 0xB00 then c.wcsr 0xB00 ((new + (2 ^ 64 - d.cclk / 15 % 2 ^ 64)) % 2 ^ 64)
        else c.csrWrite n new))

/-- ECALL, EBREAK, MRET and WFI, and the CSR instructions. -/
def Dev.rvSystem (d : Dev) (t p w len : Nat) : Option (Rv Unit) :=
  if funct3Of w = 4 then none
  else if funct3Of w ≠ 0 then d.rvCsr t p w len
  else match w with
    | 0x00000073 => some (.exc 11 0 d)
    | 0x00100073 => some (.exc 3 (d.clerk p).pc.toNat d)
    | 0x30200073 => some (d.rvDone p len ClerkSt.mret)
    | 0x10500073 => some (d.rvDone p len id)
    | _ => none

/-! ### Integer instructions -/

/-- A branch condition by funct3; `none` where reserved. -/
def branchTaken (f3 a b : Nat) : Option Bool := match f3 with
  | 0 => some (a == b)
  | 1 => some (a != b)
  | 4 => some (iSlt 64 a b)
  | 5 => some (!iSlt 64 a b)
  | 6 => some (iUlt 64 a b)
  | 7 => some (!iUlt 64 a b)
  | _ => none

/-- The integer instructions by major opcode. -/
def Dev.rvInt (d : Dev) (t p w len : Nat) : Option (Rv Unit) :=
  let c := d.clerk p
  let pc := c.pc.toNat
  let rd := rdOf w
  let f3 := funct3Of w
  let f7 := funct7Of w
  let a := c.xn (rs1Of w)
  let b := c.xn (rs2Of w)
  let i := immI w
  let jump (target : Nat) : Rv Unit := d.rvDone p len (fun (c : ClerkSt) =>
    { c.wx rd (BitVec.ofNat 64 (pc + len)) with pc := BitVec.ofNat 64 target })
  match w % 128 with
  | 0x37 => some (d.rvX p len rd (immU w))
  | 0x17 => some (d.rvX p len rd (pc + immU w))
  | 0x6F => some (jump (pc + immJ w))
  | 0x67 => if f3 = 0 then some (jump ((a + i) / 2 * 2)) else none
  | 0x63 => (branchTaken f3 a b).map (fun tk => d.rvDone p len (fun (c : ClerkSt) =>
      if tk then { c with pc := BitVec.ofNat 64 (pc + immB w) } else c))
  | 0x03 => d.rvLoad t p w len
  | 0x23 => d.rvStore t p w len
  | 0x13 =>
    if (f3 = 1 ∧ bitsOf w 26 6 ≠ 0) ∨ (f3 = 5 ∧ bitsOf w 26 6 ≠ 0 ∧ bitsOf w 26 6 ≠ 16) then none
    else some (d.rvX p len rd (iBase 64 f3 (f3 == 5 && bitAt w 30) a i))
  | 0x1B =>
    if (f3 ≠ 0 ∧ f3 ≠ 1 ∧ f3 ≠ 5) ∨ (f3 = 1 ∧ f7 ≠ 0) ∨ (f3 = 5 ∧ f7 ≠ 0 ∧ f7 ≠ 32) then none
    else some (d.rvX p len rd (sext 32 (iBase 32 f3 (f3 == 5 && bitAt w 30) a i)))
  | 0x33 =>
    if f7 = 1 then some (d.rvX p len rd (iMulDiv 64 f3 a b))
    else if f7 = 0 ∨ (f7 = 32 ∧ (f3 = 0 ∨ f3 = 5)) then some (d.rvX p len rd (iBase 64 f3 (f7 == 32) a b))
    else none
  | 0x3B =>
    if f7 = 1 then (if f3 = 1 ∨ f3 = 2 ∨ f3 = 3 then none else some (d.rvX p len rd (sext 32 (iMulDiv 32 f3 a b))))
    else if (f7 = 0 ∧ (f3 = 0 ∨ f3 = 1 ∨ f3 = 5)) ∨ (f7 = 32 ∧ (f3 = 0 ∨ f3 = 5)) then
      some (d.rvX p len rd (sext 32 (iBase 32 f3 (f7 == 32) a b)))
    else none
  | 0x0F => if f3 ≤ 1 then some (d.rvDone p len id) else none
  | 0x2F => d.rvAmo p w len
  | 0x73 => d.rvSystem t p w len
  | _ => none

end Sys2Proof.Machine
end

