-- ==== Sys2Proof/Machine/RvFp.lean ====
section
/-!
DEFINITION. Sys2Proof/Machine/RvFp.lean: a clerk's F and D instructions and their non-finite events (R533 to R535). What
an instruction computes is RISC-V's; PRESUMED, log entry 24.
-/

namespace Sys2Proof.Machine

/-! ### Registers and events -/

def ClerkSt.fn (c : ClerkSt) (i : Nat) : Nat := (Tbl.get zeroXWord c.f i).toNat
/-- A source of `w` bits: a 32-bit value that is not NaN-boxed reads as the canonical NaN. -/
def ClerkSt.fsrc (c : ClerkSt) (w i : Nat) : Nat :=
  let v := c.fn i
  if w = 64 then v else if v / 2 ^ 32 = 2 ^ 32 - 1 then v % 2 ^ 32 else cNan 32
/-- A result of `w` bits, NaN-boxed. -/
def fbox (w v : Nat) : Nat := if w = 64 then v else (2 ^ 32 - 1) * 2 ^ 32 + v % 2 ^ 32
def ClerkSt.setF (c : ClerkSt) (w i v : Nat) : ClerkSt := { c with f := Tbl.set zeroXWord c.f i (BitVec.ofNat 64 (fbox w v)) }

/-- The event that an element code of `w` bits raises (R533, R534): KIND, FORMAT 4, OPERAND, M the element, K the width. -/
def rvEvent (trapInf : Bool) (w operand idx code : Nat) : List Event :=
  eventOf trapInf (operand == 3) 0 ((fOf w).decode code) 4 operand idx 0 (if w = 64 then 1 else 0)

/-- The flags and events of a completed floating-point instruction take effect (R534, R535): `pc` is where it stood. -/
def Dev.rvTrap (d : Dev) (t p pc flags : Nat) (evs : List Event) : Dev :=
  let c := d.clerk p
  let d := if flags = 0 then d else d.putClerk p (c.wcsr 1 (Nat.lor (c.rcsr 1) flags))
  let d := if evs != [] && !d.flag p F.TRAP0.VALID then d.wr p F.GC_TRAP_PC.PC pc else d
  d.trap t p p (d.numctl p) c.part (bitsOf pc 2 12) F.GC_STAT.HALTED evs

/-- A floating-point instruction completes. -/
def Dev.rvF (d : Dev) (t p len flags : Nat) (evs : List Event) (f : ClerkSt → ClerkSt) : Rv Unit :=
  let pc := (d.clerk p).pc.toNat
  (d.rvDone p len f).bind (fun _ d => .ok () (if d.on p then d.rvTrap t p pc flags evs else d))

/-- The rounding mode of an instruction; `none` where it is reserved. -/
def ClerkSt.rmOf (c : ClerkSt) (rm : Nat) : Option Nat :=
  let m := if rm = 7 then c.rcsr 2 else rm
  if m ≤ 4 then some m else none

/-! ### Instructions -/

/-- What a computation gives: a result of `w` bits for an f register, or a value for an x register. -/
structure FpOut where
  w : Nat
  toX : Bool
  res : FRes
  /-- the operands that are floating-point: width, OPERAND and code -/
  srcs : List (Nat × Nat × Nat)

def Dev.fpFin (d : Dev) (t p len rd : Nat) (o : FpOut) : Rv Unit :=
  let inf := d.flag p F.GC_NUMCTL.TRAP_INF
  let evs := o.srcs.flatMap (fun s => rvEvent inf s.1 s.2.1 0 s.2.2) ++ (if o.toX then [] else rvEvent inf o.w 3 0 o.res.code)
  d.rvF t p len o.res.flags evs (fun (c : ClerkSt) =>
    if o.toX then c.wx rd (BitVec.ofNat 64 o.res.code) else c.setF o.w rd o.res.code)

/-- The OP-FP instructions by funct5, at width `w`. -/
def ClerkSt.opFp (c : ClerkSt) (w ins : Nat) : Option FpOut :=
  let a := c.fsrc w (rs1Of ins)
  let b := c.fsrc w (rs2Of ins)
  let r2 := rs2Of ins
  let f3 := funct3Of ins
  let ab : List (Nat × Nat × Nat) := [(w, 0, a), (w, 1, b)]
  let a1 : List (Nat × Nat × Nat) := [(w, 0, a)]
  let rounded (f : Nat → FpOut) : Option FpOut := (c.rmOf f3).map f
  match bitsOf ins 27 5 with
  | 0x00 => rounded (fun m => ⟨w, false, fAdd w m a b, ab⟩)
  | 0x01 => rounded (fun m => ⟨w, false, fSub w m a b, ab⟩)
  | 0x02 => rounded (fun m => ⟨w, false, fMul w m a b, ab⟩)
  | 0x03 => rounded (fun m => ⟨w, false, fDiv w m a b, ab⟩)
  | 0x0B => if r2 ≠ 0 then none else rounded (fun m => ⟨w, false, fSqrt w m a, a1⟩)
  | 0x04 => if f3 > 2 then none else some ⟨w, false, ⟨fSgnj w f3 a b, 0⟩, ab⟩
  | 0x05 => if f3 > 1 then none else some ⟨w, false, fMinMax w (f3 == 1) a b, ab⟩
  | 0x14 => if f3 > 2 then none else some ⟨w, true, fCmp w f3 a b, ab⟩
  | 0x08 =>
    let wx := 96 - w
    if r2 ≠ (if w = 32 then 1 else 0) then none
    else rounded (fun m => ⟨w, false, fToF wx w m (c.fsrc wx (rs1Of ins)), [(wx, 0, c.fsrc wx (rs1Of ins))]⟩)
  | 0x18 =>
    let iw := if r2 < 2 then 32 else 64
    if r2 > 3 then none
    else rounded (fun m =>
      let r := fToInt w m iw (r2 % 2 == 0) a
      ⟨w, true, ⟨sext iw r.code, r.flags⟩, a1⟩)
  | 0x1A =>
    if r2 > 3 then none
    else rounded (fun m => ⟨w, false, intToF w m (if r2 < 2 then 32 else 64) (r2 % 2 == 0) (c.xn (rs1Of ins)), []⟩)
  | 0x1C =>
    if r2 ≠ 0 ∨ f3 > 1 then none
    else if f3 = 1 then some ⟨w, true, ⟨fClass w a, 0⟩, a1⟩
    else
      let v := c.fn (rs1Of ins) % 2 ^ w
      some ⟨w, true, ⟨sext w v, 0⟩, [(w, 0, v)]⟩
  | 0x1E => if r2 ≠ 0 ∨ f3 ≠ 0 then none else some ⟨w, false, ⟨c.xn (rs1Of ins) % 2 ^ w, 0⟩, []⟩
  | _ => none

/-- The width that the fmt field names. -/
def fpWidth (ins : Nat) : Option Nat := match bitsOf ins 25 2 with
  | 0 => some 32
  | 1 => some 64
  | _ => none

/-- FMADD, FMSUB, FNMSUB and FNMADD. -/
def ClerkSt.fused (c : ClerkSt) (w ins : Nat) (negP negC : Bool) : Option FpOut :=
  let a := c.fsrc w (rs1Of ins)
  let b := c.fsrc w (rs2Of ins)
  let z := c.fsrc w (bitsOf ins 27 5)
  (c.rmOf (funct3Of ins)).map (fun m => ⟨w, false, fMadd w m a b z negP negC, [(w, 0, a), (w, 1, b), (w, 2, z)]⟩)

/-- FLW, FLD, FSW and FSD; `none` where the width is another. -/
def Dev.fpMem (d : Dev) (t p w len : Nat) : Option (Rv Unit) :=
  let f3 := funct3Of w
  let n := 2 ^ f3
  let c := d.clerk p
  let inf := d.flag p F.GC_NUMCTL.TRAP_INF
  if f3 ≠ 2 ∧ f3 ≠ 3 then none
  else if w % 128 = 0x07 then
    some ((d.rvMem t p ((c.xn (rs1Of w) + immI w) % 2 ^ 64) n false none).bind (fun v d =>
      d.rvF t p len 0 (rvEvent inf (8 * n) 3 0 v) (fun (c : ClerkSt) => c.setF (8 * n) (rdOf w) v)))
  else
    let v := c.fn (rs2Of w) % 2 ^ (8 * n)
    some ((d.rvMem t p ((c.xn (rs1Of w) + immS w) % 2 ^ 64) n false (some v)).bind (fun _ d =>
      d.rvF t p len 0 (rvEvent inf (8 * n) 1 0 v) id))

/-- The F and D instructions by major opcode. -/
def Dev.rvFp (d : Dev) (t p w len : Nat) : Option (Rv Unit) :=
  let c := d.clerk p
  let run (o : Option FpOut) : Option (Rv Unit) := o.map (d.fpFin t p len (rdOf w))
  match w % 128 with
  | 0x07 => d.fpMem t p w len
  | 0x27 => d.fpMem t p w len
  | 0x43 => (fpWidth w).bind (fun fw => run (c.fused fw w false false))
  | 0x47 => (fpWidth w).bind (fun fw => run (c.fused fw w false true))
  | 0x4B => (fpWidth w).bind (fun fw => run (c.fused fw w true false))
  | 0x4F => (fpWidth w).bind (fun fw => run (c.fused fw w true true))
  | 0x53 => (fpWidth w).bind (fun fw => run (c.opFp fw w))
  | _ => none

end Sys2Proof.Machine
end

