-- ==== Sys2Proof/Machine/RvVec.lean ====
section
/-!
DEFINITION. Sys2Proof/Machine/RvVec.lean: the vector state of a clerk (R494: V 1.0, VLEN 512, ELEN 64), its configuration
instructions, and its loads and stores (R496, R499, R501, R507). What an instruction does is RISC-V's; PRESUMED, log
entry 24.
-/

namespace Sys2Proof.Machine

def zeroV (_ : Nat) : BitVec 512 := 0
def ClerkSt.vreg (c : ClerkSt) (i : Nat) : Nat := (Tbl.get zeroV c.v (i % 32)).toNat

/-- Element `i` of `e` bits of the group that begins at register `v`; a mask has elements of one bit. -/
def ClerkSt.velem (c : ClerkSt) (v e i : Nat) : Nat := bitsOf (c.vreg (v + i * e / 512)) (i * e % 512) e
def ClerkSt.setElem (c : ClerkSt) (v e i x : Nat) : ClerkSt :=
  let r := (v + i * e / 512) % 32
  let lo := i * e % 512
  let old := c.vreg r
  { c with v := Tbl.set zeroV c.v r (BitVec.ofNat 512 (old - bitsOf old lo e * 2 ^ lo + x % 2 ^ e * 2 ^ lo)) }

/-! ### Configuration -/

/-- LMUL in eighths; `none` where reserved. -/
def lmul8 (vtype : Nat) : Option Nat := match vtype % 8 with
  | 0 => some 8 | 1 => some 16 | 2 => some 32 | 3 => some 64 | 5 => some 1 | 6 => some 2 | 7 => some 4 | _ => none
def sewOf (vtype : Nat) : Nat := 8 * 2 ^ bitsOf vtype 3 3
def vlmaxOf (sew l8 : Nat) : Nat := 64 * l8 / sew

/-- Is a vtype one that the clerk supports? -/
def vtypeOk (v : Nat) : Bool := match lmul8 v with
  | none => false
  | some l => decide (v < 256) && decide (bitsOf v 3 3 ≤ 3) && (decide (8 ≤ l) || decide (sewOf v ≤ 8 * l))

def vill : Nat := 2 ^ 63

/-- VSETVLI, VSETIVLI and VSETVL. Between VLMAX and its double, RISC-V leaves the length free between half of AVL
and VLMAX. -/
def Dev.vset (d : Dev) (p w len : Nat) : Option (Rv Unit) :=
  let c := d.clerk p
  let rs1 := rs1Of w
  let vt? : Option Nat :=
    if !bitAt w 31 then some (bitsOf w 20 11)
    else if bitAt w 30 then some (bitsOf w 20 10)
    else if funct7Of w = 0x40 then some (c.xn (rs2Of w)) else none
  match vt? with
  | none => none
  | some vt =>
    let imm := bitAt w 31 && bitAt w 30
    let old := c.rcsr 0xC21
    let keep := !imm && rs1 == 0 && rdOf w == 0
    let max := vlmaxOf (sewOf vt) ((lmul8 vt).getD 8)
    let oldMax := if vtypeOk old then vlmaxOf (sewOf old) ((lmul8 old).getD 8) else 0
    let ok := vtypeOk vt && (!keep || oldMax == max)
    let avl := if imm then rs1 else if keep then c.rcsr 0xC20 else if rs1 = 0 then 2 ^ 64 - 1 else c.xn rs1
    let half := (avl + 1) / 2
    let r : Nat × Dev :=
      if !ok then (0, d)
      else if avl ≤ max then (avl, d)
      else if avl ≥ 2 * max then (max, d)
      else
        let f := d.freeBelow (max - half + 1)
        (half + f.1, f.2)
    some (r.2.rvDone p len (fun (c : ClerkSt) =>
      (((c.wcsr 0xC21 (if ok then vt else vill)).wcsr 0xC20 r.1).wcsr 8 0).wx (rdOf w) (BitVec.ofNat 64 r.1)))

/-! ### The setting under which a vector instruction runs -/

structure VCtx where
  c : ClerkSt
  sew : Nat
  l8 : Nat
  vl : Nat
  vstart : Nat
  ta : Bool
  ma : Bool
  unmasked : Bool
  vd : Nat
  vs1 : Nat
  vs2 : Nat

def ClerkSt.vctx (c : ClerkSt) (w : Nat) : VCtx :=
  let vt := c.rcsr 0xC21
  { c := c, sew := sewOf vt, l8 := (lmul8 vt).getD 8, vl := c.rcsr 0xC20, vstart := c.rcsr 8, ta := bitAt vt 6, ma := bitAt vt 7,
    unmasked := bitAt w 25, vd := rdOf w, vs1 := rs1Of w, vs2 := rs2Of w }

/-- Is element `i` active? -/
def VCtx.active (x : VCtx) (i : Nat) : Bool := decide (x.vstart ≤ i) && decide (i < x.vl) && (x.unmasked || x.c.velem 0 1 i == 1)
def VCtx.actives (x : VCtx) : List Nat := (List.range x.vl).filter x.active

/-- EMUL in eighths of elements of `e` bits (0 where it is below 1/8), and the registers of such a group. -/
def VCtx.emul8 (x : VCtx) (e : Nat) : Nat := if e = 1 then 8 else e * x.l8 / x.sew
def VCtx.regsOf (x : VCtx) (e : Nat) : Nat := max 1 (x.emul8 e / 8)

/-- Is a group legal: its EMUL and its first register? -/
def VCtx.group (x : VCtx) (v e : Nat) : Bool := decide (1 ≤ x.emul8 e) && decide (x.emul8 e ≤ 64) && v % x.regsOf e == 0

/-- Is a destination group of `e` bits legal: a masked one does not overlap v0 unless it is a mask? -/
def VCtx.dest (x : VCtx) (e : Nat) : Bool := x.group x.vd e && (x.unmasked || x.vd != 0 || e == 1)

/-- Is a source group legal beside a destination of `de` bits: the overlaps that V allows? -/
def VCtx.src (x : VCtx) (de v e : Nat) : Bool :=
  x.group v e &&
  (decide (x.vd + x.regsOf de ≤ v) || decide (v + x.regsOf e ≤ x.vd) || de == e || (decide (de < e) && x.vd == v) ||
   (decide (e < de) && decide (8 ≤ x.emul8 e) && v + x.regsOf e == x.vd + x.regsOf de))

/-- Are a destination and a source disjoint? -/
def VCtx.apart (x : VCtx) (de v e : Nat) : Bool := decide (x.vd + x.regsOf de ≤ v) || decide (v + x.regsOf e ≤ x.vd)

/-- What a vector instruction writes: active elements of `e` bits (0: none) with their values; the body's end, the
tail's end; an x or f result; flags, saturation and events. -/
structure VRes where
  e : Nat := 0
  val : List (Nat × Nat) := []
  body : Nat := 0
  tailTo : Nat := 0
  xd : Option Nat := none
  fd : Option Nat := none
  flags : Nat := 0
  sat : Bool := false
  evs : List Event := []

/-- The elements of the destination take their values; each agnostic element stays or becomes all ones, as bit `i` of a
free choice says. -/
def ClerkSt.vput (c : ClerkSt) (x : VCtx) (r : VRes) (free : Nat) : ClerkSt :=
  if r.e = 0 ∨ x.vstart ≥ r.body then c
  else
    let c := r.val.foldl (fun c (iv : Nat × Nat) => c.setElem x.vd r.e iv.1 iv.2) c
    let agnostic (i : Nat) : Bool :=
      decide (x.vstart ≤ i) && bitAt free i &&
      (if i < r.body then x.ma && (r.val.lookup i).isNone else x.ta || r.e == 1)
    ((List.range r.tailTo).filter agnostic).foldl (fun c i => c.setElem x.vd r.e i (2 ^ r.e - 1)) c

/-- A vector instruction completes; vstart returns to 0. -/
def Dev.vDone (d : Dev) (t p len : Nat) (x : VCtx) (rd : Nat) (r : VRes) : Rv Unit :=
  let free := Config.freeChoice d.fresh
  ({ d with fresh := d.fresh + 1 } : Dev).rvF t p len r.flags r.evs (fun (c : ClerkSt) =>
    let c := (c.vput x r free).wcsr 8 0
    let c := if r.sat then c.wcsr 9 1 else c
    let c := match r.xd with
      | some v => c.wx rd (BitVec.ofNat 64 v)
      | none => c
    match r.fd with
      | some v => c.setF x.sew rd v
      | none => c)

/-- The end of a destination's tail for elements of `e` bits. -/
def VCtx.tailEnd (x : VCtx) (e : Nat) : Nat := if e = 1 then 512 else x.regsOf e * 512 / e

/-! ### Loads and stores -/

/-- A vector memory instruction, decoded: element width, registers between fields, fields, elements, address of a field
of an element. -/
structure VMem where
  e : Nat
  step : Nat
  nf : Nat
  evl : Nat
  addr : Nat → Nat → Nat
  store : Bool
  fof : Bool := false
  masked : Bool := true

/-- The accesses of one element, field by field. -/
def VMem.element (m : VMem) (t p : Nat) (x : VCtx) (i : Nat) (d : Dev) : Rv Unit :=
  (List.range m.nf).foldl (fun r f => r.bind (fun _ d =>
    let v := x.vd + f * m.step
    if m.store then
      (d.rvMem t p (m.addr i f % 2 ^ 64) (m.e / 8) true (some ((d.clerk p).velem v m.e i))).bind (fun _ d => .ok () d)
    else
      (d.rvMem t p (m.addr i f % 2 ^ 64) (m.e / 8) true none).bind (fun y d =>
        .ok () (d.putClerk p ((d.clerk p).setElem v m.e i y))))) (.ok () d)

/-- All elements in order. An element that faults or waits leaves its number in vstart; after the first, a
fault-only-first load ends there and shortens vl. -/
def VMem.run (m : VMem) (t p : Nat) (x : VCtx) (d : Dev) : Rv Unit :=
  ((List.range m.evl).filter (fun i => decide (x.vstart ≤ i) && (!m.masked || x.unmasked || x.c.velem 0 1 i == 1))).foldl
    (fun (r : Rv Bool) i => r.bind (fun stop d =>
      if stop then .ok true d
      else match m.element t p x i d with
        | .ok _ d => .ok false d
        | .wait d => .wait (d.putClerk p ((d.clerk p).wcsr 8 i))
        | .exc c v d =>
          if m.fof && i != 0 then .ok true (d.putClerk p ((d.clerk p).wcsr 0xC20 i))
          else .exc c v (d.putClerk p ((d.clerk p).wcsr 8 i)))) (.ok false d)
  |>.bind (fun _ d => .ok () d)

/-- The agnostic elements of each field of a load, and vstart back at 0. -/
def VMem.finish (m : VMem) (p len : Nat) (x : VCtx) (d : Dev) : Rv Unit :=
  if m.store then d.rvDone p len (fun (c : ClerkSt) => c.wcsr 8 0)
  else
    let vl := if m.masked then (d.clerk p).rcsr 0xC20 else m.evl
    let actives := (List.range vl).filter (fun i => decide (x.vstart ≤ i) && (!m.masked || x.unmasked || x.c.velem 0 1 i == 1))
    (List.range m.nf).foldl (fun (r : Rv Unit) f => r.bind (fun _ d =>
      let free := Config.freeChoice d.fresh
      let y : VCtx := { x with vd := x.vd + f * m.step, ta := x.ta || !m.masked }
      let c := d.clerk p
      let e := m.e
      let vals : List (Nat × Nat) := actives.map (fun i => (i, c.velem y.vd e i))
      let res : VRes := { e := e, val := vals, body := vl, tailTo := if m.masked then m.step * 512 / e else 512 / e }
      .ok () (({ d with fresh := d.fresh + 1 } : Dev).putClerk p (c.vput y res free)))) (.ok () d)
    |>.bind (fun _ d => d.rvDone p len (fun (c : ClerkSt) => c.wcsr 8 0))

/-- The element width that the width field names; `none` for the scalar ones. -/
def vWidth (w : Nat) : Option Nat := match funct3Of w with
  | 0 => some 8 | 5 => some 16 | 6 => some 32 | 7 => some 64 | _ => none

/-- A whole-register move between memory and registers, whatever vtype holds. -/
def Dev.vWhole (d : Dev) (t p w len e : Nat) (store : Bool) : Option (Rv Unit) :=
  let c := d.clerk p
  let n := bitsOf w 29 3 + 1
  let x := c.vctx w
  let base := c.xn (rs1Of w)
  if !bitAt w 25 ∨ !([1, 2, 4, 8].contains n) ∨ x.vd % n ≠ 0 ∨ (store ∧ e ≠ 8) then none
  else
    let m : VMem := { e := e, step := n, nf := 1, evl := n * 512 / e, addr := fun i _ => base + i * (e / 8), store := store, masked := false }
    some ((m.run t p x d).bind (fun _ d => d.rvDone p len (fun (c : ClerkSt) => c.wcsr 8 0)))

/-- Vector loads (0x07) and stores (0x27). -/
def Dev.vMemory (d : Dev) (t p w len : Nat) : Option (Rv Unit) :=
  match vWidth w with
  | none => none
  | some e =>
    let c := d.clerk p
    let x := c.vctx w
    let store := w % 128 == 0x27
    let nf := bitsOf w 29 3 + 1
    let mop := bitsOf w 26 2
    let lum := bitsOf w 20 5
    let base := c.xn (rs1Of w)
    let okVd (de : Nat) : Bool :=
      x.group x.vd de && decide (x.emul8 de * nf ≤ 64) && decide (x.vd + nf * x.regsOf de ≤ 32) && (store || x.unmasked || x.vd != 0)
    let go (m : VMem) : Option (Rv Unit) := some ((m.run t p x d).bind (fun _ d => m.finish p len x d))
    if bitAt w 28 then none
    else if mop = 0 ∧ lum = 8 then d.vWhole t p w len e store
    else if c.rcsr 0xC21 / 2 ^ 63 = 1 then none
    else if mop = 0 ∧ lum = 0xB then
      if e ≠ 8 ∨ nf ≠ 1 ∨ !x.unmasked then none
      else go { e := 8, step := 1, nf := 1, evl := (x.vl + 7) / 8, addr := fun i _ => base + i, store := store, masked := false }
    else if mop = 0 then
      if (lum ≠ 0 ∧ (lum ≠ 0x10 ∨ store)) ∨ !okVd e then none
      else go { e := e, step := x.regsOf e, nf := nf, evl := x.vl, addr := fun i f => base + (i * nf + f) * (e / 8), store := store, fof := lum == 0x10 }
    else if mop = 2 then
      if !okVd e then none
      else
        let stride := c.xn (rs2Of w)
        go { e := e, step := x.regsOf e, nf := nf, evl := x.vl, addr := fun i f => base + i * stride + f * (e / 8), store := store }
    else
      let apart := (List.range nf).all (fun f => ({ x with vd := x.vd + f * x.regsOf x.sew } : VCtx).apart x.sew x.vs2 e)
      if !okVd x.sew ∨ !x.group x.vs2 e ∨ (!store ∧ nf = 1 ∧ !x.src x.sew x.vs2 e) ∨ (!store ∧ nf > 1 ∧ !apart) then none
      else go { e := x.sew, step := x.regsOf x.sew, nf := nf, evl := x.vl, addr := fun i f => base + c.velem x.vs2 e i + f * (x.sew / 8), store := store }

end Sys2Proof.Machine
end

