-- ==== Sys2Proof/Machine/RvArith.lean ====
section
/-!
DEFINITION. Sys2Proof/Machine/RvArith.lean: the integer, fixed-point, mask and permutation instructions of V (R494), by
funct6. What an instruction computes is RISC-V's; PRESUMED, log entry 24.
-/

namespace Sys2Proof.Machine

/-- The result of one element: its value, whether it saturated, and for floating point its flags and events. -/
structure VEl where
  v : Nat
  sat : Bool := false
  flags : Nat := 0
  evs : List Event := []

/-- An elementwise instruction over the listed elements. -/
def VCtx.over (x : VCtx) (idx : List Nat) (e : Nat) (f : Nat → VEl) : VRes :=
  let rs : List (Nat × VEl) := idx.map (fun i => (i, f i))
  { e := e, val := rs.map (fun (r : Nat × VEl) => (r.1, r.2.v)), body := x.vl, tailTo := x.tailEnd e,
    flags := rs.foldl (fun a (r : Nat × VEl) => Nat.lor a r.2.flags) 0, sat := rs.any (fun (r : Nat × VEl) => r.2.sat),
    evs := rs.flatMap (fun (r : Nat × VEl) => r.2.evs) }
def VCtx.map (x : VCtx) (e : Nat) (f : Nat → VEl) : VRes := x.over x.actives e f
def VCtx.mapV (x : VCtx) (e : Nat) (f : Nat → Nat) : VRes := x.map e (fun i => { v := f i })

/-- The elements from vstart to vl, whatever the mask holds. -/
def VCtx.allIdx (x : VCtx) : List Nat := (List.range x.vl).filter (fun i => decide (x.vstart ≤ i))

/-- The first operand: a vector (V), a scalar (X) or an immediate (I). -/
structure VSrc where
  isV : Bool
  get : Nat → Nat

/-- The source of funct3 at `sew` bits, with a signed or unsigned immediate. -/
def VCtx.src1 (x : VCtx) (w : Nat) (uimm : Bool) : VSrc := match funct3Of w with
  | 0 => ⟨true, fun i => x.c.velem x.vs1 x.sew i⟩
  | 2 => ⟨true, fun i => x.c.velem x.vs1 x.sew i⟩
  | 3 => ⟨false, fun _ => if uimm then x.vs1 else wrapI x.sew (signed 5 x.vs1)⟩
  | _ => ⟨false, fun _ => x.c.xn x.vs1 % 2 ^ x.sew⟩

/-- Is a first operand's group legal beside a destination of `de` bits? -/
def VCtx.okS1 (x : VCtx) (s : VSrc) (de : Nat) : Bool := !s.isV || x.src de x.vs1 x.sew

/-! ### Fixed point -/

/-- The rounding increment of vxrm when `d` low bits of `v` are dropped. -/
def vround (vxrm v d : Nat) : Nat :=
  if d = 0 then 0
  else match vxrm with
    | 0 => bitsOf v (d - 1) 1
    | 1 => if bitAt v (d - 1) && (v % 2 ^ (d - 1) != 0 || bitAt v d) then 1 else 0
    | 2 => 0
    | _ => if !bitAt v d && v % 2 ^ d != 0 then 1 else 0

/-- A value shifted right with rounding; a negative one counts as its two's complement of many bits. -/
def vroundI (vxrm : Nat) (v : Int) (d : Nat) : Int :=
  v / ((2 ^ d : Nat) : Int) + ((vround vxrm (wrapI 256 v) d : Nat) : Int)

def satS (w : Nat) (v : Int) : VEl :=
  let hi : Int := ((2 ^ (w - 1) : Nat) : Int) - 1
  let lo : Int := -((2 ^ (w - 1) : Nat) : Int)
  if v > hi then { v := wrapI w hi, sat := true } else if v < lo then { v := wrapI w lo, sat := true } else { v := wrapI w v }
def satU (w : Nat) (v : Int) : VEl :=
  if v < 0 then { v := 0, sat := true }
  else if v ≥ ((2 ^ w : Nat) : Int) then { v := 2 ^ w - 1, sat := true } else { v := v.toNat }

/-! ### Integer instructions of one width -/

/-- OPIVV, OPIVX and OPIVI with a result of SEW bits from vs2 (`a`) and the first operand (`b`). `none`: not of this kind. -/
def vIntOp (w vxrm f6 : Nat) (a b : Nat) : Option VEl :=
  let s := signed w a
  let u := signed w b
  match f6 with
  | 0x00 => some { v := (a + b) % 2 ^ w }
  | 0x02 => some { v := iSub w a b }
  | 0x03 => some { v := iSub w b a }
  | 0x04 => some { v := min a b }
  | 0x05 => some { v := if s ≤ u then a else b }
  | 0x06 => some { v := max a b }
  | 0x07 => some { v := if s ≤ u then b else a }
  | 0x09 => some { v := Nat.land a b }
  | 0x0A => some { v := Nat.lor a b }
  | 0x0B => some { v := Nat.xor a b }
  | 0x20 => some (satU w ((a : Int) + b))
  | 0x21 => some (satS w (s + u))
  | 0x22 => some (satU w ((a : Int) - b))
  | 0x23 => some (satS w (s - u))
  | 0x25 => some { v := iSll w a b }
  | 0x27 => some (satS w (vroundI vxrm (s * u) (w - 1)))
  | 0x28 => some { v := iSrl w a b }
  | 0x29 => some { v := iSra w a b }
  | 0x2A => some { v := (a / 2 ^ (b % w) + vround vxrm a (b % w)) % 2 ^ w }
  | 0x2B => some { v := wrapI w (vroundI vxrm s (b % w)) }
  | _ => none

/-- Which of V, X and I (bits 0 to 2) an OPI funct6 has. -/
def vIntForms (f6 : Nat) : Nat :=
  if [0x00, 0x09, 0x0A, 0x0B, 0x20, 0x21, 0x25, 0x28, 0x29, 0x2A, 0x2B].contains f6 then 7
  else if [0x03].contains f6 then 6 else 3

/-- The form of an OPI instruction as a bit of `vIntForms`. -/
def vForm (w : Nat) : Nat := match funct3Of w with
  | 0 => 1 | 2 => 1 | 3 => 4 | _ => 2

/-- Is an immediate of this funct6 unsigned? -/
def vUimm (f6 : Nat) : Bool := [0x0C, 0x0E, 0x0F, 0x25, 0x28, 0x29, 0x2A, 0x2B, 0x2C, 0x2D, 0x2E, 0x2F].contains f6

/-- Comparisons into a mask. -/
def vCmpOp (w f6 a b : Nat) : Option Bool :=
  let s := signed w a
  let u := signed w b
  match f6 with
  | 0x18 => some (a == b)
  | 0x19 => some (a != b)
  | 0x1A => some (decide (a < b))
  | 0x1B => some (decide (s < u))
  | 0x1C => some (decide (a ≤ b))
  | 0x1D => some (decide (s ≤ u))
  | 0x1E => some (decide (b < a))
  | 0x1F => some (decide (u < s))
  | _ => none
def vCmpForms (f6 : Nat) : Nat := if f6 ≤ 0x19 ∨ f6 = 0x1C ∨ f6 = 0x1D then 7 else if f6 ≤ 0x1B then 3 else 6

/-- Gathers and slides of OPI. -/
def VCtx.gather (x : VCtx) (w : Nat) : Option VRes :=
  let f6 := bitsOf w 26 6
  let e := x.sew
  let max := vlmaxOf e x.l8
  let f3 := funct3Of w
  let s := x.src1 w true
  let n : Nat := if f3 = 3 then x.vs1 else x.c.xn x.vs1
  let a (i : Nat) : Nat := if i < max then x.c.velem x.vs2 e i else 0
  match f6 with
  | 0x0C =>
    if !x.dest e ∨ !x.group x.vs2 e ∨ !x.apart e x.vs2 e ∨ (s.isV ∧ (!x.group x.vs1 e ∨ !x.apart e x.vs1 e)) then none
    else some (x.mapV e (fun i => a (if f3 = 0 then s.get i else n)))
  | 0x0E =>
    if f3 = 0 then
      if !x.dest e ∨ !x.group x.vs2 e ∨ !x.apart e x.vs2 e ∨ !x.group x.vs1 16 ∨ !x.apart e x.vs1 16 then none
      else some (x.mapV e (fun i => a (x.c.velem x.vs1 16 i)))
    else if !x.dest e ∨ !x.group x.vs2 e ∨ !x.apart e x.vs2 e then none
    else some (x.over (x.actives.filter (fun i => decide (n ≤ i))) e (fun i => { v := x.c.velem x.vs2 e (i - n) }) |> fun r =>
      -- active elements below the offset keep their values
      { r with val := r.val ++ (x.actives.filter (fun i => decide (i < n))).map (fun i => (i, x.c.velem x.vd e i)) })
  | _ =>
    if f3 = 0 ∨ !x.dest e ∨ !x.src e x.vs2 e then none
    else some (x.mapV e (fun i => a (i + n)))

/-- Carries and borrows: the mask is an operand. -/
def VCtx.carries (x : VCtx) (w : Nat) : Option VRes :=
  let f6 := bitsOf w 26 6
  let e := x.sew
  let s := x.src1 w false
  let sub := f6 ≥ 0x12
  let cin (i : Nat) : Nat := if x.unmasked then 0 else x.c.velem 0 1 i
  let sum (i : Nat) : Int :=
    let a : Int := x.c.velem x.vs2 e i
    let b : Int := s.get i
    let ci : Int := cin i
    if sub then a - b - ci else a + b + ci
  let out (i : Nat) : Bool := decide (sum i < 0) || decide (sum i ≥ ((2 ^ e : Nat) : Int))
  if sub ∧ funct3Of w = 3 then none
  else if f6 % 2 = 0 then
    if x.unmasked ∨ !x.dest e ∨ !x.src e x.vs2 e ∨ !x.okS1 s e then none
    else some (x.over x.allIdx e (fun i => { v := wrapI e (sum i) }))
  else if !x.group x.vd 1 ∨ !x.src 1 x.vs2 e ∨ !x.okS1 s 1 then none
  else some (x.over x.allIdx 1 (fun i => { v := bit (out i) }))

/-- VMERGE and VMV. -/
def VCtx.merge (x : VCtx) (w : Nat) : Option VRes :=
  let e := x.sew
  let s := x.src1 w false
  if !x.dest e ∨ !x.okS1 s e then none
  else if x.unmasked then
    (if x.vs2 ≠ 0 then none else some (x.over x.allIdx e (fun i => { v := s.get i })))
  else if !x.src e x.vs2 e then none
  else some (x.over x.allIdx e (fun i => { v := if x.c.velem 0 1 i = 1 then s.get i else x.c.velem x.vs2 e i }))

/-- Narrowing shifts and clips: vs2 has twice SEW. -/
def VCtx.narrow (x : VCtx) (w vxrm : Nat) : Option VRes :=
  let f6 := bitsOf w 26 6
  let e := x.sew
  let s := x.src1 w true
  if e = 64 ∨ !x.dest e ∨ !x.src e x.vs2 (2 * e) ∨ !x.okS1 s e then none
  else some (x.map e (fun i =>
    let a := x.c.velem x.vs2 (2 * e) i
    let n := s.get i % (2 * e)
    match f6 with
    | 0x2C => { v := a / 2 ^ n % 2 ^ e }
    | 0x2D => { v := iSra (2 * e) a n % 2 ^ e }
    | 0x2E => satU e (vroundI vxrm (a : Int) n)
    | _ => satS e (vroundI vxrm (signed (2 * e) a) n)))

/-- Reductions: `f` folds the active elements of vs2 (`we` bits) into element 0 of vs1 (`e` bits). -/
def VCtx.reduce (x : VCtx) (e we : Nat) (f : Nat → Nat → Nat) : Option VRes :=
  if x.vstart ≠ 0 ∨ !x.group x.vs2 we ∨ e > 64 then none
  else
    let v := x.actives.foldl (fun acc i => f acc (x.c.velem x.vs2 we i)) (x.c.velem x.vs1 e 0)
    some { e := if x.vl = 0 then 0 else e, val := [(0, v)], body := 1, tailTo := 512 / e }

/-- Whole-register moves VMV<n>R: elements of SEW bits over all the registers. -/
def Dev.vMoveRegs (d : Dev) (t p w len : Nat) : Option (Rv Unit) :=
  let c := d.clerk p
  let x := c.vctx w
  let n := x.vs1 + 1
  let per := 512 / x.sew
  if !x.unmasked ∨ !([1, 2, 4, 8].contains n) ∨ x.vd % n ≠ 0 ∨ x.vs2 % n ≠ 0 then none
  else some (d.rvF t p len 0 [] (fun (c : ClerkSt) =>
    ((List.range (n * per)).filter (fun i => decide (x.vstart ≤ i))).foldl
      (fun (c' : ClerkSt) i => c'.setElem x.vd x.sew i (x.c.velem x.vs2 x.sew i)) c |>.wcsr 8 0))

/-- OPIVV, OPIVX and OPIVI. -/
def VCtx.opi (x : VCtx) (w vxrm : Nat) : Option VRes :=
  let f6 := bitsOf w 26 6
  let e := x.sew
  let s := x.src1 w (vUimm f6)
  if f6 = 0x0C ∨ f6 = 0x0E ∨ f6 = 0x0F then x.gather w
  else if 0x10 ≤ f6 ∧ f6 ≤ 0x13 then x.carries w
  else if f6 = 0x17 then x.merge w
  else if 0x18 ≤ f6 ∧ f6 ≤ 0x1F then
    if vCmpForms f6 / vForm w % 2 = 0 ∨ !x.group x.vd 1 ∨ !x.src 1 x.vs2 e ∨ !x.okS1 s 1 then none
    else some (x.mapV 1 (fun i => bit ((vCmpOp e f6 (x.c.velem x.vs2 e i) (s.get i)).getD false)))
  else if 0x2C ≤ f6 ∧ f6 ≤ 0x2F then x.narrow w vxrm
  else if f6 = 0x30 ∨ f6 = 0x31 then
    if funct3Of w ≠ 0 ∨ e = 64 then none
    else x.reduce (2 * e) e (fun acc v => (acc + (if f6 = 0x30 then v else wrapI (2 * e) (signed e v))) % 2 ^ (2 * e))
  else if vIntForms f6 / vForm w % 2 = 0 ∨ (vIntOp e vxrm f6 0 0).isNone ∨ !x.dest e ∨ !x.src e x.vs2 e ∨ !x.okS1 s e then none
  else some (x.map e (fun i => (vIntOp e vxrm f6 (x.c.velem x.vs2 e i) (s.get i)).getD { v := 0 }))

/-! ### OPMVV and OPMVX -/

/-- Averages, multiplies, divides and multiply-adds of SEW bits: vs2 (`a`), the first operand (`b`), vd (`z`). -/
def vMulOp (w vxrm f6 a b z : Nat) : Option Nat :=
  let avg (v : Int) : Nat := wrapI w (vroundI vxrm v 1)
  match f6 with
  | 0x08 => some (avg ((a : Int) + b))
  | 0x09 => some (avg (signed w a + signed w b))
  | 0x0A => some (avg ((a : Int) - b))
  | 0x0B => some (avg (signed w a - signed w b))
  | 0x20 => some (iDivu w a b)
  | 0x21 => some (iDiv w a b)
  | 0x22 => some (iRemu w a b)
  | 0x23 => some (iRem w a b)
  | 0x24 => some (iMulhu w a b)
  | 0x25 => some (a * b % 2 ^ w)
  | 0x26 => some (iMulhsu w a b)
  | 0x27 => some (iMulh w a b)
  | 0x29 => some ((b * z + a) % 2 ^ w)
  | 0x2B => some (iSub w a (b * z % 2 ^ w))
  | 0x2D => some ((a * b + z) % 2 ^ w)
  | 0x2F => some (iSub w z (a * b % 2 ^ w))
  | _ => none

/-- Widening sums, products and multiply-adds, as exact integers: vs2, the first operand, vd of twice SEW. `w2` marks the
forms whose vs2 has twice SEW. -/
def vWideOp (w f6 a b : Nat) (z : Int) : Option Int :=
  let sa := signed w a
  let sb := signed w b
  let s2 := signed (2 * w) a
  match f6 with
  | 0x30 => some ((a : Int) + b)
  | 0x31 => some (sa + sb)
  | 0x32 => some ((a : Int) - b)
  | 0x33 => some (sa - sb)
  | 0x34 => some ((a : Int) + b)
  | 0x35 => some (s2 + sb)
  | 0x36 => some ((a : Int) - b)
  | 0x37 => some (s2 - sb)
  | 0x38 => some ((a : Int) * b)
  | 0x3A => some (sa * (b : Int))
  | 0x3B => some (sa * sb)
  | 0x3C => some ((a : Int) * b + z)
  | 0x3D => some (sa * sb + z)
  | 0x3E => some ((b : Int) * sa + z)
  | 0x3F => some (sb * (a : Int) + z)
  | _ => none

/-- Mask logic by funct6: vs2 (`a`) and vs1 (`b`). -/
def maskOp (f6 : Nat) (a b : Bool) : Bool := match f6 with
  | 0x18 => a && !b
  | 0x19 => a && b
  | 0x1A => a || b
  | 0x1B => a != b
  | 0x1C => a || !b
  | 0x1D => !(a && b)
  | 0x1E => !(a || b)
  | _ => a == b

/-- VMSBF, VMSOF, VMSIF, VIOTA and VID. -/
def VCtx.maskUnary (x : VCtx) : Option VRes :=
  let set := x.actives.filter (fun i => x.c.velem x.vs2 1 i == 1)
  let first := set.head?
  let isFirst (i : Nat) : Bool := first == some i
  let before (i : Nat) : Bool := match first with
    | none => true
    | some k => decide (i < k)
  let masks : Bool := x.vstart == 0 && x.vd != x.vs2 && (x.unmasked || x.vd != 0)
  let iota : Bool := x.vstart == 0 && x.dest x.sew && x.apart x.sew x.vs2 1
  match x.vs1 with
  | 1 => if masks then some (x.mapV 1 (fun i => bit (before i))) else none
  | 2 => if masks then some (x.mapV 1 (fun i => bit (isFirst i))) else none
  | 3 => if masks then some (x.mapV 1 (fun i => bit (before i || isFirst i))) else none
  | 16 => if iota then some (x.mapV x.sew (fun i => (set.filter (fun k => decide (k < i))).length % 2 ^ x.sew)) else none
  | 17 => if x.dest x.sew ∧ x.vs2 = 0 then some (x.mapV x.sew (fun i => i % 2 ^ x.sew)) else none
  | _ => none

/-- VZEXT and VSEXT. -/
def VCtx.extend (x : VCtx) : Option VRes :=
  let k := x.vs1
  let f := if k / 2 = 1 then 8 else if k / 2 = 2 then 4 else 2
  let se := x.sew / f
  if k < 2 ∨ k > 7 ∨ se < 8 ∨ !x.dest x.sew ∨ !x.src x.sew x.vs2 se then none
  else some (x.mapV x.sew (fun i =>
    let v := x.c.velem x.vs2 se i
    if k % 2 = 1 then wrapI x.sew (signed se v) else v))

/-- VMV.X.S, VCPOP and VFIRST; VMV.S.X. -/
def VCtx.scalarMove (x : VCtx) (w : Nat) : Option VRes :=
  let set := x.actives.filter (fun i => x.c.velem x.vs2 1 i == 1)
  if funct3Of w = 6 then
    if x.vs2 ≠ 0 ∨ !x.unmasked then none
    else some { e := if x.vstart ≥ x.vl then 0 else x.sew, val := [(0, x.c.xn x.vs1)], body := 1, tailTo := 512 / x.sew }
  else match x.vs1 with
    | 0 => if x.unmasked then some { xd := some (sext x.sew (x.c.velem x.vs2 x.sew 0)) } else none
    | 16 => if x.vstart = 0 then some { xd := some set.length } else none
    | 17 => if x.vstart = 0 then some { xd := some (match set.head? with
        | some i => i
        | none => 2 ^ 64 - 1) } else none
    | _ => none

/-- Slides by one: element 0 or the last takes the scalar. -/
def VCtx.slide1 (x : VCtx) (up : Bool) (v : Nat) : Option VRes :=
  let e := x.sew
  if !x.dest e ∨ !x.src e x.vs2 e ∨ (up ∧ !x.apart e x.vs2 e) then none
  else if up then some (x.mapV e (fun i => if i = 0 then v else x.c.velem x.vs2 e (i - 1)))
  else some (x.mapV e (fun i => if i + 1 = x.vl then v else x.c.velem x.vs2 e (i + 1)))

/-- VCOMPRESS: the elements that vs1 marks, packed; the rest of the body is tail. -/
def VCtx.compress (x : VCtx) : Option VRes :=
  let e := x.sew
  let set := (List.range x.vl).filter (fun i => x.c.velem x.vs1 1 i == 1)
  if !x.unmasked ∨ x.vstart ≠ 0 ∨ !x.dest e ∨ !x.group x.vs2 e ∨ !x.apart e x.vs2 e ∨ !x.apart e x.vs1 1 then none
  else
    let vals : List (Nat × Nat) := (List.range set.length).zip (set.map (fun i => x.c.velem x.vs2 e i))
    some { e := e, val := vals, body := set.length, tailTo := x.tailEnd e }

/-- OPMVV and OPMVX. -/
def VCtx.opm (x : VCtx) (w vxrm : Nat) : Option VRes :=
  let f6 := bitsOf w 26 6
  let e := x.sew
  let isV := funct3Of w == 2
  let s := x.src1 w false
  let red (f : Nat → Nat → Nat) : Option VRes := if isV then x.reduce e e f else none
  match f6 with
  | 0x00 => red (fun a b => (a + b) % 2 ^ e)
  | 0x01 => red Nat.land
  | 0x02 => red Nat.lor
  | 0x03 => red Nat.xor
  | 0x04 => red min
  | 0x05 => red (fun a b => if iSlt e b a then b else a)
  | 0x06 => red max
  | 0x07 => red (fun a b => if iSlt e a b then b else a)
  | 0x0E => if isV then none else x.slide1 true (x.c.xn x.vs1 % 2 ^ e)
  | 0x0F => if isV then none else x.slide1 false (x.c.xn x.vs1 % 2 ^ e)
  | 0x10 => x.scalarMove w
  | 0x12 => if isV then x.extend else none
  | 0x14 => if isV then x.maskUnary else none
  | 0x17 => if isV then x.compress else none
  | _ =>
    if 0x18 ≤ f6 ∧ f6 ≤ 0x1F then
      if !isV ∨ !x.unmasked then none
      else some (x.over x.allIdx 1 (fun i => { v := bit (maskOp f6 (x.c.velem x.vs2 1 i == 1) (x.c.velem x.vs1 1 i == 1)) }))
    else if f6 ≥ 0x30 then
      let e2 := if 0x34 ≤ f6 ∧ f6 ≤ 0x37 then 2 * e else e
      if e = 64 ∨ (vWideOp e f6 0 0 0).isNone ∨ (f6 = 0x3E ∧ isV) ∨ !x.dest (2 * e) ∨ !x.src (2 * e) x.vs2 e2 ∨ !x.okS1 s (2 * e) then none
      else some (x.mapV (2 * e) (fun i =>
        wrapI (2 * e) ((vWideOp e f6 (x.c.velem x.vs2 e2 i) (s.get i) (x.c.velem x.vd (2 * e) i : Nat)).getD 0)))
    else if (vMulOp e vxrm f6 0 0 0).isNone ∨ !x.dest e ∨ !x.src e x.vs2 e ∨ !x.okS1 s e then none
    else some (x.mapV e (fun i => (vMulOp e vxrm f6 (x.c.velem x.vs2 e i) (s.get i) (x.c.velem x.vd e i)).getD 0))

end Sys2Proof.Machine
end

