-- ==== Sys2Proof/Machine/RvVfp.lean ====
section
/-!
DEFINITION. Sys2Proof/Machine/RvVfp.lean: the floating-point instructions of V, their non-finite events (R533, R534), and
the dispatch of V by funct3. What an instruction computes is RISC-V's; PRESUMED, log entry 24.
-/

namespace Sys2Proof.Machine

/-- What a floating-point vector instruction needs beside its context: rounding mode, TRAP_INF, scalar operand. -/
structure VfIn where
  rm : Nat
  inf : Bool
  isV : Bool
  w : Nat

/-- A floating-point source element with its event: width, OPERAND, element, code. -/
def VfIn.ev (k : VfIn) (w operand i code : Nat) : List Event := rvEvent k.inf w operand i code

/-- An element's result from its sources and its floating-point result of `w` bits (w = 0: not floating point). -/
def VfIn.el (k : VfIn) (i w : Nat) (r : FRes) (srcs : List (Nat × Nat × Nat)) : VEl :=
  { v := r.code, flags := r.flags,
    evs := srcs.flatMap (fun s => k.ev s.1 s.2.1 i s.2.2) ++ (if w = 0 then [] else k.ev w 3 i r.code) }

/-- The first operand: vs1 element `i` or the scalar, of `e` bits. -/
def VCtx.fsrc1 (x : VCtx) (k : VfIn) (e i : Nat) : Nat := if k.isV then x.c.velem x.vs1 e i else x.c.fsrc e x.vs1

/-- One-width operations: vs2 (`a`), the first operand (`b`). -/
def vfOp (w rm f6 a b : Nat) : Option FRes := match f6 with
  | 0x00 => some (fAdd w rm a b)
  | 0x02 => some (fSub w rm a b)
  | 0x04 => some (fMinMax w false a b)
  | 0x06 => some (fMinMax w true a b)
  | 0x08 => some ⟨fSgnj w 0 a b, 0⟩
  | 0x09 => some ⟨fSgnj w 1 a b, 0⟩
  | 0x0A => some ⟨fSgnj w 2 a b, 0⟩
  | 0x20 => some (fDiv w rm a b)
  | 0x21 => some (fDiv w rm b a)
  | 0x24 => some (fMul w rm a b)
  | 0x27 => some (fSub w rm b a)
  | _ => none

/-- Fused operations: vs2 (`a`), the first operand (`b`), vd (`z`). -/
def vfFused (w rm f6 a b z : Nat) : Option FRes := match f6 with
  | 0x28 => some (fMadd w rm z b a false false)
  | 0x29 => some (fMadd w rm z b a true true)
  | 0x2A => some (fMadd w rm z b a false true)
  | 0x2B => some (fMadd w rm z b a true false)
  | 0x2C => some (fMadd w rm a b z false false)
  | 0x2D => some (fMadd w rm a b z true true)
  | 0x2E => some (fMadd w rm a b z false true)
  | 0x2F => some (fMadd w rm a b z true false)
  | _ => none

/-- Comparisons: vs2 with the first operand. -/
def vfCmp (w f6 a b : Nat) : Option FRes := match f6 with
  | 0x18 => some (fCmp w 2 a b)
  | 0x19 => some (fCmp w 0 a b)
  | 0x1B => some (fCmp w 1 a b)
  | 0x1C =>
    let r := fCmp w 2 a b
    some ⟨1 - r.code, r.flags⟩
  | 0x1D => some (fCmp w 1 b a)
  | 0x1F => some (fCmp w 0 b a)
  | _ => none

/-- A code of 32 bits as one of 64, exactly. -/
def widenF (x : Nat) : Nat := (fToF 32 64 0 x).code

/-- Widening operations of 64 bits: vs2 (32 or 64 bits) and the first operand of 32 bits; a signalling source is invalid. -/
def vfWide (rm f6 a b z : Nat) : Option FRes :=
  let snan := isSnan 32 b || (f6 < 0x34 || f6 == 0x38) && isSnan 32 a
  let a2 := if 0x34 ≤ f6 ∧ f6 ≤ 0x36 then a else widenF a
  let b2 := widenF b
  match f6 with
  | 0x30 => some ((fAdd 64 rm a2 b2).also snan FF.NV)
  | 0x32 => some ((fSub 64 rm a2 b2).also snan FF.NV)
  | 0x34 => some ((fAdd 64 rm a2 b2).also snan FF.NV)
  | 0x36 => some ((fSub 64 rm a2 b2).also snan FF.NV)
  | 0x38 => some ((fMul 64 rm a2 b2).also snan FF.NV)
  | 0x3C => some (fMaddW 32 64 rm a b z false false)
  | 0x3D => some (fMaddW 32 64 rm a b z true true)
  | 0x3E => some (fMaddW 32 64 rm a b z false true)
  | 0x3F => some (fMaddW 32 64 rm a b z true false)
  | _ => none

/-- VFUNARY0: conversions by the vs1 field: source and result widths, whether each is floating point, and the function. -/
structure VfCvt where
  src : Nat
  dst : Nat
  srcF : Bool
  dstF : Bool
  f : Nat → FRes

def vfCvt (sew rm k : Nat) : Option VfCvt :=
  let kind := k % 8
  let s := if k / 8 = 2 then 2 * sew else sew
  let d := if k / 8 = 1 then 2 * sew else sew
  if k ≥ 24 then none
  else match kind with
    | 0 => some ⟨s, d, true, false, fToInt s rm d false⟩
    | 1 => some ⟨s, d, true, false, fToInt s rm d true⟩
    | 2 => some ⟨s, d, false, true, intToF d rm s false⟩
    | 3 => some ⟨s, d, false, true, intToF d rm s true⟩
    | 4 => if k / 8 = 0 then none else some ⟨s, d, true, true, fToF s d rm⟩
    | 5 => if k / 8 ≠ 2 then none else some ⟨s, d, true, true, fToF s d 5⟩
    | 6 => some ⟨s, d, true, false, fToInt s 1 d false⟩
    | _ => some ⟨s, d, true, false, fToInt s 1 d true⟩

def isFw (w : Nat) : Bool := w == 32 || w == 64

def VCtx.convert (x : VCtx) (k : VfIn) : Option VRes :=
  match vfCvt x.sew k.rm x.vs1 with
  | none => none
  | some v =>
    if (v.srcF ∧ !isFw v.src) ∨ (v.dstF ∧ !isFw v.dst) ∨ v.src > 64 ∨ v.dst > 64 ∨ !x.dest v.dst ∨ !x.src v.dst x.vs2 v.src then none
    else some (x.map v.dst (fun i =>
      let a := x.c.velem x.vs2 v.src i
      k.el i (if v.dstF then v.dst else 0) (v.f a) (if v.srcF then [(v.src, 1, a)] else [])))

/-- Reductions: ordered sums fold from element 0 up; an unordered sum's result, whose order RISC-V leaves open, is a
free value of the operands (log entry 24). -/
def VCtx.fredsum (x : VCtx) (k : VfIn) (wide ordered : Bool) : Option VRes :=
  let e := x.sew
  let de := if wide then 64 else e
  if !k.isV ∨ x.vstart ≠ 0 ∨ !x.group x.vs2 e ∨ (wide ∧ e ≠ 32) then none
  else
    let a0 := x.c.velem x.vs1 de 0
    let vals := x.actives.map (fun i => x.c.velem x.vs2 e i)
    let wide2 (v : Nat) : Nat := if wide then widenF v else v
    let r := vals.foldl (fun (acc : FRes) v =>
      let n := (fAdd de k.rm acc.code (wide2 v)).also (wide && isSnan 32 v) FF.NV
      ⟨n.code, Nat.lor acc.flags n.flags⟩) ⟨a0, 0⟩
    let free := Config.clerkResult k.w ((a0 :: vals).map (BitVec.ofNat 64))
    let freeFlags := Config.clerkResult (k.w + 2 ^ 32) ((a0 :: vals).map (BitVec.ofNat 64))
    let r : FRes := if ordered then r else ⟨free.toNat % 2 ^ de, freeFlags.toNat % 32⟩
    some { e := if x.vl = 0 then 0 else de, val := [(0, r.code)], body := 1, tailTo := 512 / de, flags := if x.vl = 0 then 0 else r.flags,
           evs := if x.vl = 0 then [] else k.ev de 0 0 a0 ++ x.actives.flatMap (fun i => k.ev e 1 i (x.c.velem x.vs2 e i)) ++ k.ev de 3 0 r.code }

def VCtx.fredminmax (x : VCtx) (k : VfIn) (max : Bool) : Option VRes :=
  let e := x.sew
  if !k.isV ∨ x.vstart ≠ 0 ∨ !x.group x.vs2 e then none
  else
    let a0 := x.c.velem x.vs1 e 0
    let r := x.actives.foldl (fun (acc : FRes) i =>
      let n := fMinMax e max acc.code (x.c.velem x.vs2 e i)
      ⟨n.code, Nat.lor acc.flags n.flags⟩) ⟨a0, 0⟩
    some { e := if x.vl = 0 then 0 else e, val := [(0, r.code)], body := 1, tailTo := 512 / e, flags := if x.vl = 0 then 0 else r.flags,
           evs := if x.vl = 0 then [] else k.ev e 0 0 a0 ++ x.actives.flatMap (fun i => k.ev e 1 i (x.c.velem x.vs2 e i)) ++ k.ev e 3 0 r.code }

/-- VFSQRT, VFRSQRT7, VFREC7 and VFCLASS. -/
def VCtx.fUnary1 (x : VCtx) (k : VfIn) : Option VRes :=
  let e := x.sew
  let go (toF : Bool) (f : Nat → FRes) : Option VRes :=
    if !x.dest e ∨ !x.src e x.vs2 e then none
    else some (x.map e (fun i =>
      let a := x.c.velem x.vs2 e i
      k.el i (if toF then e else 0) (f a) [(e, 1, a)]))
  match x.vs1 with
  | 0 => go true (fSqrt e k.rm)
  | 4 => go true (fRsqrt7 e)
  | 5 => go true (fRec7 e k.rm)
  | 16 => go false (fun a => ⟨fClass e a, 0⟩)
  | _ => none

/-- VFMV.F.S, VFMV.S.F, VFMERGE and VFMV.V.F. -/
def VCtx.fMoves (x : VCtx) (k : VfIn) (f6 : Nat) : Option VRes :=
  let e := x.sew
  let s := x.c.fsrc e x.vs1
  if f6 = 0x10 then
    if !x.unmasked then none
    else if k.isV then
      let a := x.c.velem x.vs2 e 0
      if x.vs1 ≠ 0 then none else some { fd := some a, evs := k.ev e 1 0 a ++ k.ev e 3 0 a }
    else if x.vs2 ≠ 0 then none
    else some { e := if x.vstart ≥ x.vl then 0 else e, val := [(0, s)], body := 1, tailTo := 512 / e,
                evs := if x.vstart ≥ x.vl then [] else k.ev e 0 0 s ++ k.ev e 3 0 s }
  else if k.isV ∨ !x.dest e then none
  else if x.unmasked then
    (if x.vs2 ≠ 0 then none else some (x.over x.allIdx e (fun i => k.el i e ⟨s, 0⟩ [(e, 0, s)])))
  else if !x.src e x.vs2 e then none
  else some (x.over x.allIdx e (fun i =>
    if x.c.velem 0 1 i = 1 then k.el i e ⟨s, 0⟩ [(e, 0, s)]
    else
      let a := x.c.velem x.vs2 e i
      k.el i e ⟨a, 0⟩ [(e, 1, a)]))

/-- OPFVV and OPFVF. -/
def VCtx.opf (x : VCtx) (k : VfIn) : Option VRes :=
  let f6 := bitsOf k.w 26 6
  let e := x.sew
  let okS (de se : Nat) : Bool := !k.isV || x.src de x.vs1 se
  if f6 = 0x12 then (if k.isV then x.convert k else none)
  else if !isFw e then none
  else match f6 with
    | 0x01 => x.fredsum k false false
    | 0x03 => x.fredsum k false true
    | 0x31 => x.fredsum k true false
    | 0x33 => x.fredsum k true true
    | 0x05 => x.fredminmax k false
    | 0x07 => x.fredminmax k true
    | 0x13 => if k.isV then x.fUnary1 k else none
    | 0x10 => x.fMoves k f6
    | 0x17 => x.fMoves k f6
    | 0x0E =>
      let s := x.c.fsrc e x.vs1
      if k.isV then none else (x.slide1 true s).map (fun r => { r with evs := slideEvs s r })
    | 0x0F =>
      let s := x.c.fsrc e x.vs1
      if k.isV then none else (x.slide1 false s).map (fun r => { r with evs := slideEvs s r })
    | _ =>
      if 0x18 ≤ f6 ∧ f6 ≤ 0x1F then
        if (vfCmp e f6 0 0).isNone ∨ (k.isV ∧ f6 ≥ 0x1D) ∨ !x.group x.vd 1 ∨ !x.src 1 x.vs2 e ∨ !okS 1 e then none
        else some (x.map 1 (fun i =>
          let a := x.c.velem x.vs2 e i
          let b := x.fsrc1 k e i
          k.el i 0 ((vfCmp e f6 a b).getD ⟨0, 0⟩) [(e, 0, b), (e, 1, a)]))
      else if f6 ≥ 0x30 then
        let e2 := if 0x34 ≤ f6 ∧ f6 ≤ 0x36 then 64 else 32
        if e ≠ 32 ∨ (vfWide k.rm f6 0 0 0).isNone ∨ !x.dest 64 ∨ !x.src 64 x.vs2 e2 ∨ !okS 64 32 then none
        else some (x.map 64 (fun i =>
          let a := x.c.velem x.vs2 e2 i
          let b := x.fsrc1 k 32 i
          let z := x.c.velem x.vd 64 i
          k.el i 64 ((vfWide k.rm f6 a b z).getD ⟨0, 0⟩) ([(32, 0, b), (e2, 1, a)] ++ (if f6 ≥ 0x3C then [(64, 2, z)] else []))))
      else if (k.isV ∧ (f6 = 0x21 ∨ f6 = 0x27)) ∨ ((vfOp e k.rm f6 0 0).isNone ∧ (vfFused e k.rm f6 0 0 0).isNone) ∨
          !x.dest e ∨ !x.src e x.vs2 e ∨ !okS e e then none
      else some (x.map e (fun i =>
        let a := x.c.velem x.vs2 e i
        let b := x.fsrc1 k e i
        let z := x.c.velem x.vd e i
        match vfFused e k.rm f6 a b z with
        | some r => k.el i e r [(e, 0, b), (e, 1, a), (e, 2, z)]
        | none => k.el i e ((vfOp e k.rm f6 a b).getD ⟨0, 0⟩) [(e, 0, b), (e, 1, a)]))
where
  /-- The events of a slide: the scalar, the active elements of vs2, and the results. -/
  slideEvs (s : Nat) (r : VRes) : List Event :=
    k.ev x.sew 0 0 s ++ x.actives.flatMap (fun i => k.ev x.sew 1 i (x.c.velem x.vs2 x.sew i)) ++ r.val.flatMap (fun (iv : Nat × Nat) => k.ev x.sew 3 iv.1 iv.2)

/-- The vector instructions by major opcode and funct3. -/
def Dev.rvVec (d : Dev) (t p w len : Nat) : Option (Rv Unit) :=
  if w % 128 ≠ 0x57 then d.vMemory t p w len
  else if funct3Of w = 7 then d.vset p w len
  else
    let c := d.clerk p
    let x := c.vctx w
    let f3 := funct3Of w
    let f6 := bitsOf w 26 6
    let vxrm := c.rcsr 0xA
    if c.rcsr 0xC21 / 2 ^ 63 = 1 then none
    else if f3 = 3 ∧ f6 = 0x27 then d.vMoveRegs t p w len
    else if f3 = 1 ∨ f3 = 5 then
      if c.rcsr 2 > 4 then none
      else (x.opf { rm := c.rcsr 2, inf := d.flag p F.GC_NUMCTL.TRAP_INF, isV := f3 == 1, w := w }).map (d.vDone t p len x (rdOf w))
    else if f3 = 2 ∨ f3 = 6 then (x.opm w vxrm).map (d.vDone t p len x (rdOf w))
    else (x.opi w vxrm).map (d.vDone t p len x (rdOf w))

/-! ### CLERK_INSTRUCTION -/

/-- An instruction of RV64IMAFDC, Zicsr, Zifencei, V or Zicntr; `none` where it is illegal. The Xtlz instructions are
commands of their own and leave the clerk as it stands. -/
def Dev.rvExec (d : Dev) (t p w len : Nat) : Option (Rv Unit) :=
  let op := w % 128
  if op = 0x0B then (if (tzKind w).isSome then some (.wait d) else none)
  else if op = 0x57 ∨ ((op = 0x07 ∨ op = 0x27) ∧ (vWidth w).isSome) then d.rvVec t p w len
  else if [0x07, 0x27, 0x43, 0x47, 0x4B, 0x4F, 0x53].contains op then d.rvFp t p w len
  else d.rvInt t p w len

/-- One instruction of a clerk that executes (R494 to R502, R528, R529, R533 to R535): a fetch outside instruction memory
and an illegal instruction raise their exceptions. While a device-address access of the clerk is held, it waits (R681). -/
def Dev.clerkInstr (d : Dev) (t p : Nat) : Dev :=
  let pc := (d.clerk p).pc.toNat
  if !d.clerkReady p ∨ d.clerkHeld p then d
  else match (d.clerk p).fetch with
    | none => d.clerkExc t p 1 (if pc + 2 ≤ 131072 then pc + 2 else pc)
    | some (raw, len) =>
      match (if len = 2 then cExpand raw else some raw) with
      | none => d.clerkExc t p 2 raw
      | some w =>
        match d.rvExec t p w len with
        | none => d.clerkExc t p 2 raw
        | some (.ok _ d) => d
        | some (.exc c v d) => d.clerkExc t p c v
        | some (.wait d) => d

def execClerkInstruction (path : Nat) (s : State) (acc : List AccessErr := []) (ctl : List ReqOutcome := []) :=
  work s (fun d => d.withEnv ctl acc (fun d => d.clerkInstr s.now path))

end Sys2Proof.Machine
end

