-- ==== Sys2Proof/Machine/Tick.lean ====
section
/-!
DEFINITION. Sys2Proof/Machine/Tick.lean: the passage of device time (R788, R789, R1026, R1028). The table has no command
for a clock cycle: the block lets one pass when no command waits (log entry 1).
-/

namespace Sys2Proof.Machine

/-- Units of 1/270000 ns in a clock cycle: 40/27 ns of MCLK (675 MHz), or 10 ns of the reference under FALLBACK. -/
def cycleUnits (d : Dev) : Nat := if d.flag P.clocks F.CK_STAT.FALLBACK then 2700000 else 400000

/-- How much of the slew one cycle takes: at most 100 ppm of it, in either direction. -/
def slewStep (units : Nat) (slew : Int) : Int := max (-((units / 10000 : Nat) : Int)) (min ((units / 10000 : Nat) : Int) slew)

/-- The units on which a program or a part of a RUN_STEP runs. -/
def Dev.busyUnits (d : Dev) : List Nat :=
  d.runs.flatMap (fun r => r.active) ++
  (d.regs.filter (fun c => (if kindOf (keyPath c.1) == some .clerk then keyOff c.1 == F.GC_STAT.RUNNING.off
    else isTile (keyPath c.1) && keyOff c.1 == F.ME_STAT.RUNNING.off) && d.progRuns (keyPath c.1))).map (fun c => keyPath c.1)

/-- What a cycle of MCLK brings to the block (log entry 1): units that left OFF start (R93), and what R14, R15, R94 and R131
tie to one cycle is over; the CCLK and BCLK cycles that fall in it advance the device-wide count (R429), the watchdogs (R369)
a roll of the amax/scale table (R219) and the rows that Carters request (R577, R665), and stand still under FALLBACK (R1027); a
stall that has ended is counted (R684). `t` is the time of the new cycle. -/
def Dev.cycle (d : Dev) (t : Nat) : Dev :=
  let u := d.cclkUnits
  let n := (d.cclk + u) / 15 - d.cclk / 15
  let d := { d with busyAt := d.busyUnits.foldl (fun b p => Tbl.set noNat b p t) d.busyAt }.startWaiting t
  let d := { d with cyc := {}, cclk := d.cclk + u }
  if !d.clocked then d
  else
    let d := ((d.watchTick n).rollOn 2).settleStalls t
    if d.fills = [] then d else (List.range 8).foldl (fun d s => d.carterAsk t s askFuel) d

/-- One clock cycle of device time. -/
def State.tick (s : State) : State :=
  let u := cycleUnits s.d
  let a := slewStep u s.slew
  let total := s.frac + ((u : Int) - a).toNat
  let now := s.now + total / 270000
  { s with now := now, frac := total % 270000, slew := s.slew - a, d := s.d.cycle now }

end Sys2Proof.Machine
end

