-- ==== Sys2Proof/Machine/Dispatch.lean ====
section
/-!
DEFINITION. Sys2Proof/Machine/Dispatch.lean: the meaning of each command, one arm per row of the opcode table.
-/

namespace Sys2Proof.Machine

/-- The effect of a command on everything but the queue. -/
def exec (i : Instr) (s : State) : Host.Outcome State Fault Refusal :=
  match i with
  | .registerWrite src path off size v => Sys2Proof.Machine.execRegisterWrite src path off size v s
  | .unitEnable path => Sys2Proof.Machine.execUnitEnable path s
  | .unitDisable path => Sys2Proof.Machine.execUnitDisable path s
  | .blockReset path ok => Sys2Proof.Machine.execBlockReset path s ok
  | .fence path => Sys2Proof.Machine.execFence path s
  | .release path => Sys2Proof.Machine.execRelease path s
  | .startSequenceDone path => Sys2Proof.Machine.execStartSequenceDone path s
  | .unitDrainComplete path => Sys2Proof.Machine.execUnitDrainComplete path s
  | .unitDrainTimeout path => Sys2Proof.Machine.execUnitDrainTimeout path s
  | .groupPageWrite off v => Sys2Proof.Machine.execGroupPageWrite off v s
  | .vgw src off v => Sys2Proof.Machine.execVgw src off v s
  | .vgc src words => Sys2Proof.Machine.execVgc src words s
  | .vga src words => Sys2Proof.Machine.execVga src words s
  | .vgcPeriod => Sys2Proof.Machine.execVgcPeriod s
  | .doorbell ring tail => Sys2Proof.Machine.execDoorbell ring tail s
  | .docketFetch ring res sramBits => Sys2Proof.Machine.execDocketFetch ring res sramBits s
  | .docketBegin ring ctl => Sys2Proof.Machine.execDocketBegin ring s ctl
  | .completionWrite ring => Sys2Proof.Machine.execCompletionWrite ring s
  | .cplHeadWrite ring head => Sys2Proof.Machine.execCplHeadWrite ring head s
  | .restart ring => Sys2Proof.Machine.execRestart ring s
  | .nop ring => Sys2Proof.Machine.execNop ring s
  | .barrier ring => Sys2Proof.Machine.execBarrier ring s
  | .kill => Sys2Proof.Machine.execKill s
  | .amaxRead => Sys2Proof.Machine.execAmaxRead s
  | .amaxCommit w3 => Sys2Proof.Machine.execAmaxCommit w3 s
  | .amaxRoll first last => Sys2Proof.Machine.execAmaxRoll first last s
  | .amaxRollDone => Sys2Proof.Machine.execAmaxRollDone s
  | .trapClear path => Sys2Proof.Machine.execTrapClear path s
  | .meGo path => Sys2Proof.Machine.execMeGo path s
  | .meStop path => Sys2Proof.Machine.execMeStop path s
  | .meProgRead path => Sys2Proof.Machine.execMeProgRead path s
  | .meProgWrite path hi => Sys2Proof.Machine.execMeProgWrite path hi s
  | .mma path amBits => Sys2Proof.Machine.execMma path amBits s
  | .bankFull path bankB => Sys2Proof.Machine.execBankFull path bankB s
  | .shadowMove path => Sys2Proof.Machine.execShadowMove path s
  | .drain path => Sys2Proof.Machine.execDrain path s
  | .drainStart path amBits => Sys2Proof.Machine.execDrainStart path s amBits
  | .drainComplete path => Sys2Proof.Machine.execDrainComplete path s
  | .mcfg path => Sys2Proof.Machine.execMcfg path s
  | .ldw path amBits => Sys2Proof.Machine.execLdw path amBits s
  | .lda path => Sys2Proof.Machine.execLda path s
  | .wait path => Sys2Proof.Machine.execWait path s
  | .setb path => Sys2Proof.Machine.execSetb path s
  | .loop path => Sys2Proof.Machine.execLoop path s
  | .endl path => Sys2Proof.Machine.execEndl path s
  | .endp path => Sys2Proof.Machine.execEndp path s
  | .tileNop path => Sys2Proof.Machine.execTileNop path s
  | .hostSub span bay eng => Sys2Proof.Machine.execHostSub span bay eng s
  | .hostRel span => Sys2Proof.Machine.execHostRel span s
  | .meSpare span => Sys2Proof.Machine.execMeSpare span s
  | .flitArrive circ => Sys2Proof.Machine.execFlitArrive circ s
  | .creditReturn circ => Sys2Proof.Machine.execCreditReturn circ s
  | .grainStart io gate => Sys2Proof.Machine.execGrainStart io gate s
  | .grainFlitMove io gate => Sys2Proof.Machine.execGrainFlitMove io gate s
  | .trStall pos port out => Sys2Proof.Machine.execTrStall pos port out s
  | .trWatchdogWrite span isSeal limit => Sys2Proof.Machine.execTrWatchdogWrite span isSeal limit s
  | .loadPlan res => Sys2Proof.Machine.execLoadPlan res s
  | .quiesceTimeout => Sys2Proof.Machine.execQuiesceTimeout s
  | .unseal => Sys2Proof.Machine.execUnseal s
  | .descriptorWrite io res ctl => Sys2Proof.Machine.execDescriptorWrite io res s ctl
  | .rowRequest circ word => Sys2Proof.Machine.execRowRequest circ word s
  | .rowRead path bits => Sys2Proof.Machine.execRowRead path bits s
  | .rowWrite path => Sys2Proof.Machine.execRowWrite path s
  | .spEccWriteback path => Sys2Proof.Machine.execSpEccWriteback path s
  | .spCheckWrite path v => Sys2Proof.Machine.execSpCheckWrite path v s
  | .apertureRead off size bits => Sys2Proof.Machine.execApertureRead off size s bits
  | .apertureWrite off size v bits => Sys2Proof.Machine.execApertureWrite off size v s bits
  | .windowOpen v ctl => Sys2Proof.Machine.execWindowOpen v s ctl
  | .windowClose v => Sys2Proof.Machine.execWindowClose v s
  | .windowWriteCounted win res ctl acc => Sys2Proof.Machine.execWindowWriteCounted win res s ctl acc
  | .scRead span addr bits => Sys2Proof.Machine.execScRead span addr bits s
  | .scWrite span addr data => Sys2Proof.Machine.execScWrite span addr data s
  | .scFlush span => Sys2Proof.Machine.execScFlush span s
  | .scInvalidate span => Sys2Proof.Machine.execScInvalidate span s
  | .scOpDone span => Sys2Proof.Machine.execScOpDone span s
  | .fadd span counter n => Sys2Proof.Machine.execFadd span counter n s
  | .fread span counter => Sys2Proof.Machine.execFread span counter s
  | .fset span counter value limit => Sys2Proof.Machine.execFset span counter value limit s
  | .clerkInstruction path acc ctl => Sys2Proof.Machine.execClerkInstruction path s acc ctl
  | .tzRld path => Sys2Proof.Machine.execTzRld path s
  | .tzRst path => Sys2Proof.Machine.execTzRst path s
  | .rowMoveDone path slot => Sys2Proof.Machine.execRowMoveDone path slot s
  | .tzRfence path => Sys2Proof.Machine.execTzRfence path s
  | .tzLfadd path => Sys2Proof.Machine.execTzLfadd path s
  | .tzLfread path => Sys2Proof.Machine.execTzLfread path s
  | .tzLfset path => Sys2Proof.Machine.execTzLfset path s
  | .tzCwait path => Sys2Proof.Machine.execTzCwait path s
  | .cwaitTimeout path => Sys2Proof.Machine.execCwaitTimeout path s
  | .tzDpost path => Sys2Proof.Machine.execTzDpost path s
  | .subDocketBegin span entry ctl => Sys2Proof.Machine.execSubDocketBegin span entry s ctl
  | .tzDpoll path => Sys2Proof.Machine.execTzDpoll path s
  | .tzEfence path => Sys2Proof.Machine.execTzEfence path s
  | .tzDone path => Sys2Proof.Machine.execTzDone path s
  | .gcGo path => Sys2Proof.Machine.execGcGo path s
  | .gcStop path => Sys2Proof.Machine.execGcStop path s
  | .sfop path => Sys2Proof.Machine.execSfop path s
  | .sfcfg path => Sys2Proof.Machine.execSfcfg path s
  | .sfPregWrite path v => Sys2Proof.Machine.execSfPregWrite path v s
  | .ftPtInvAll => Sys2Proof.Machine.execFtPtInvAll s
  | .ftPtInvPage page => Sys2Proof.Machine.execFtPtInvPage page s
  | .invalidationDone => Sys2Proof.Machine.execInvalidationDone s
  | .nearRead path addr bytes symErrs crcFails scBits fillErrs ctl => Sys2Proof.Machine.execNearRead path addr bytes symErrs crcFails s scBits fillErrs ctl
  | .nearWrite path addr data symErrs crcFails ctl => Sys2Proof.Machine.execNearWrite path addr data symErrs crcFails s ctl
  | .nmTimeout id => Sys2Proof.Machine.execNmTimeout id s
  | .patrolScrub stack row symErrs => Sys2Proof.Machine.execPatrolScrub stack row symErrs s
  | .retWindowStart => Sys2Proof.Machine.execRetWindowStart s
  | .migrationStart stack => Sys2Proof.Machine.execMigrationStart stack s
  | .nmRetire stack bad => Sys2Proof.Machine.execNmRetire stack s bad
  | .nmRetGo granule stack => Sys2Proof.Machine.execNmRetGo granule stack s
  | .nmScrub ctl => Sys2Proof.Machine.execNmScrub s ctl
  | .nmCfgWrite v => Sys2Proof.Machine.execNmCfgWrite v s
  | .farReply id res => Sys2Proof.Machine.execFarReply id res s
  | .farTimeout id => Sys2Proof.Machine.execFarTimeout id s
  | .expanderProbe e ok => Sys2Proof.Machine.execExpanderProbe e ok s
  | .stream ring ctl => Sys2Proof.Machine.execStream ring s ctl
  | .fetch ring ctl => Sys2Proof.Machine.execFetch ring s ctl
  | .offload ring ctl => Sys2Proof.Machine.execOffload ring s ctl
  | .fillBegin win ctl => Sys2Proof.Machine.execFillBegin win s ctl
  | .fillCounted win => Sys2Proof.Machine.execFillCounted win s
  | .leadAdapt span => Sys2Proof.Machine.execLeadAdapt span s
  | .stallStart span tier cause addr => Sys2Proof.Machine.execStallStart span tier cause addr s
  | .caStall span tier cause => Sys2Proof.Machine.execCaStall span tier cause s
  | .runStep ring => Sys2Proof.Machine.execRunStep ring s
  | .partStart path => Sys2Proof.Machine.execPartStart path s
  | .dkStepWrite step => Sys2Proof.Machine.execDkStepWrite step s
  | .clear => Sys2Proof.Machine.execClear s
  | .trainingDone port => Sys2Proof.Machine.execTrainingDone port s
  | .trainingTimeout port => Sys2Proof.Machine.execTrainingTimeout port s
  | .trainingRetry port => Sys2Proof.Machine.execTrainingRetry port s
  | .hello port src => Sys2Proof.Machine.execHello port src s
  | .kyDevIdWrite id => Sys2Proof.Machine.execKyDevIdWrite id s
  | .frameReceive port lseq crc f => Sys2Proof.Machine.execFrameReceive port lseq crc f s
  | .put f => Sys2Proof.Machine.execPut f s
  | .cwrite f => Sys2Proof.Machine.execCwrite f s
  | .wack f acc => Sys2Proof.Machine.execWack f s acc
  | .wref f => Sys2Proof.Machine.execWref f s
  | .cready f => Sys2Proof.Machine.execCready f s
  | .cabort f => Sys2Proof.Machine.execCabort f s
  | .ack port lseq => Sys2Proof.Machine.execAck port lseq s
  | .nak port lseq => Sys2Proof.Machine.execNak port lseq s
  | .credit port vc count => Sys2Proof.Machine.execCredit port vc count s
  | .creditReport port => Sys2Proof.Machine.execCreditReport port s
  | .replayTimeout port => Sys2Proof.Machine.execReplayTimeout port s
  | .kyRetrain port lseq free => Sys2Proof.Machine.execKyRetrain port lseq free s
  | .kyLaneSpare port lane lseq free => Sys2Proof.Machine.execKyLaneSpare port lane lseq free s
  | .retrainTimeout port => Sys2Proof.Machine.execRetrainTimeout port s
  | .kySlow port vc => Sys2Proof.Machine.execKySlow port vc s
  | .slowClear port => Sys2Proof.Machine.execSlowClear port s
  | .selectiveAck dev vc low map => Sys2Proof.Machine.execSelectiveAck dev vc low map s
  | .selectiveAckSend dev vc => Sys2Proof.Machine.execSelectiveAckSend dev vc s
  | .e2eResend dev vc => Sys2Proof.Machine.execE2eResend dev vc s
  | .kyRtDataWrite v => Sys2Proof.Machine.execKyRtDataWrite v s
  | .tsyncPeriod => Sys2Proof.Machine.execTsyncPeriod s
  | .tsync port src t1 => Sys2Proof.Machine.execTsync port src t1 s
  | .tdreq port src => Sys2Proof.Machine.execTdreq port src s
  | .tdrsp port src t4 => Sys2Proof.Machine.execTdrsp port src t4 s
  | .allReduce ctl acc => Sys2Proof.Machine.execAllReduce s ctl acc
  | .reduceScatter ctl acc => Sys2Proof.Machine.execReduceScatter s ctl acc
  | .allGather ctl acc => Sys2Proof.Machine.execAllGather s ctl acc
  | .amaxMax ctl acc => Sys2Proof.Machine.execAmaxMax s ctl acc
  | .reducePut ctl acc => Sys2Proof.Machine.execReducePut s ctl acc
  | .chRemote group rank => Sys2Proof.Machine.execChRemote group rank s
  | .tollhouseMessage k => Sys2Proof.Machine.execTollhouseMessage k s
  | .fcAck slot => Sys2Proof.Machine.execFcAck slot s
  | .graceTimerExpiry slot => Sys2Proof.Machine.execGraceTimerExpiry slot s
  | .ladderStepDone slot ok => Sys2Proof.Machine.execLadderStepDone slot ok s
  | .recurEnd slot => Sys2Proof.Machine.execRecurEnd slot s
  | .errPulseEnd => Sys2Proof.Machine.execErrPulseEnd s
  | .errPinCtlWrite v => Sys2Proof.Machine.execErrPinCtlWrite v s
  | .fcPhaseWrite v => Sys2Proof.Machine.execFcPhaseWrite v s
  | .fcReactWrite v => Sys2Proof.Machine.execFcReactWrite v s
  | .fcLogRead => Sys2Proof.Machine.execFcLogRead s
  | .sliceStart path => Sys2Proof.Machine.execSliceStart path s
  | .sliceDone path pass repairable readable => Sys2Proof.Machine.execSliceDone path pass repairable readable s
  | .sliceBudgetExpiry path => Sys2Proof.Machine.execSliceBudgetExpiry path s
  | .biOverdue path => Sys2Proof.Machine.execBiOverdue path s
  | .bistWindow => Sys2Proof.Machine.execBistWindow s
  | .bistWindowEnd => Sys2Proof.Machine.execBistWindowEnd s
  | .biAutoOff => Sys2Proof.Machine.execBiAutoOff s
  | .assayerEval => Sys2Proof.Machine.execAssayerEval s
  | .snapshot ctl acc => Sys2Proof.Machine.execSnapshot s ctl acc
  | .captureStart ctl acc => Sys2Proof.Machine.execCaptureStart s ctl acc
  | .captureEnd ctl acc => Sys2Proof.Machine.execCaptureEnd s ctl acc
  | .snapshotStage far res ctl acc => Sys2Proof.Machine.execSnapshotStage far res s ctl acc
  | .snapshotComplete => Sys2Proof.Machine.execSnapshotComplete s
  | .snPair => Sys2Proof.Machine.execSnPair s
  | .snUnpair => Sys2Proof.Machine.execSnUnpair s
  | .snAutoOff => Sys2Proof.Machine.execSnAutoOff s
  | .restore res ctl acc => Sys2Proof.Machine.execRestore res s ctl acc
  | .hdmRead addr symErrs excl => Sys2Proof.Machine.execHdmRead addr symErrs excl s
  | .hdmWrite addr data poison => Sys2Proof.Machine.execHdmWrite addr data poison s
  | .bisnpResponse line => Sys2Proof.Machine.execBisnpResponse line s
  | .hostSnoop addr => Sys2Proof.Machine.execHostSnoop addr s
  | .uioRequest addr => Sys2Proof.Machine.execUioRequest addr s
  | .perstN us => Sys2Proof.Machine.execPerstN us s
  | .cxlLinkDown link => Sys2Proof.Machine.execCxlLinkDown link s
  | .cxlLinkUp link => Sys2Proof.Machine.execCxlLinkUp link s
  | .ideFail link => Sys2Proof.Machine.execIdeFail link s
  | .aerUncorr link => Sys2Proof.Machine.execAerUncorr link s
  | .boot facts => Sys2Proof.Machine.execBoot facts s
  | .bootStepTimeout step => Sys2Proof.Machine.execBootStepTimeout step s
  | .clearLevels => Sys2Proof.Machine.execClearLevels s
  | .maintNext => Sys2Proof.Machine.execMaintNext s
  | .svnCommit => Sys2Proof.Machine.execSvnCommit s
  | .revoke v => Sys2Proof.Machine.execRevoke v s
  | .nextImage imageB => Sys2Proof.Machine.execNextImage imageB s
  | .btJrnlRead => Sys2Proof.Machine.execBtJrnlRead s
  | .firmwareUpdate off data => Sys2Proof.Machine.execFirmwareUpdate off data s
  | .activateFirmware => Sys2Proof.Machine.execActivateFirmware s
  | .spdmRequest via code slot => Sys2Proof.Machine.execSpdmRequest via code s slot
  | .getMeasurements via index slot => Sys2Proof.Machine.execGetMeasurements via index s slot
  | .mctpRegisterAccess write path off v via vendor => Sys2Proof.Machine.execMctpRegisterAccess write path off v s via vendor
  | .mctpPacketRead via => Sys2Proof.Machine.execMctpPacketRead s via
  | .pldmSensorUpdate => Sys2Proof.Machine.execPldmSensorUpdate s
  | .ckUnlock => Sys2Proof.Machine.execCkUnlock s
  | .phyPllUnlock kind n => Sys2Proof.Machine.execPhyPllUnlock kind n s
  | .governorPeriod watts => Sys2Proof.Machine.execGovernorPeriod watts s
  | .voltageRampDone => Sys2Proof.Machine.execVoltageRampDone s
  | .powerUp => Sys2Proof.Machine.execPowerUp s
  | .powerUpComplete => Sys2Proof.Machine.execPowerUpComplete s
  | .inputUndervoltage => Sys2Proof.Machine.execInputUndervoltage s
  | .railUv rail => Sys2Proof.Machine.execRailUv rail s
  | .pwDroop span => Sys2Proof.Machine.execPwDroop span s
  | .sensorRead temps => Sys2Proof.Machine.execSensorRead temps s
  | .thermalClear => Sys2Proof.Machine.execThermalClear s
  | .registerRead src path off size => Sys2Proof.Machine.execRegisterRead src path off size s
  | .nmLinkRetrainDone stack => Sys2Proof.Machine.execNmLinkRetrainDone stack s
  | .voltageLowerDone => Sys2Proof.Machine.execVoltageLowerDone s
  | .hdmDecoderCommit commit => Sys2Proof.Machine.execHdmDecoderCommit commit s

end Sys2Proof.Machine
end

