-- ==== Sys2Proof/Machine/Step.lean ====
section
/-!
DEFINITION. Sys2Proof/Machine/Step.lean: one step of the block: the command at the front of the queue has its effect,
with the rest of the queue left; when none waits, a clock cycle passes.
-/

namespace Sys2Proof.Machine

/-- One step. -/
def step (s : State) : Host.Outcome State Fault Refusal :=
  match s.pending with
  | [] => .next s.tick
  | c :: rest => exec c { s with pending := rest }

/-- The state with the command that a word spells at the front of its queue; unchanged where it spells none. -/
def State.withFetchWord (s : State) (nbits w : Nat) : State :=
  match decodeTableWord nbits w with
  | none => s
  | some c => { s with pending := c :: s.pending }

end Sys2Proof.Machine
end

