-- ==== Sys2Proof/Safety.lean ====
section
/-!
DEFINITION. Sys2Proof/Safety.lean: the terms that claims are stated in: the effect of a command, what it leaves alone, and
the canonical form of the memories.
-/

namespace Sys2Proof.Machine

/-- Does a command have its effect, and does `P` hold of the state after it? -/
def Yields (c : Instr) (s : State) (P : State → Prop) : Prop := ∃ t, exec c s = .next t ∧ P t

/-- The registers of every page but `p` read as before. -/
def OtherPages (d e : Dev) (p : Nat) : Prop :=
  ∀ q i (f : Fld), q ≠ p → i < 2 ^ 20 → f.off < 4096 → f.lo < 64 → e.rdi q i f = d.rdi q i f

/-- Does a cached translation cover a 2 MiB page (R578, R580)? -/
def tcCovers (x : TcEnt) (page : Nat) : Bool := x.page == (if x.big then page / 512 else page)

/-- A clerk after it retired a 4-byte instruction whose only result is `v` in register `rd` (x0 stays zero): the other x
registers and its memories are as before, the pc and instret advance. -/
def Retires (c c' : ClerkSt) (rd : Nat) (v : Word) : Prop :=
  (∀ i, i < 32 → c'.rx i = if i = rd ∧ i ≠ 0 then v else c.rx i) ∧ c'.pc = c.pc + 4 ∧
  c'.rcsr 0xB02 = (c.rcsr 0xB02 + 1) % 2 ^ 64 ∧ c'.itcm = c.itcm ∧ c'.dtcm = c.dtcm ∧ c'.stage = c.stage

/-- The row, with its bytes, that stands whole at the head of a read circuit's queue once the oldest flit on the circuit's links
has arrived: its fourth (R419, R420). -/
def Dev.comingRow (d : Dev) (c : Circuit) : Option (Nat × List Byte) :=
  let x := d.circ c.key
  match x.inFlight with
  | [] => none
  | f :: _ =>
    if posSpan c.srcPos = posSpan c.dstPos ∧ f.epoch = d.epoch (posSpan c.dstPos) ∧ x.queue.length = 3 then
      some (((x.queue ++ [f]).map (·.row)).headD 0, (x.queue ++ [f]).flatMap (·.payload))
    else none

/-- Does an instruction that reads rows lack only the row `k`? And what it has once that has come. -/
def Fetch.lacksOnly (f : Fetch) (k : RowKey) : Bool :=
  f.rows.contains k && !f.got.any (fun g => g.1 == k) && f.rows.all (fun x => x == k || f.got.any (fun g => g.1 == x))
def Fetch.add (f : Fetch) (k : RowKey) (bs : List Byte) : Fetch := { f with got := f.got ++ [(k, bs)] }

/-- Docket `n` of ring `k` stands at a stage. -/
def StandsAt (d : Dev) (k n : Nat) (st : DkStage) : Prop := ∃ y, d.docket k n = some y ∧ y.stage = st

/-- Is the command of a unit that CCLK or BCLK drives (R1022)? -/
def onCclk : Instr → Bool
  | .mma .. | .bankFull .. | .shadowMove .. | .drain .. | .drainStart .. | .drainComplete .. | .mcfg .. | .ldw .. | .lda .. => true
  | .wait .. | .setb .. | .loop .. | .endl .. | .endp .. | .tileNop .. | .sfop .. | .sfcfg .. | .clerkInstruction .. => true
  | .tzRld .. | .tzRst .. | .rowMoveDone .. | .tzRfence .. | .tzLfadd .. | .tzLfread .. | .tzLfset .. | .tzCwait .. => true
  | .tzDpost .. | .tzDpoll .. | .tzEfence .. | .tzDone .. | .subDocketBegin .. => true
  | .rowRequest .. | .rowRead .. | .rowWrite .. | .spEccWriteback .. | .fadd .. | .fread .. | .fset .. => true
  | .flitArrive .. | .creditReturn .. | .grainStart .. | .grainFlitMove .. => true
  | .scRead .. | .scWrite .. | .scOpDone .. | .docketFetch .. | .docketBegin .. | .completionWrite .. => true
  | .fillBegin .. | .fillCounted .. | .partStart .. | .nearRead .. | .nearWrite .. | .patrolScrub .. | .migrationStart .. => true
  | _ => false

/-- The device as a command finds it whose control reads and accesses all come back well. -/
def Dev.clean (d : Dev) : Dev := { d with env := {} }

/-- Clock, slew and queue are as before. -/
def SameAround (s t : State) : Prop := t.now = s.now ∧ t.frac = s.frac ∧ t.slew = s.slew ∧ t.pending = s.pending

/-- The memories that a command may store to, in canonical form: addresses strictly rising, no entry equal to what an
unlisted one reads as. -/
def Memory.wf (d : Dev) : Bool :=
  Tbl.wf zeroByte d.spad && Tbl.wf zeroByte d.hostMem && Tbl.wf zeroByte d.fabric && Tbl.wf (nearDflt d.nearGen) d.near &&
  Tbl.wf amaxReset d.amax && Tbl.wf resetKey d.regs

end Sys2Proof.Machine
end

