-- ==== Sys2Proof/Certificates/Slice0/Obligations.lean ====
section
/-!
DEFINITION. Sys2Proof/Certificates/Slice0/Obligations.lean: the statements about the block. Each docstring names the rules that
the statement formalises; what a statement says of a command, it says of the state after `exec`.
-/

open Sys2Proof Sys2Proof.Machine

/-! ### Scratchpads and the Ledger (06) -/

/-- R478, R479: FADD, FREAD and FSET on a Ledger counter, with the frame: no register of another page, no memory. -/
def Obligations.LedgerOperations : Prop :=
  ∀ (s : State) (span c : Nat), c < 256 → s.d.clocked = true →
    (∀ n, s.d.lgValue span c < s.d.lgLimit span c →
      Yields (.fadd span c n) s (fun t =>
        t.d.rdata = BitVec.ofNat 512 (min n (s.d.lgLimit span c - s.d.lgValue span c) * 2 ^ 32 + s.d.lgValue span c) ∧
        t.d.lgValue span c = (s.d.lgValue span c + min n (s.d.lgLimit span c - s.d.lgValue span c)) % 2 ^ 32 ∧
        t.d.lgLimit span c = s.d.lgLimit span c ∧ t.d.lgStart span c = s.d.lgStart span c ∧
        OtherPages s.d t.d (P.ledger span) ∧ { t.d with regs := s.d.regs, rdata := s.d.rdata, cyc := s.d.cyc } = s.d)) ∧
    (∀ n, s.d.lgLimit span c ≤ s.d.lgValue span c →
      Yields (.fadd span c n) s (fun t =>
        t.d.rdata = BitVec.ofNat 512 0x8000000000000000 ∧ t.d.lgValue span c = s.d.lgValue span c ∧
        t.d.lgLimit span c = s.d.lgLimit span c ∧ t.d.lgStart span c = s.d.lgStart span c ∧
        t.d.rd (P.ledger span) F.LG_EXH_CNT.COUNT = min (s.d.rd (P.ledger span) F.LG_EXH_CNT.COUNT + 1) (2 ^ 32 - 1) ∧
        OtherPages s.d t.d (P.ledger span) ∧ { t.d with regs := s.d.regs, rdata := s.d.rdata, cyc := s.d.cyc } = s.d)) ∧
    Yields (.fread span c) s (fun t =>
      t.d.rdata = BitVec.ofNat 512 (s.d.lgValue span c + s.d.lgLimit span c * 2 ^ 32) ∧
      t.d.lgValue span c = s.d.lgValue span c ∧ t.d.lgLimit span c = s.d.lgLimit span c ∧
      OtherPages s.d t.d (P.ledger span) ∧ { t.d with regs := s.d.regs, rdata := s.d.rdata, cyc := s.d.cyc } = s.d) ∧
    (∀ v l : W32, Yields (.fset span c v l) s (fun t =>
      t.d.lgValue span c = v.toNat ∧ t.d.lgLimit span c = l.toNat ∧ t.d.lgStart span c = v.toNat ∧
      OtherPages s.d t.d (P.ledger span) ∧ { t.d with regs := s.d.regs, cyc := s.d.cyc } = s.d))

/-- R417, R418: a row request of the span's epoch joins its tile's requests; one of another epoch is discarded and counted.
R419, R421, R427: a tile with one waiting request, of a circuit or of a Carter's fill for a row of an ONCHIP page, serves it; every
byte of the scratchpads reads as before.
R422: a tile with one complete group that keeps the rule stores its row; no byte outside the row changes. -/
def Obligations.RowRequests : Prop :=
  (∀ (s : State) (circ : Nat) (w : BitVec 16) (rest : List (BitVec 16)) (c : Circuit),
    s.d.clocked = true → s.d.circuit circ = some c → (s.d.circ circ).requests = w :: rest →
    Yields (.rowRequest circ w) s (fun t =>
      (t.d.circ circ).requests = rest ∧
      (∀ k, k ≠ circ → t.d.circ k = s.d.circ k) ∧ t.d.spad = s.d.spad ∧
      (w.toNat / 2 ^ 14 = s.d.epoch (posSpan c.srcPos) →
        Tbl.get noReqs t.d.spReqs ((tileAt c.srcPos).getD 0) =
          Tbl.get noReqs s.d.spReqs ((tileAt c.srcPos).getD 0) ++ [⟨circ, w.toNat % 2 ^ 14⟩] ∧ t.d.regs = s.d.regs) ∧
      (w.toNat / 2 ^ 14 ≠ s.d.epoch (posSpan c.srcPos) →
        t.d.spReqs = s.d.spReqs ∧
        t.d.rd (P.trestle (posSpan c.srcPos)) F.TR_STALE_CNT.COUNT =
          (s.d.rd (P.trestle (posSpan c.srcPos)) F.TR_STALE_CNT.COUNT + 1) % 2 ^ 32))) ∧
  (∀ (s : State) (p : Nat), s.d.clocked = true → kindOf p = some .sp → s.d.apRead p = none →
    (∀ port wide r c, s.d.readyReads p = [(port, wide, r)] → port < 8 → s.d.carterRow p false = none → s.d.circuit r.circ = some c →
      Yields (.rowRead p 0) s (fun t =>
        Tbl.get noReqs t.d.spReqs p = (Tbl.get noReqs s.d.spReqs p).erase r ∧
        t.d.rd p F.SP_RD_CNT.COUNT = (s.d.rd p F.SP_RD_CNT.COUNT + 1) % 2 ^ F.SP_RD_CNT.COUNT.w ∧
        t.d.spad = s.d.spad ∧ t.d.near = s.d.near ∧ t.d.hostMem = s.d.hostMem)) ∧
    (∀ q, s.d.readyReads p = [] → s.d.carterRow p false = some q → q.kind = 0 → (∀ c ∈ s.d.copies, c.owner ≠ q.owner) →
      Yields (.rowRead p 0) s (fun t =>
        t.d.reqs = s.d.reqs.filter (fun x => x.id != q.id) ∧
        t.d.rd p F.SP_RD_CNT.COUNT = (s.d.rd p F.SP_RD_CNT.COUNT + 1) % 2 ^ F.SP_RD_CNT.COUNT.w ∧
        t.d.spad = s.d.spad ∧ t.d.near = s.d.near ∧ t.d.hostMem = s.d.hostMem))) ∧
  (∀ (s : State) (p row : Nat) (c : Circuit) (fs : List Flit) (rest : List Flit),
    s.d.circuits.filter (fun c => c.dstPos == posOf p && c.kind != 1) = [c] →
    s.d.clocked = true → s.d.apWrite p = none → s.d.carterRow p true = none → s.d.winRow p = none → c.dstPort < 8 →
    (s.d.circ c.key).queue = fs ++ rest → fs.length = 4 → (fs.flatMap (fun f => f.payload)).length = 512 →
    (fs.headD ⟨0, false, 0, 0, 0, 0, []⟩).row = row →
    writeGroup (tileNo p) (fs ++ rest) = some (4, true) →
    Yields (.rowWrite p) s (fun t =>
      t.d.row (spanOf p) row = fs.flatMap (fun f => f.payload) ∧
      (∀ a, (a < spadBase (spanOf p) row ∨ spadBase (spanOf p) row + 512 ≤ a) →
        Tbl.get zeroByte t.d.spad a = Tbl.get zeroByte s.d.spad a) ∧
      (t.d.circ c.key).queue = rest))

/-- R414, R441, R444: a corrected row that waits is written back in a cycle in which the write port has no request, and changes no
tag; SP_CHECK takes the value written, unless the
span holds a loaded plan.
R446 to R449: an aperture access at a tile whose ports have no other request answers and stores the bytes at its offset; a
read or a write that finds another request waits, a waiting read is answered by a later ROW_READ, and a waiting write replaces
the whole row by the row as it was read with its bytes merged in; before READY, in a KILL, or of a size or alignment that R446
does not name, a read answers zero and a write stores nothing. -/
def Obligations.ScratchpadTiles : Prop :=
  (∀ (s : State) (p : Nat), kindOf p = some .sp →
    (∀ x, s.d.clocked = true → s.d.writeReady p = false → s.d.spFix.find? (fun x => x / 2 ^ 14 == p) = some x →
      Yields (.spEccWriteback p) s (fun t =>
        x ∉ t.d.spFix ∧ (∀ y ∈ s.d.spFix, y ≠ x → y ∈ t.d.spFix) ∧ { t.d with spFix := s.d.spFix } = s.d)) ∧
    (s.d.writeReady p = true → Yields (.spEccWriteback p) s (fun t => t.d = s.d)) ∧
    (∀ v : Word, s.d.planIn (spanOf p) = false →
      Yields (.spCheckWrite p v) s (fun t =>
        t.d.rd p F.SP_CHECK.ENABLE = v.toNat % 2 ∧ t.d.rd p F.SP_CHECK.INIT = v.toNat / 2 % 2 ∧
        (s.d.rd p F.SP_CHECK.ENABLE = 0 → v.toNat % 2 = 1 →
          ∀ row, row < 2 ^ 14 → t.d.tag p row = if v.toNat / 2 % 2 = 1 then 3 else 0) ∧
        OtherPages s.d t.d p ∧ t.d.spad = s.d.spad)) ∧
    (∀ v : Word, s.d.planIn (spanOf p) = true →
      Yields (.spCheckWrite p v) s (fun t =>
        t.d.rd p F.SP_CHECK.ENABLE = s.d.rd p F.SP_CHECK.ENABLE ∧ t.d.rd p F.SP_CHECK.INIT = s.d.rd p F.SP_CHECK.INIT ∧
        t.d.flag p F.UNIT_ERR.STATE_CMD = true ∧ t.d.spTags = s.d.spTags ∧ t.d.spad = s.d.spad))) ∧
  (∀ (s : State) (off size : Nat),
    (apertureOk off size = true → s.d.apertureOpen (aperturePath off) = true → s.d.apFree (aperturePath off) = true →
      Yields (.apertureRead off size 0) s (fun t =>
        t.d.rdata = BitVec.ofNat 512 (natOfBytes (Tbl.getN zeroByte s.d.spad off size)) ∧ t.d.spad = s.d.spad ∧
        t.d.apQ = s.d.apQ ∧ t.d.spTags = s.d.spTags ∧ t.d.near = s.d.near ∧ t.d.hostMem = s.d.hostMem) ∧
      (∀ v : BitVec 512, s.d.writeReady (aperturePath off) = false →
        Yields (.apertureWrite off size v 0) s (fun t =>
          Tbl.getN zeroByte t.d.spad off size = bytesOfNat size v.toNat ∧
          (∀ a, (a < off ∨ off + size ≤ a) → Tbl.get zeroByte t.d.spad a = Tbl.get zeroByte s.d.spad a) ∧
          t.d.spTags = s.d.spTags ∧ t.d.near = s.d.near ∧ t.d.hostMem = s.d.hostMem))) ∧
    (apertureOk off size = true → s.d.apertureOpen (aperturePath off) = true → s.d.apFree (aperturePath off) = false →
      Yields (.apertureRead off size 0) s (fun t =>
        t.d.apQ = s.d.apQ ++ [{ off := off, size := size }] ∧ t.d.spad = s.d.spad ∧ t.d.rdata = s.d.rdata) ∧
      (∀ v : BitVec 512, Yields (.apertureWrite off size v 0) s (fun t =>
        t.d.apQ = s.d.apQ ++ [{ off := off, size := size, data := some (bytesOfNat size v.toNat) }] ∧ t.d.spad = s.d.spad))) ∧
    (∀ a, s.d.clocked = true → s.d.readClasses (aperturePath off) = ([], [aperturePort]) → s.d.apRead (aperturePath off) = some a →
      apertureOk a.off a.size = true → aperturePath a.off = aperturePath off → a.data = none →
      Yields (.rowRead (aperturePath off) 0) s (fun t =>
        t.d.rdata = BitVec.ofNat 512 (natOfBytes (Tbl.getN zeroByte s.d.spad a.off a.size)) ∧ t.d.apQ = s.d.apQ.erase a ∧
        t.d.spad = s.d.spad)) ∧
    (∀ a row, s.d.clocked = true → s.d.writeReqs (aperturePath off) = [(aperturePort, false)] → s.d.apWrite (aperturePath off) = some a →
      aperturePath a.off = aperturePath off → a.merged = some row → row.length = 512 → a.off < 2 ^ 31 →
      Yields (.rowWrite (aperturePath off)) s (fun t =>
        Tbl.getN zeroByte t.d.spad (a.off / 512 * 512) 512 = row ∧ t.d.apQ = s.d.apQ.erase a ∧ t.d.spTags = s.d.spTags)) ∧
    ((apertureOk off size = false ∨ s.d.apertureOpen (aperturePath off) = false) →
      Yields (.apertureRead off size 0) s (fun t => t.d.rdata = 0 ∧ { t.d with rdata := s.d.rdata } = s.d) ∧
      (∀ v : BitVec 512, Yields (.apertureWrite off size v 0) s (fun t => t.d = s.d))))

/-! ### Amax/scale table and traps (03) -/

/-- R203, R206, R209, R204: a read of CH_AMAX_DATA0 answers word 0 of entry INDEX and buffers all four; a write of
CH_AMAX_DATA3 commits the staged words, to every entry but entry 0, which stays as it was; a reserved format code leaves FMT as it
is (R18, R141).
R218 to R221, R203: GO starts a roll of the entries from FIRST to LAST, one per BCLK, under BUSY; while BUSY it starts none; at
the roll's end every entry that was still to come has rolled, but entry 0, and BUSY clears. -/
def Obligations.AmaxTable : Prop :=
  (∀ (s : State),
    Yields .amaxRead s (fun t =>
      t.d.rdata = BitVec.ofNat 512 (s.d.amaxWord (s.d.rd P.amax F.CH_AMAX_INDEX.INDEX) 0) ∧
      (∀ w, w < 4 → t.d.rdi P.amax 1 (amaxData w) = s.d.amaxWord (s.d.rd P.amax F.CH_AMAX_INDEX.INDEX) w % 2 ^ 64) ∧
      t.d.amax = s.d.amax ∧ OtherPages s.d t.d P.amax) ∧
    (∀ w3 : Word, s.d.rd P.amax F.CH_AMAX_INDEX.INDEX ≠ 0 → fmtIsReserved (bitsOf w3.toNat 32 4) = true →
      Yields (.amaxCommit w3) s (fun t =>
        t.d.amaxWord (s.d.rd P.amax F.CH_AMAX_INDEX.INDEX) 3 % 2 ^ 32 = w3.toNat % 2 ^ 32 ∧
        bitsOf (t.d.amaxWord (s.d.rd P.amax F.CH_AMAX_INDEX.INDEX) 3) 32 4 =
          bitsOf (s.d.amaxWord (s.d.rd P.amax F.CH_AMAX_INDEX.INDEX) 3) 32 4 ∧
        t.d.flag P.amax F.UNIT_ERR.ILLEGAL_WRITE = true ∧
        (∀ e w, w < 4 → e ≠ s.d.rd P.amax F.CH_AMAX_INDEX.INDEX → t.d.amaxWord e w = s.d.amaxWord e w))) ∧
    (∀ w3 : Word, s.d.rd P.amax F.CH_AMAX_INDEX.INDEX ≠ 0 → fmtIsReserved (bitsOf w3.toNat 32 4) = false →
      Yields (.amaxCommit w3) s (fun t =>
        (∀ w, w < 3 → t.d.amaxWord (s.d.rd P.amax F.CH_AMAX_INDEX.INDEX) w = s.d.rdi P.amax 0 (amaxData w) % 2 ^ 64) ∧
        t.d.amaxWord (s.d.rd P.amax F.CH_AMAX_INDEX.INDEX) 3 = w3.toNat % 2 ^ 37 ∧
        (∀ e w, w < 4 → e ≠ s.d.rd P.amax F.CH_AMAX_INDEX.INDEX → t.d.amaxWord e w = s.d.amaxWord e w) ∧
        OtherPages s.d t.d P.amax)) ∧
    (∀ w3 : Word, s.d.rd P.amax F.CH_AMAX_INDEX.INDEX = 0 →
      Yields (.amaxCommit w3) s (fun t => t.d.amax = s.d.amax ∧ t.d.flag P.amax F.UNIT_ERR.ILLEGAL_WRITE = true))) ∧
  (∀ (s : State),
    (∀ first last, first < 4096 → last < 4096 → s.d.flag P.amax F.CH_AMAX_ROLL.BUSY = false →
      Yields (.amaxRoll first last) s (fun t =>
        t.d.flag P.amax F.CH_AMAX_ROLL.BUSY = true ∧ t.d.roll = (if first ≤ last then some (first, last) else none) ∧
        t.d.amax = s.d.amax ∧ OtherPages s.d t.d P.amax)) ∧
    (∀ first last, s.d.flag P.amax F.CH_AMAX_ROLL.BUSY = true →
      Yields (.amaxRoll first last) s (fun t =>
        t.d.amax = s.d.amax ∧ t.d.roll = s.d.roll ∧ t.d.flag P.amax F.UNIT_ERR.STATE_CMD = true)) ∧
    (∀ first last, first ≤ last → last < 4096 → s.d.roll = some (first, last) →
      Yields .amaxRollDone s (fun t =>
        t.d.flag P.amax F.CH_AMAX_ROLL.BUSY = false ∧ t.d.roll = none ∧
        (∀ e, first ≤ e → e ≤ last → e ≠ 0 →
          t.d.amaxWord e 1 = s.d.amaxWord e 1 % 2 ^ 32 * 2 ^ 32 ∧
          t.d.amaxWord e 2 = (s.d.amaxWord e 1 / 2 ^ 32 + s.d.amaxWord e 2 % 2 ^ 32 * 2 ^ 32) % 2 ^ 64 ∧
          t.d.amaxWord e 3 = (s.d.amaxWord e 3 / 2 ^ 32 * 2 ^ 32 + s.d.amaxWord e 2 / 2 ^ 32) % 2 ^ 64 ∧
          t.d.amaxWord e 0 = s.d.amaxWord e 0) ∧
        (∀ e w, w < 4 → (e = 0 ∨ e < first ∨ last < e) → t.d.amaxWord e w = s.d.amaxWord e w) ∧ OtherPages s.d t.d P.amax)) ∧
    (s.d.roll = none →
      Yields .amaxRollDone s (fun t => t.d.flag P.amax F.CH_AMAX_ROLL.BUSY = false ∧ t.d.amax = s.d.amax ∧ OtherPages s.d t.d P.amax)))

/-- R241 to R244: GO starts the program at ENTRY with base registers and loop stack cleared, while RUNNING it is ignored with
STATE_CMD; STOP ends issue; the program memory is read whole through the buffer and written only while RUNNING is clear.
R235, R14: a write of 1 to TRAP0.VALID of an engine, a spare, an SF tile or a clerk clears the whole record, but not a record
that the hardware wrote in the same MCLK cycle. -/
def Obligations.TileControl : Prop :=
  (∀ (s : State) (p : Nat),
    (kindOf p = some .me ∨ kindOf p = some .spare → s.d.flag p F.ME_STAT.RUNNING = false → s.d.on p = true →
      Yields (.meGo p) s (fun t =>
        t.d.flag p F.ME_STAT.RUNNING = true ∧ t.d.rd p F.ME_STAT.PC = s.d.rd p F.ME_CTL.ENTRY % 2 ^ 12 ∧
        (∀ b, b < 4 → t.d.baseReg p b = 0) ∧ (t.d.me p).loops = [] ∧ (t.d.me p).bankA = (s.d.me p).bankA ∧
        (t.d.me p).bankB = (s.d.me p).bankB ∧ OtherPages s.d t.d p ∧ t.d.spad = s.d.spad)) ∧
    (kindOf p = some .sf → s.d.flag p F.SF_STAT.RUNNING = false → s.d.on p = true →
      Yields (.meGo p) s (fun t =>
        t.d.flag p F.SF_STAT.RUNNING = true ∧ t.d.rd p F.SF_STAT.PC = s.d.rd p F.SF_CTL.ENTRY % 2 ^ 12 ∧
        OtherPages s.d t.d p ∧ t.d.spad = s.d.spad)) ∧
    (isTile p = true → s.d.flag p F.ME_STAT.RUNNING = true →
      Yields (.meGo p) s (fun t => t.d.flag p F.UNIT_ERR.STATE_CMD = true ∧ t.d.rd p F.ME_STAT.PC = s.d.rd p F.ME_STAT.PC ∧
        t.d.mes = s.d.mes ∧ t.d.sfs = s.d.sfs)) ∧
    (isTile p = true → Yields (.meStop p) s (fun t =>
      t.d.flag p F.ME_STAT.RUNNING = false ∧ t.d.rd p F.ME_STAT.PC = s.d.rd p F.ME_STAT.PC ∧ OtherPages s.d t.d p ∧
      { t.d with regs := s.d.regs } = s.d)) ∧
    (isTile p = true → Yields (.meProgRead p) s (fun t =>
      t.d.rdata = BitVec.ofNat 512 ((s.d.progWord p (s.d.rd p F.ME_PROG_ADDR.ADDR)).toNat % 2 ^ 64) ∧
      t.d.progBuf p = s.d.progWord p (s.d.rd p F.ME_PROG_ADDR.ADDR) ∧ t.d.regs = s.d.regs ∧ t.d.spad = s.d.spad)) ∧
    (∀ hi : Word, isTile p = true → s.d.flag p F.ME_STAT.RUNNING = false →
      Yields (.meProgWrite p hi) s (fun t =>
        t.d.progWord p (s.d.rd p F.ME_PROG_ADDR.ADDR) = BitVec.ofNat 128 (hi.toNat * 2 ^ 64 + s.d.rd p F.ME_PROG_LO.LO) ∧
        (∀ i, i ≠ s.d.rd p F.ME_PROG_ADDR.ADDR → t.d.progWord p i = s.d.progWord p i) ∧ OtherPages s.d t.d p ∧
        t.d.spad = s.d.spad)) ∧
    (∀ hi : Word, isTile p = true → s.d.flag p F.ME_STAT.RUNNING = true →
      Yields (.meProgWrite p hi) s (fun t =>
        t.d.flag p F.UNIT_ERR.STATE_CMD = true ∧ (∀ i, t.d.progWord p i = s.d.progWord p i) ∧ OtherPages s.d t.d p ∧
        t.d.mes = s.d.mes ∧ t.d.sfs = s.d.sfs ∧ t.d.spad = s.d.spad))) ∧
  (∀ (s : State) (p : Nat),
    (kindOf p = some .me ∨ kindOf p = some .spare ∨ kindOf p = some .sf ∨ kindOf p = some .clerk) →
    (s.d.newMask p 0 F.TRAP0.VALID = 0 →
      Yields (.trapClear p) s (fun t =>
        (∀ f : Fld, 0x820 ≤ f.off → f.off ≤ 0x838 → f.lo < 64 → t.d.rd p f = resetKey (fldKey p 0 f)) ∧
        (∀ i (f : Fld), i < 2 ^ 20 → f.lo < 64 → f.off < 0x820 → f.off ≠ F.GC_TRAP_PC.PC.off →
          t.d.rdi p i f = s.d.rdi p i f) ∧
        (kindOf p = some .clerk → t.d.rd p F.GC_TRAP_PC.PC = 0) ∧
        OtherPages s.d t.d p ∧ { t.d with regs := s.d.regs } = s.d)) ∧
    (s.d.newMask p 0 F.TRAP0.VALID ≠ 0 → Yields (.trapClear p) s (fun t => t.d = s.d)))

/-! ### Matrix engines and tile programs (04) -/

/-- R253 to R256, R263, R245: MCFG sets the tile configuration, SETB a base register, LOOP pushes its count on a
stack of four levels (R240) and ENDL returns to
the loop's start until the count has run, NOP only advances; the program counter moves on, the scratchpads stay.
R254, R255: a WAIT whose guard is met goes on to the next index; one whose guard is not met waits, with GUARD_WAIT set; so does
an MMA, LDW, LDA or DRAIN whose guard is not met, and does nothing else. -/
def Obligations.EngineControlInstructions : Prop :=
  (∀ (s : State) (p : Nat), s.d.clocked = true →
    (s.d.meReady p 3 = true → Yields (.mcfg p) s (fun t =>
      (t.d.me p).cfg = s.d.meInstr p ∧ t.d.rd p F.ME_STAT.PC = (s.d.rd p F.ME_STAT.PC + 1) % 2 ^ 12 ∧
      (t.d.me p).bankA = (s.d.me p).bankA ∧ (t.d.me p).bankB = (s.d.me p).bankB ∧ OtherPages s.d t.d p ∧ t.d.spad = s.d.spad)) ∧
    (s.d.meReady p 7 = true → Yields (.setb p) s (fun t =>
      t.d.baseReg p (setbSel (s.d.meInstr p)) =
        (if setbAdd (s.d.meInstr p) then s.d.baseReg p (setbSel (s.d.meInstr p)) + setbValue (s.d.meInstr p)
         else setbValue (s.d.meInstr p)) % 2 ^ 19 ∧
      (∀ b, b < 4 → b ≠ setbSel (s.d.meInstr p) → t.d.baseReg p b = s.d.baseReg p b) ∧
      t.d.rd p F.ME_STAT.PC = (s.d.rd p F.ME_STAT.PC + 1) % 2 ^ 12 ∧ t.d.mes = s.d.mes ∧ OtherPages s.d t.d p ∧ t.d.spad = s.d.spad)) ∧
    (s.d.meReady p 8 = true → Yields (.loop p) s (fun t =>
      (t.d.me p).loops = ((s.d.rd p F.ME_STAT.PC + 1, loopCount (s.d.meInstr p)) :: (s.d.me p).loops).take 4 ∧
      t.d.rd p F.ME_STAT.PC = (s.d.rd p F.ME_STAT.PC + 1) % 2 ^ 12 ∧ OtherPages s.d t.d p ∧ t.d.spad = s.d.spad)) ∧
    (∀ a c rest, s.d.meReady p 9 = true → (s.d.me p).loops = (a, c) :: rest → Yields (.endl p) s (fun t =>
      (1 < c → (t.d.me p).loops = (a, c - 1) :: rest ∧ t.d.rd p F.ME_STAT.PC = a % 2 ^ 12) ∧
      (c ≤ 1 → (t.d.me p).loops = rest ∧ t.d.rd p F.ME_STAT.PC = (s.d.rd p F.ME_STAT.PC + 1) % 2 ^ 12) ∧
      OtherPages s.d t.d p ∧ t.d.spad = s.d.spad)) ∧
    (s.d.meReady p 0 = true → Yields (.tileNop p) s (fun t =>
      t.d.rd p F.ME_STAT.PC = (s.d.rd p F.ME_STAT.PC + 1) % 2 ^ 12 ∧ t.d.mes = s.d.mes ∧ OtherPages s.d t.d p ∧ t.d.spad = s.d.spad)) ∧
    (s.d.meReady p 0x1F = true → (s.d.me p).drains = [] → (s.d.me p).part = none → Yields (.endp p) s (fun t =>
      t.d.flag p F.ME_STAT.RUNNING = false ∧ (t.d.me p).ending = false ∧ OtherPages s.d t.d p ∧ t.d.spad = s.d.spad)) ∧
    (s.d.meReady p 0x1F = true → (s.d.me p).drains ≠ [] → Yields (.endp p) s (fun t =>
      t.d.flag p F.ME_STAT.RUNNING = true ∧ (t.d.me p).ending = true ∧ OtherPages s.d t.d p ∧ t.d.spad = s.d.spad))) ∧
  (∀ (s : State) (p : Nat), s.d.clocked = true →
    (s.d.meReady p 6 = true → s.d.guardOk (s.d.meInstr p) = true → Yields (.wait p) s (fun t =>
      t.d.rd p F.ME_STAT.PC = (s.d.rd p F.ME_STAT.PC + 1) % 2 ^ 12 ∧ t.d.flag p F.ME_STAT.GUARD_WAIT = false ∧
      OtherPages s.d t.d p ∧ t.d.spad = s.d.spad)) ∧
    (s.d.meReady p 6 = true → s.d.guardOk (s.d.meInstr p) = false → Yields (.wait p) s (fun t =>
      t.d.rd p F.ME_STAT.PC = s.d.rd p F.ME_STAT.PC ∧ t.d.flag p F.ME_STAT.GUARD_WAIT = true ∧
      OtherPages s.d t.d p ∧ t.d.spad = s.d.spad)) ∧
    (∀ c, ((s.d.meReady p 1 = true ∧ c = .mma p 0) ∨ (s.d.meReady p 2 = true ∧ c = .drain p) ∨ (s.d.meReady p 4 = true ∧ c = .ldw p 0) ∨
        (s.d.meReady p 5 = true ∧ c = .lda p)) → s.d.guardOk (s.d.meInstr p) = false → Yields c s (fun t =>
      t.d.rd p F.ME_STAT.PC = s.d.rd p F.ME_STAT.PC ∧ t.d.flag p F.ME_STAT.GUARD_WAIT = true ∧ t.d.mes = s.d.mes ∧
      OtherPages s.d t.d p ∧ t.d.spad = s.d.spad)) ∧
    (s.d.sfReady p 6 = true → s.d.guardOk (s.d.sfInstr p) = true → Yields (.wait p) s (fun t =>
      t.d.rd p F.SF_STAT.PC = (s.d.rd p F.SF_STAT.PC + 1) % 2 ^ 12 ∧ OtherPages s.d t.d p ∧ t.d.spad = s.d.spad)) ∧
    (s.d.sfReady p 6 = true → s.d.guardOk (s.d.sfInstr p) = false → Yields (.wait p) s (fun t =>
      t.d.rd p F.SF_STAT.PC = s.d.rd p F.SF_STAT.PC ∧ t.d.flag p F.SF_STAT.GUARD_WAIT = true ∧
      OtherPages s.d t.d p ∧ t.d.spad = s.d.spad)))

/-- R263, R264, R541: LOOP, ENDL, NOP and END of an SF tile's program.
R543, R545: SFCFG sets a parameter register from its instruction and goes on; a write of SF_PREG_DATA sets the register that
SF_PREG_SEL names. -/
def Obligations.SfControl : Prop :=
  (∀ (s : State) (p : Nat), s.d.clocked = true →
    (s.d.sfReady p 8 = true → Yields (.loop p) s (fun t =>
      (t.d.sf p).loops = ((s.d.rd p F.SF_STAT.PC + 1, loopCount (s.d.sfInstr p)) :: (s.d.sf p).loops).take 4 ∧
      t.d.rd p F.SF_STAT.PC = (s.d.rd p F.SF_STAT.PC + 1) % 2 ^ 12 ∧ OtherPages s.d t.d p ∧ t.d.spad = s.d.spad)) ∧
    (∀ a c rest, s.d.sfReady p 9 = true → (s.d.sf p).loops = (a, c) :: rest → Yields (.endl p) s (fun t =>
      (1 < c → (t.d.sf p).loops = (a, c - 1) :: rest ∧ t.d.rd p F.SF_STAT.PC = a % 2 ^ 12) ∧
      (c ≤ 1 → (t.d.sf p).loops = rest ∧ t.d.rd p F.SF_STAT.PC = (s.d.rd p F.SF_STAT.PC + 1) % 2 ^ 12) ∧
      OtherPages s.d t.d p ∧ t.d.spad = s.d.spad)) ∧
    (s.d.sfReady p 0 = true → Yields (.tileNop p) s (fun t =>
      t.d.rd p F.SF_STAT.PC = (s.d.rd p F.SF_STAT.PC + 1) % 2 ^ 12 ∧ t.d.sfs = s.d.sfs ∧ OtherPages s.d t.d p ∧ t.d.spad = s.d.spad)) ∧
    (s.d.sfReady p 0x1F = true → s.d.outsEmpty p = true → (s.d.sf p).part = none → Yields (.endp p) s (fun t =>
      t.d.flag p F.SF_STAT.RUNNING = false ∧ OtherPages s.d t.d p ∧ t.d.spad = s.d.spad)) ∧
    (s.d.sfReady p 0x1F = true → s.d.outsEmpty p = false → Yields (.endp p) s (fun t => t.d = s.d))) ∧
  (∀ (s : State) (p : Nat),
    (s.d.clocked = true → s.d.sfReady p 2 = true → sfcfgPreg (s.d.sfInstr p) < 28 → Yields (.sfcfg p) s (fun t =>
      t.d.preg p (sfcfgPreg (s.d.sfInstr p)) = sfcfgValue (s.d.sfInstr p) % 2 ^ 32 ∧
      (∀ r, r < 28 → r ≠ sfcfgPreg (s.d.sfInstr p) → t.d.preg p r = s.d.preg p r) ∧
      t.d.rd p F.SF_STAT.PC = (s.d.rd p F.SF_STAT.PC + 1) % 2 ^ 12 ∧ OtherPages s.d t.d p ∧ t.d.spad = s.d.spad)) ∧
    (∀ v : W32, kindOf p = some .sf → s.d.rd p F.SF_PREG_SEL.PREG < 28 → Yields (.sfPregWrite p v) s (fun t =>
      t.d.preg p (s.d.rd p F.SF_PREG_SEL.PREG) = v.toNat ∧
      (∀ r, r < 28 → r ≠ s.d.rd p F.SF_PREG_SEL.PREG → t.d.preg p r = s.d.preg p r) ∧ OtherPages s.d t.d p ∧
      { t.d with regs := s.d.regs } = s.d)))

/-- R268, R269, R273, R291, R292: an MMA whose target check, shape and circuits allow it begins: it holds the issue stage with its
operands and the rows that it reads, a bank that was FREE is ACCUMULATING, and the PC moves on; one whose target is busy waits. An
MMA without ACC_IN on a FREE bank, and one with ACC_IN on a bank of its shape, pass the check. No bank, cell or scratchpad byte
changes.
R283, R284, R277, R298, R299: with the last row of its operands the MMA in the issue stage leaves its tile, in its bank or in the
cell registers, with the tile's dimensions and class; other engines and every memory stay.
R291, R274 to R276: an MMA with ACC_IN on a FREE bank halts the engine with BANK_SEQ, one with K above 128 P with BAD_SHAPE,
and one that lacks a circuit with NO_CIRCUIT; over a format pair that R157 does not give it halts with BAD_SHAPE too (the model's
choice, log entry 13). None of them touches a bank. -/
def Obligations.MmaRows : Prop :=
  (∀ (s : State) (p bits : Nat), s.d.clocked = true → s.d.meReady p 1 = true → s.d.guardOk (s.d.meInstr p) = true →
    (s.d.mmaCheck p = .proceed →
      (mmaRes (s.d.meInstr p) = true ∨ mmaK (s.d.meInstr p) ≤ 128 * panelWidth (cfgFmtA (s.d.me p).cfg)) →
      fmtPairOk (cfgFmtA (s.d.me p).cfg) (cfgFmtB (s.d.me p).cfg) = true →
      s.d.mmaCircuits p (s.d.mmaA p (s.d.meInstr p)) (s.d.mmaB p (s.d.meInstr p)) = true →
      (s.d.mmaA p (s.d.meInstr p)).rows ++ (s.d.mmaB p (s.d.meInstr p)).rows ≠ [] →
      Yields (.mma p bits) s (fun t =>
        (∃ o, (t.d.me p).op = some o ∧ o.instr = s.d.meInstr p ∧ o.pc = s.d.rd p F.ME_STAT.PC ∧ o.cfg = (s.d.me p).cfg ∧
          o.ctl = s.d.numctl p ∧ o.a = s.d.mmaA p (s.d.meInstr p) ∧ o.b = s.d.mmaB p (s.d.meInstr p) ∧ o.bits = bits ∧
          o.fetch.rows = (s.d.mmaA p (s.d.meInstr p)).rows ++ (s.d.mmaB p (s.d.meInstr p)).rows ∧ o.fetch.got = []) ∧
        (mmaRes (s.d.meInstr p) = false → t.d.rd p (bankFld (mmaBank (s.d.meInstr p))) = 1) ∧
        t.d.rd p F.ME_STAT.PC = (s.d.rd p F.ME_STAT.PC + 1) % 2 ^ 12 ∧
        (t.d.me p).bankA = (s.d.me p).bankA ∧ (t.d.me p).bankB = (s.d.me p).bankB ∧ (t.d.me p).cells = (s.d.me p).cells ∧
        (t.d.me p).shadow = (s.d.me p).shadow ∧ (t.d.me p).drains = (s.d.me p).drains ∧ (∀ q, q ≠ p → t.d.me q = s.d.me q) ∧
        OtherPages s.d t.d p ∧ t.d.spad = s.d.spad)) ∧
    (s.d.mmaCheck p = .stall → Yields (.mma p bits) s (fun t =>
      t.d.mes = s.d.mes ∧ t.d.rd p F.ME_STAT.PC = s.d.rd p F.ME_STAT.PC ∧
      t.d.rd p F.ME_BANK_CYC.COUNT = (s.d.rd p F.ME_BANK_CYC.COUNT + 1) % 2 ^ F.ME_BANK_CYC.COUNT.w ∧ t.d.spad = s.d.spad)) ∧
    (mmaRes (s.d.meInstr p) = false → s.d.rd p (bankFld (mmaBank (s.d.meInstr p))) = 0 → mmaAccIn (s.d.meInstr p) = false →
      s.d.mmaCheck p = .proceed) ∧
    (mmaRes (s.d.meInstr p) = false → (s.d.rd p (bankFld (mmaBank (s.d.meInstr p))) = 1 ∨
        s.d.rd p (bankFld (mmaBank (s.d.meInstr p))) = 2) →
      (s.d.me p).bankQueued (mmaBank (s.d.meInstr p)) = false → mmaAccIn (s.d.meInstr p) = true →
      ((s.d.me p).bank (mmaBank (s.d.meInstr p))).m = mmaM (s.d.meInstr p) →
      ((s.d.me p).bank (mmaBank (s.d.meInstr p))).n = mmaN (s.d.meInstr p) →
      ((s.d.me p).bank (mmaBank (s.d.meInstr p))).isInt = fmtIsInt (cfgFmtA (s.d.me p).cfg) → s.d.mmaCheck p = .proceed)) ∧
  (∀ (s : State) (circ p row : Nat) (c : Circuit) (bs : List Byte) (o : EngOp),
    s.d.clocked = true → s.d.circuit circ = some c → s.d.comingRow c = some (row, bs) → s.d.unitAt c.dstPos = some p →
    isEngine p = true → (s.d.me p).op = some o → o.fetch.lacksOnly ⟨c.dstPort, row⟩ = true → opcodeOf o.instr = 1 → o.bits ≤ 1 →
    Yields (.flitArrive circ) s (fun t =>
      (t.d.me p).op = none ∧
      (mmaRes o.instr = false → (t.d.me p).bank (mmaBank o.instr) =
          { m := mmaM o.instr, n := mmaN o.instr, isInt := fmtIsInt (cfgFmtA o.cfg), aEnt := cfgAEnt o.cfg, bEnt := cfgBEnt o.cfg,
            words := tileWords (mmaTile { o with fetch := o.fetch.add ⟨c.dstPort, row⟩ bs } ((s.d.me p).bank (mmaBank o.instr))) } ∧
        (t.d.me p).bank (!mmaBank o.instr) = (s.d.me p).bank (!mmaBank o.instr) ∧ (t.d.me p).cells = (s.d.me p).cells) ∧
      (mmaRes o.instr = true → (t.d.me p).cells =
          { m := mmaM o.instr, n := mmaN o.instr, isInt := fmtIsInt (cfgFmtA o.cfg), aEnt := cfgAEnt o.cfg, bEnt := cfgBEnt o.cfg,
            words := tileWords (mmaTile { o with fetch := o.fetch.add ⟨c.dstPort, row⟩ bs } (s.d.me p).cells) } ∧
        (t.d.me p).moving = !mmaHold o.instr ∧ t.d.flag p F.ME_STAT.CELLS_HELD = true ∧
        (t.d.me p).bankA = (s.d.me p).bankA ∧ (t.d.me p).bankB = (s.d.me p).bankB) ∧
      (t.d.me p).drains = (s.d.me p).drains ∧ (∀ q, q ≠ p → t.d.me q = s.d.me q) ∧
      t.d.spad = s.d.spad ∧ t.d.near = s.d.near ∧ t.d.hostMem = s.d.hostMem)) ∧
  (∀ (s : State) (p amBits : Nat), s.d.clocked = true →
    s.d.meReady p 1 = true → s.d.guardOk (s.d.meInstr p) = true →
    (mmaRes (s.d.meInstr p) = false → s.d.rd p (bankFld (mmaBank (s.d.meInstr p))) = 0 → mmaAccIn (s.d.meInstr p) = true →
      Yields (.mma p amBits) s (fun t =>
        t.d.flag p F.ME_STAT.HALTED = true ∧ t.d.flag p F.ME_STAT.RUNNING = false ∧ t.d.rd p F.ME_FAULT.CAUSE = 1 ∧
        t.d.rd p F.ME_FAULT.INSTR = s.d.rd p F.ME_STAT.PC % 2 ^ 12 ∧ t.d.mes = s.d.mes ∧ t.d.spad = s.d.spad)) ∧
    (s.d.mmaCheck p = .proceed → ((mmaRes (s.d.meInstr p) = false ∧ 128 * panelWidth (cfgFmtA (s.d.me p).cfg) < mmaK (s.d.meInstr p)) ∨
        fmtPairOk (cfgFmtA (s.d.me p).cfg) (cfgFmtB (s.d.me p).cfg) = false) →
      Yields (.mma p amBits) s (fun t =>
        t.d.flag p F.ME_STAT.HALTED = true ∧ t.d.flag p F.ME_STAT.RUNNING = false ∧ t.d.rd p F.ME_FAULT.CAUSE = 2 ∧
        t.d.mes = s.d.mes ∧ t.d.spad = s.d.spad)) ∧
    (s.d.mmaCheck p = .proceed →
      (mmaRes (s.d.meInstr p) = true ∨ mmaK (s.d.meInstr p) ≤ 128 * panelWidth (cfgFmtA (s.d.me p).cfg)) →
      fmtPairOk (cfgFmtA (s.d.me p).cfg) (cfgFmtB (s.d.me p).cfg) = true →
      s.d.mmaCircuits p (s.d.mmaA p (s.d.meInstr p)) (s.d.mmaB p (s.d.meInstr p)) = false →
      Yields (.mma p amBits) s (fun t =>
        t.d.flag p F.ME_STAT.HALTED = true ∧ t.d.flag p F.ME_STAT.RUNNING = false ∧ t.d.rd p F.ME_FAULT.CAUSE = 3 ∧
        t.d.mes = s.d.mes ∧ t.d.spad = s.d.spad)))

/-- R290, R294, R299, R270, R301: a bank for which the adder trees hold no step any more becomes FULL; a waiting tile moves to the
EMPTY shadow registers; a DRAIN whose source check and circuits allow it enters the drain queue with the scale, NUMCTL and generator
of that moment, and starts to read its source once that is FULL: its flits join those of its out-port, in order.
R295, R296, R302, R307: the drain that reads its source, all of whose flits have left, completes: its source is FREE or EMPTY
again, and the queue moves up; while flits of it wait for credits it does not. -/
def Obligations.BanksAndDrains : Prop :=
  (∀ (s : State) (p : Nat), s.d.clocked = true →
    (∀ b, s.d.rd p (bankFld b) = 1 → (s.d.me p).opTargets b = false → Yields (.bankFull p b) s (fun t =>
      t.d.rd p (bankFld b) = 2 ∧ t.d.rd p (bankFld (!b)) = s.d.rd p (bankFld (!b)) ∧ OtherPages s.d t.d p ∧
      { t.d with regs := s.d.regs } = s.d)) ∧
    ((s.d.me p).moving = true → s.d.rd p F.ME_STAT.SHADOW = 0 → Yields (.shadowMove p) s (fun t =>
      (t.d.me p).shadow = (s.d.me p).cells ∧ (t.d.me p).cells = {} ∧ (t.d.me p).moving = false ∧
      t.d.rd p F.ME_STAT.SHADOW = 1 ∧ t.d.flag p F.ME_STAT.CELLS_HELD = false ∧ OtherPages s.d t.d p ∧ t.d.spad = s.d.spad)) ∧
    (s.d.meReady p 2 = true → s.d.guardOk (s.d.meInstr p) = true → s.d.drainCheck p = .proceed → (s.d.me p).drains.length < 2 →
      s.d.drainCircuits p (s.d.meInstr p) (effAddr (s.d.baseReg p (drDBase (s.d.meInstr p))) (drDOff (s.d.meInstr p)))
        (if drSrc (s.d.meInstr p) then (s.d.me p).shadow else (s.d.me p).bank (drBank (s.d.meInstr p))).m = true →
      Yields (.drain p) s (fun t =>
        (∃ q, (t.d.me p).drains = (s.d.me p).drains ++ [q] ∧ q.instr = s.d.meInstr p ∧ q.reading = false ∧
          q.pc = s.d.rd p F.ME_STAT.PC ∧ q.scaleY = s.d.amaxWord (drYEnt (s.d.meInstr p)) 0 % 2 ^ 32 ∧ q.gen = s.d.gen p ∧
          q.sat = (s.d.numctl p).sat) ∧
        t.d.rd p F.ME_STAT.PC = (s.d.rd p F.ME_STAT.PC + 1) % 2 ^ 12 ∧ OtherPages s.d t.d p ∧ t.d.spad = s.d.spad)) ∧
    (drSrc (s.d.meInstr p) = false → (s.d.rd p (bankFld (drBank (s.d.meInstr p))) = 1 ∨ s.d.rd p (bankFld (drBank (s.d.meInstr p))) = 2) →
      (s.d.me p).bankQueued (drBank (s.d.meInstr p)) = false → s.d.drainCheck p = .proceed) ∧
    (∀ q rest, (s.d.me p).drains = q :: rest → q.reading = false →
      s.d.rd p (if drSrc q.instr then F.ME_STAT.SHADOW else bankFld (drBank q.instr)) = (if drSrc q.instr then 1 else 2) →
      Yields (.drainStart p 0) s (fun t =>
        (t.d.me p).drains = { q with reading := true } :: rest ∧
        t.d.rd p (if drSrc q.instr then F.ME_STAT.SHADOW else bankFld (drBank q.instr)) = (if drSrc q.instr then 2 else 3) ∧
        (∀ c, s.d.drainCircuit p q.instr = some c →
          ((t.d.circ c.key).inFlight ++ (t.d.circ c.key).ready).map (fun f => (f.row, f.payload)) =
            ((s.d.circ c.key).inFlight ++ (s.d.circ c.key).ready ++ drainFlits q (s.d.drainSource p q)).map (fun f => (f.row, f.payload))) ∧
        OtherPages s.d t.d p ∧ t.d.spad = s.d.spad))) ∧
  (∀ (s : State) (p : Nat) (q : Drain) (rest : List Drain), s.d.clocked = true →
    kindOf p = some .me → (s.d.me p).drains = q :: rest → q.reading = true → (s.d.me p).ending = false →
    (s.d.drainSent p q.instr = true → Yields (.drainComplete p) s (fun t =>
      (t.d.me p).drains = rest ∧
      (drSrc q.instr = false → t.d.rd p (bankFld (drBank q.instr)) = 0 ∧ (t.d.me p).bank (drBank q.instr) = {}) ∧
      (drSrc q.instr = true → t.d.rd p F.ME_STAT.SHADOW = 0 ∧ (t.d.me p).shadow = {}) ∧
      t.d.rd p F.ME_STAT.PC = s.d.rd p F.ME_STAT.PC ∧ t.d.spad = s.d.spad ∧ t.d.near = s.d.near ∧ t.d.hostMem = s.d.hostMem)) ∧
    (s.d.drainSent p q.instr = false → Yields (.drainComplete p) s (fun t => t.d = s.d)))

/-- R259 to R262, R273, R291, R300: an LDW, and an LDA whose target check allows it, begin when the circuits of their rows exist:
they hold the issue stage with the rows that they read, an AM bank that an LDA targets is ACCUMULATING, and the PC moves on. With
the last of its rows an LDW leaves one panel of weight vectors in the double-buffer and an LDA its tile of words in its bank or in
the cell registers. No scratchpad byte changes. -/
def Obligations.EngineLoads : Prop :=
  (∀ (s : State) (p : Nat), s.d.clocked = true → s.d.guardOk (s.d.meInstr p) = true →
    (s.d.meReady p 4 = true →
      s.d.readable p ⟨1, effAddr (s.d.baseReg p (ldwBBase (s.d.meInstr p))) (ldwBOff (s.d.meInstr p)),
        regionRows (cfgFmtB (s.d.me p).cfg) (ldwN (s.d.meInstr p) * panelWidth (cfgFmtB (s.d.me p).cfg))⟩ = true →
      Yields (.ldw p 0) s (fun t =>
        (∃ o, (t.d.me p).op = some o ∧ o.instr = s.d.meInstr p ∧ o.cfg = (s.d.me p).cfg ∧ o.bits = 0 ∧ o.fetch.got = [] ∧
          o.a.base = effAddr (s.d.baseReg p (ldwBBase (s.d.meInstr p))) (ldwBOff (s.d.meInstr p)) ∧ o.a.cnt = ldwN (s.d.meInstr p) ∧
          o.fetch.rows = (Region.mk 1 (effAddr (s.d.baseReg p (ldwBBase (s.d.meInstr p))) (ldwBOff (s.d.meInstr p)))
            (regionRows (cfgFmtB (s.d.me p).cfg) (ldwN (s.d.meInstr p) * panelWidth (cfgFmtB (s.d.me p).cfg)))).keys) ∧
        t.d.rd p F.ME_STAT.PC = (s.d.rd p F.ME_STAT.PC + 1) % 2 ^ 12 ∧ (∀ q, q ≠ p → t.d.me q = s.d.me q) ∧ t.d.spad = s.d.spad)) ∧
    (s.d.meReady p 5 = true → s.d.ldaCheck p = .proceed →
      s.d.readable p ⟨4, effAddr (s.d.baseReg p (ldaSBase (s.d.meInstr p))) (ldaSOff (s.d.meInstr p)), ldaM (s.d.meInstr p)⟩ = true →
      Yields (.lda p) s (fun t =>
        (∃ o, (t.d.me p).op = some o ∧ o.instr = s.d.meInstr p ∧ o.cfg = (s.d.me p).cfg ∧ o.fetch.got = [] ∧
          o.a.base = effAddr (s.d.baseReg p (ldaSBase (s.d.meInstr p))) (ldaSOff (s.d.meInstr p)) ∧
          o.fetch.rows = (Region.mk 4 (effAddr (s.d.baseReg p (ldaSBase (s.d.meInstr p))) (ldaSOff (s.d.meInstr p)))
            (ldaM (s.d.meInstr p))).keys) ∧
        (ldaTgt (s.d.meInstr p) = false → t.d.rd p (bankFld (ldaBank (s.d.meInstr p))) = 1) ∧
        t.d.rd p F.ME_STAT.PC = (s.d.rd p F.ME_STAT.PC + 1) % 2 ^ 12 ∧ (∀ q, q ≠ p → t.d.me q = s.d.me q) ∧ t.d.spad = s.d.spad)) ∧
    (ldaTgt (s.d.meInstr p) = false → s.d.rd p (bankFld (ldaBank (s.d.meInstr p))) = 0 → s.d.ldaCheck p = .proceed) ∧
    (ldaTgt (s.d.meInstr p) = true → (s.d.me p).moving = false → s.d.flag p F.ME_STAT.CELLS_HELD = false → s.d.ldaCheck p = .proceed)) ∧
  (∀ (s : State) (circ p row : Nat) (c : Circuit) (bs : List Byte) (o : EngOp),
    s.d.clocked = true → s.d.circuit circ = some c → s.d.comingRow c = some (row, bs) → s.d.unitAt c.dstPos = some p →
    isEngine p = true → (s.d.me p).op = some o → o.fetch.lacksOnly ⟨c.dstPort, row⟩ = true →
    (opcodeOf o.instr = 4 → o.bits ≤ 1 → Yields (.flitArrive circ) s (fun t =>
      (t.d.me p).weight = some (o.a.base, o.a.cnt, o.fetch.rows.flatMap (o.fetch.add ⟨c.dstPort, row⟩ bs).bytes) ∧
      (t.d.me p).op = none ∧ (t.d.me p).bankA = (s.d.me p).bankA ∧ (t.d.me p).bankB = (s.d.me p).bankB ∧
      (∀ q, q ≠ p → t.d.me q = s.d.me q) ∧ t.d.spad = s.d.spad)) ∧
    (opcodeOf o.instr = 5 → Yields (.flitArrive circ) s (fun t =>
      (ldaTgt o.instr = false → ((t.d.me p).bank (ldaBank o.instr)).m = ldaM o.instr ∧ ((t.d.me p).bank (ldaBank o.instr)).n = ldaN o.instr ∧
        ((t.d.me p).bank (ldaBank o.instr)).isInt = ldaClass o.instr ∧
        (∀ j, j < ldaM o.instr * 128 → (Tbl.get zeroWord ((t.d.me p).bank (ldaBank o.instr)).words j).toNat =
          (o.fetch.add ⟨c.dstPort, row⟩ bs).elem 4 o.a.base 4 j)) ∧
      (ldaTgt o.instr = true → (t.d.me p).cells.m = ldaM o.instr ∧ (t.d.me p).cells.n = ldaN o.instr ∧
        (t.d.me p).cells.isInt = ldaClass o.instr ∧ t.d.flag p F.ME_STAT.CELLS_HELD = true) ∧
      (t.d.me p).op = none ∧ (∀ q, q ≠ p → t.d.me q = s.d.me q) ∧ t.d.spad = s.d.spad)))

/-! ### Special-function tiles (07) -/

/-- R541, R542, R546, R186: an SFOP whose guard is met begins: the program goes on, and the SFOP holds the issue stage with its NUMCTL
and parameter registers or has completed at once; no memory byte changes. One whose guard is not met waits. With the last row of
its in-ports an SFOP completes: it is counted, and one of an ordinary function sends the codes of its values. -/
def Obligations.SfopExecutes : Prop :=
  (∀ (s : State) (p : Nat), s.d.clocked = true → s.d.sfReady p 1 = true →
    (s.d.guardOk (s.d.sfInstr p) = true → sfFuncOk (sfFunc (s.d.sfInstr p)) = true →
      Yields (.sfop p) s (fun t =>
        t.d.rd p F.SF_STAT.PC = (s.d.rd p F.SF_STAT.PC + 1) % 2 ^ 12 ∧ t.d.flag p F.SF_STAT.GUARD_WAIT = false ∧
        ((∃ o, (t.d.sf p).op = some o ∧ o.instr = s.d.sfInstr p ∧ o.ctl = s.d.numctl p ∧ o.pregs = (List.range 32).map (s.d.preg p)) ∨
          ((t.d.sf p).op = none ∧
            t.d.rd p F.SF_INSTR_CNT.COUNT = (s.d.rd p F.SF_INSTR_CNT.COUNT + 1) % 2 ^ F.SF_INSTR_CNT.COUNT.w)) ∧
        t.d.spad = s.d.spad ∧ t.d.near = s.d.near ∧ t.d.hostMem = s.d.hostMem ∧ t.d.mes = s.d.mes ∧
        (∀ q, q ≠ p → t.d.sf q = s.d.sf q))) ∧
    (s.d.guardOk (s.d.sfInstr p) = false → Yields (.sfop p) s (fun t =>
      t.d.rd p F.SF_STAT.PC = s.d.rd p F.SF_STAT.PC ∧ t.d.flag p F.SF_STAT.GUARD_WAIT = true ∧ t.d.spad = s.d.spad ∧
      t.d.sfs = s.d.sfs ∧ OtherPages s.d t.d p))) ∧
  (∀ (s : State) (circ p row : Nat) (c : Circuit) (bs : List Byte) (o : SfOp),
    s.d.clocked = true → s.d.circuit circ = some c → c.kind = 1 → s.d.comingRow c = some (row, bs) → s.d.unitAt c.dstPos = some p →
    kindOf p = some .sf → (s.d.sf p).op = some o → o.fetch.lacksOnly ⟨c.dstPort, row⟩ = true → o.fetch.want = [] →
    (sfInputs o.instr).all (fun x => s.d.sfReads p x.1) = true →
    Yields (.flitArrive circ) s (fun t =>
      (t.d.sf p).op = none ∧
      t.d.rd p F.SF_INSTR_CNT.COUNT = (s.d.rd p F.SF_INSTR_CNT.COUNT + 1) % 2 ^ F.SF_INSTR_CNT.COUNT.w ∧
      t.d.spad = s.d.spad ∧ t.d.near = s.d.near ∧ t.d.hostMem = s.d.hostMem ∧ (∀ q, q ≠ p → t.d.sf q = s.d.sf q) ∧
      (∀ oc, isKernel (sfFunc o.instr) = false → sfFunc o.instr ≠ 0x28 → sfFmtI o.instr ≠ 12 →
        s.d.circFrom (posOf p) (sfOut o.instr) = some oc → oc.key ≠ c.key →
        ((t.d.circ oc.key).inFlight ++ (t.d.circ oc.key).ready).map (fun f => f.payload) =
          ((s.d.circ oc.key).inFlight ++ (s.d.circ oc.key).ready ++
            sfFlits (toScratchpad oc) (o.pregs.getD (24 + sfOut o.instr) 0 % 2 ^ 19) (sfFmtO o.instr)
              (sfPlainCodes { o with fetch := o.fetch.add ⟨c.dstPort, row⟩ bs })).map (fun f => f.payload))))

/-! ### Trestle (05) -/

/-- R346, R348, R384 to R387: a flit of the span's epoch that arrives, where no instruction or copy waits for it, joins the in-port's
queue, and a credit that arrives is used or held, so that credits, flits on links, queued flits and credits on the reverse lane keep
their sum. A flit that crosses the joint switch takes the epoch of the span that it enters. A flit of another epoch is discarded
and counted. -/
def Obligations.FlitsAndCredits : Prop :=
  ∀ (s : State) (k : Nat) (c : Circuit), s.d.clocked = true → s.d.circuit k = some c →
    (∀ f rest, (s.d.circ k).inFlight = f :: rest →
      (∀ p, s.d.unitAt c.dstPos = some p → (s.d.me p).op = none ∧ (s.d.sf p).op = none) → s.d.copies = [] →
      Yields (.flitArrive k) s (fun t =>
        (t.d.circ k).inFlight = rest ∧ t.d.spad = s.d.spad ∧ (∀ j, j ≠ k → t.d.circ j = s.d.circ j) ∧
        (posSpan c.srcPos = posSpan c.dstPos → f.epoch = s.d.epoch (posSpan c.dstPos) →
          (t.d.circ k).queue = (s.d.circ k).queue ++ [f] ∧ t.d.regs = s.d.regs) ∧
        (posSpan c.srcPos = posSpan c.dstPos → f.epoch ≠ s.d.epoch (posSpan c.dstPos) →
          (t.d.circ k).queue = (s.d.circ k).queue ∧
          t.d.rd (P.trestle (posSpan c.dstPos)) F.TR_STALE_CNT.COUNT =
            (s.d.rd (P.trestle (posSpan c.dstPos)) F.TR_STALE_CNT.COUNT + 1) % 2 ^ 32) ∧
        (posSpan c.srcPos ≠ posSpan c.dstPos → f.epoch = s.d.epoch (posSpan c.srcPos) → s.d.phase (posSpan c.dstPos) ≠ 3 →
          (t.d.circ k).queue = (s.d.circ k).queue ++ [{ f with epoch := s.d.epoch (posSpan c.dstPos) }] ∧ t.d.regs = s.d.regs) ∧
        (posSpan c.srcPos ≠ posSpan c.dstPos → f.epoch ≠ s.d.epoch (posSpan c.srcPos) →
          (t.d.circ k).queue = (s.d.circ k).queue ∧
          t.d.rd P.joints F.TR_STALE_CNT.COUNT = (s.d.rd P.joints F.TR_STALE_CNT.COUNT + 1) % 2 ^ 32))) ∧
    ((s.d.circ k).back ≠ 0 → c.kind ≠ 1 → Yields (.creditReturn k) s (fun t =>
      (t.d.circ k).back = (s.d.circ k).back - 1 ∧
      (t.d.circ k).credits + (t.d.circ k).inFlight.length + (t.d.circ k).queue.length + (t.d.circ k).back =
        (s.d.circ k).credits + (s.d.circ k).inFlight.length + (s.d.circ k).queue.length + (s.d.circ k).back ∧
      (t.d.circ k).queue = (s.d.circ k).queue ∧ (∀ j, j ≠ k → t.d.circ j = s.d.circ j) ∧ t.d.regs = s.d.regs ∧
      t.d.spad = s.d.spad)) ∧
    ((s.d.circ k).back = 0 → Yields (.creditReturn k) s (fun t => t.d = s.d))

/-- R356, R358, R359: a Tollgate with a token starts a grain whose first flit is present and whose output has room; the grain's last
flit moves from the input to the output, and its token retires.
R365, R366: a vector of a drain that has come whole to the I/O tile leaves its queue and is written; the last one ends the drain,
and its descriptor's address advances modulo 2^64. -/
def Obligations.TollgatesAndStreams : Prop :=
  (∀ (s : State) (io gate : Nat), s.d.clocked = true → kindOf io = some .io → gate < 16 →
    (∀ tok rest c f fs oc, (s.d.tg (io * 16 + gate)).op = 1 → (s.d.tg (io * 16 + gate)).stopped = false →
      (s.d.tg (io * 16 + gate)).tokens = tok :: rest → (s.d.tg (io * 16 + gate)).moving = none →
      s.d.pushInto (posOf io) (16 + 3 * gate) = some c → (s.d.circ c.key).queue = f :: fs →
      s.d.circFrom (posOf io) (16 + 2 * gate + bit tok) = some oc → (s.d.circ oc.key).ready.length < 4 →
      Yields (.grainStart io gate) s (fun t =>
        (t.d.tg (io * 16 + gate)).moving =
          some (16 + 3 * gate, some (16 + 2 * gate + bit tok), (s.d.tg (io * 16 + gate)).grain) ∧
        (t.d.tg (io * 16 + gate)).tokens = tok :: rest ∧ t.d.circs = s.d.circs ∧ t.d.regs = s.d.regs)) ∧
    (∀ inp out c f fs oc, (s.d.tg (io * 16 + gate)).moving = some (inp, some out, 1) →
      s.d.pushInto (posOf io) inp = some c → (s.d.circ c.key).queue = f :: fs →
      s.d.circFrom (posOf io) out = some oc → (s.d.circ oc.key).ready.length < 4 → oc.key ≠ c.key →
      (∀ tc, s.d.pushInto (posOf io) (18 + 3 * gate) = some tc → tc.key ≠ c.key) →
      Yields (.grainFlitMove io gate) s (fun t =>
        (t.d.tg (io * 16 + gate)).moving = none ∧ (t.d.tg (io * 16 + gate)).tokens = (s.d.tg (io * 16 + gate)).tokens.tail ∧
        (t.d.circ c.key).queue = fs ∧
        (t.d.circ oc.key).ready.length + (t.d.circ oc.key).inFlight.length =
          (s.d.circ oc.key).ready.length + (s.d.circ oc.key).inFlight.length + 1 ∧
        t.d.rdi io gate F.TG_GRAIN_CNT.COUNT =
          (s.d.rdi io gate F.TG_GRAIN_CNT.COUNT + 1) % 2 ^ F.TG_GRAIN_CNT.COUNT.w ∧
        t.d.spad = s.d.spad))) ∧
  (∀ (s : State) (io : Nat) (x : IoDrain) (c : Circuit) (fs : List Flit) (res : ReqOutcome) (ctl : List ReqOutcome),
    kindOf io = some .io → s.d.ioDrains = [x] → x.io = io → s.d.circuit x.circ = some c → s.d.vectorAtHead x.circ = some fs →
    (s.d.desc (io * 256 + x.desc)).loaded = true →
    (x.count ≤ x.done + 1 → Yields (.descriptorWrite io res ctl) s (fun t =>
      t.d.ioDrains = [] ∧ (t.d.circ x.circ).queue = (s.d.circ x.circ).queue.drop fs.length ∧
      (t.d.desc (io * 256 + x.desc)).addr =
        (((s.d.desc (io * 256 + x.desc)).addr + (s.d.desc (io * 256 + x.desc)).advance : Int) % 2 ^ 64).toNat ∧
      (t.d.desc (io * 256 + x.desc)).loaded = true)) ∧
    (x.done + 1 < x.count → Yields (.descriptorWrite io res ctl) s (fun t =>
      t.d.ioDrains = [{ x with done := x.done + 1 }] ∧ (t.d.circ x.circ).queue = (s.d.circ x.circ).queue.drop fs.length ∧
      t.d.descs = s.d.descs)))

/-- R374, R376, R377, R379, R381, R382: a load goes through seal, quiesce, flush, load and unseal: quiesce ends when the network is
quiet or reaches its limit; the flush leaves every queue and link of the network empty and every credit at its depth; the load makes
the image the loaded plan; the unseal advances every span's epoch by one, modulo 4, and ends the load.
R370 to R372, R409: a waiting port whose count has reached TR_WATCHDOG, and that has sent no message since its last progress,
sends one TR_STALL message of class DEFERRED with the port's place, and is recorded; one whose count is lower, or that has sent its
message, does nothing. A write of TR_WATCHDOG or TR_SEAL_TIMEOUT within its limits takes effect, any other sets ILLEGAL_WRITE. -/
def Obligations.PlanLoads : Prop :=
  (∀ (s : State) (l : LoadSt), s.d.load = some l →
    (l.phase = 0 → s.d.streamingIn = false → ∀ res, Yields (.loadPlan res) s (fun t =>
      t.d.load = some { l with phase := 1 } ∧ (∀ sp, sp < 8 → t.d.phase sp = 1) ∧ t.d.spad = s.d.spad)) ∧
    (l.phase = 1 → ∀ res, Yields (.loadPlan res) s (fun t =>
      t.d.load = some (if s.d.plan.isNone then { l with phase := 4 } else { l with phase := 2, quiesceAt := s.d.cclk }) ∧
      (∀ sp, sp < 8 → t.d.phase sp = if s.d.plan.isNone then 4 else 2) ∧ t.d.spad = s.d.spad)) ∧
    (l.phase = 2 → s.d.quiet allSpans = false → s.d.quiesceOver l.quiesceAt = false → ∀ res, Yields (.loadPlan res) s (fun t => t.d = s.d)) ∧
    (l.phase = 2 → s.d.quiet allSpans = true → ∀ res, Yields (.loadPlan res) s (fun t =>
      t.d.load = some { l with phase := 3 } ∧ (∀ sp, sp < 8 → t.d.phase sp = 3) ∧ t.d.spad = s.d.spad)) ∧
    (l.phase = 2 → s.d.quiesceOver l.quiesceAt = true → Yields .quiesceTimeout s (fun t =>
      t.d.load = some { l with phase := 3 } ∧ (∀ sp, sp < 8 → t.d.phase sp = 3) ∧ t.d.spad = s.d.spad)) ∧
    (l.phase = 2 → s.d.quiesceOver l.quiesceAt = false → Yields .quiesceTimeout s (fun t => t.d = s.d)) ∧
    (l.phase = 3 → ∀ res, Yields (.loadPlan res) s (fun t =>
      t.d.load = some { l with phase := 4 } ∧
      (∀ c ∈ s.d.circuits, posSpan c.srcPos < 8 → posSpan c.dstPos < 8 → (t.d.circ c.key).queue = [] ∧ (t.d.circ c.key).inFlight = [] ∧
        (t.d.circ c.key).ready = [] ∧ (t.d.circ c.key).credits = (s.d.circ c.key).depth) ∧ t.d.spad = s.d.spad)) ∧
    (∀ pl, l.phase = 4 → l.image = some pl → s.d.downBad pl = none → ∀ res, Yields (.loadPlan res) s (fun t =>
      t.d.load = some { l with phase := 5 } ∧ t.d.plan = some pl ∧ (∀ sp, sp < 8 → t.d.phase sp = 5) ∧ t.d.spad = s.d.spad)) ∧
    (l.phase = 5 → s.d.epochBusy allSpans = false → Yields .unseal s (fun t =>
      t.d.load = none ∧ (∀ sp, sp < 8 → t.d.epoch sp = (s.d.epoch sp + 1) % 4 ∧ t.d.phase sp = 0) ∧ t.d.spad = s.d.spad))) ∧
  (∀ (s : State),
    (∀ pos port out c, pos < 1024 → port < 64 → c.num < 4096 → s.d.waitingOn pos port out = some c →
      (s.d.rd (P.trestle (posSpan pos)) F.TR_WATCHDOG.LIMIT ≤ s.d.watchCount (portKey pos port out) →
        s.d.watch.told.contains (portKey pos port out) = false →
        Yields (.trStall pos port out) s (fun t =>
          t.d.outbox = s.d.outbox ++
            [⟨P.trestle (posSpan pos), K.TR_STALL, Cls.DEFERRED, pos + port * 2 ^ 10 + bit out * 2 ^ 16 + c.num * 2 ^ 20,
              s.now % 2 ^ 32, 0, none⟩] ∧
          t.d.watch.told.contains (portKey pos port out) = true ∧ t.d.rd (P.trestle (posSpan pos)) F.TR_STALL_LAST.POS = pos ∧
          OtherPages s.d t.d (P.trestle (posSpan pos)) ∧ t.d.circs = s.d.circs ∧ t.d.spad = s.d.spad)) ∧
      ((s.d.watchCount (portKey pos port out) < s.d.rd (P.trestle (posSpan pos)) F.TR_WATCHDOG.LIMIT ∨
          s.d.watch.told.contains (portKey pos port out) = true) →
        Yields (.trStall pos port out) s (fun t => t.d = s.d))) ∧
    (∀ span v, span < 8 → 2700 ≤ v → v < 2 ^ 24 →
      Yields (.trWatchdogWrite span false v) s (fun t =>
        t.d.rd (P.trestle span) F.TR_WATCHDOG.LIMIT = v ∧
        t.d.rd (P.trestle span) F.TR_SEAL_TIMEOUT.LIMIT = s.d.rd (P.trestle span) F.TR_SEAL_TIMEOUT.LIMIT ∧
        OtherPages s.d t.d (P.trestle span) ∧
        ((∀ k ∈ s.d.waitingPorts, s.d.watchCount k ≤ v) → { t.d with regs := s.d.regs } = s.d)) ∧
      Yields (.trWatchdogWrite span true v) s (fun t =>
        t.d.rd (P.trestle span) F.TR_SEAL_TIMEOUT.LIMIT = v ∧
        t.d.rd (P.trestle span) F.TR_WATCHDOG.LIMIT = s.d.rd (P.trestle span) F.TR_WATCHDOG.LIMIT ∧
        OtherPages s.d t.d (P.trestle span) ∧ { t.d with regs := s.d.regs } = s.d)) ∧
    (∀ span isSeal v, span < 8 → (v < 2700 ∨ 2 ^ 24 ≤ v) → Yields (.trWatchdogWrite span isSeal v) s (fun t =>
        t.d.rd (P.trestle span) F.TR_WATCHDOG.LIMIT = s.d.rd (P.trestle span) F.TR_WATCHDOG.LIMIT ∧
        t.d.rd (P.trestle span) F.TR_SEAL_TIMEOUT.LIMIT = s.d.rd (P.trestle span) F.TR_SEAL_TIMEOUT.LIMIT ∧
        t.d.flag (P.trestle span) F.UNIT_ERR.ILLEGAL_WRITE = true)))

/-! ### Span caches, windows and the near tier (06, 08) -/

/-- R470, R471, R475, R476, R587: where the stack's link does not retrain, a hit answers from the cache, a write leaves the sector dirty in the writer's cache and in no other, and
FLUSH and INVALIDATE leave no dirty sector, or none at all, and hold BUSY until the operation is done.
R580, R581: an invalidation drops the cached translations it covers and no other and holds BUSY; a second one while BUSY is
ignored with STATE_CMD; its end drops what was cached meanwhile of the page that it named and clears BUSY. -/
def Obligations.CachesAndTranslations : Prop :=
  (∀ (s : State) (span : Nat), span < 8 →
    (∀ addr x, s.d.clocked = true → s.d.flag P.hostIf F.HI_HDM_CTL.DB_EN = false → addr < s.d.stripedSize → s.d.keyRetrains addr = false →
      (s.d.cache span).find? (fun x => x.addr == addr / 512) = some x →
      Yields (.scRead span addr 0) s (fun t =>
        t.d.rdata = BitVec.ofNat 512 (natOfBytes (x.data.take 64)) ∧ t.d.caches = s.d.caches ∧ t.d.near = s.d.near ∧
        t.d.rd (P.spanCache span) F.SC_RD_CNT.COUNT =
          (s.d.rd (P.spanCache span) F.SC_RD_CNT.COUNT + 1) % 2 ^ F.SC_RD_CNT.COUNT.w ∧
        t.d.rd (P.spanCache span) F.SC_HIT_CNT.COUNT =
          (s.d.rd (P.spanCache span) F.SC_HIT_CNT.COUNT + 1) % 2 ^ F.SC_HIT_CNT.COUNT.w ∧
        OtherPages s.d t.d (P.spanCache span))) ∧
    (∀ addr data x, s.d.clocked = true → s.d.flag P.hostIf F.HI_HDM_CTL.DB_EN = false → addr + data.length ≤ s.d.stripedSize →
      s.d.keyRetrains addr = false →
      addr % 512 + data.length ≤ 512 → (s.d.cache span).find? (fun x => x.addr == addr / 512) = some x →
      Yields (.scWrite span addr data) s (fun t =>
        (t.d.cache span).find? (fun x => x.addr == addr / 512) =
          some { x with dirty := true, data := x.data.take (addr % 512) ++ data ++ x.data.drop (addr % 512 + data.length) } ∧
        (∀ j, j < 8 → j ≠ span → (t.d.cache j).find? (fun x => x.addr == addr / 512) = none) ∧ t.d.spad = s.d.spad)) ∧
    (s.d.flag (P.spanCache span) F.SC_CTL.BUSY = false →
      Yields (.scFlush span) s (fun t =>
        t.d.cache span = (s.d.cache span).map (fun x => { x with dirty := false }) ∧
        (∀ j, j ≠ span → t.d.cache j = s.d.cache j) ∧ t.d.flag (P.spanCache span) F.SC_CTL.BUSY = true ∧
        t.d.spad = s.d.spad) ∧
      Yields (.scInvalidate span) s (fun t =>
        t.d.cache span = [] ∧ (∀ j, j ≠ span → t.d.cache j = s.d.cache j) ∧
        t.d.flag (P.spanCache span) F.SC_CTL.BUSY = true ∧ t.d.spad = s.d.spad)) ∧
    (s.d.flag (P.spanCache span) F.SC_CTL.BUSY = true →
      Yields (.scFlush span) s (fun t => t.d.caches = s.d.caches ∧ t.d.near = s.d.near ∧
        t.d.flag (P.spanCache span) F.UNIT_ERR.STATE_CMD = true) ∧
      Yields (.scInvalidate span) s (fun t => t.d.caches = s.d.caches ∧ t.d.near = s.d.near ∧
        t.d.flag (P.spanCache span) F.UNIT_ERR.STATE_CMD = true)) ∧
    (s.d.clocked = true → Yields (.scOpDone span) s (fun t =>
      t.d.flag (P.spanCache span) F.SC_CTL.BUSY = false ∧ OtherPages s.d t.d (P.spanCache span) ∧ { t.d with regs := s.d.regs } = s.d))) ∧
  (∀ (s : State),
    (s.d.flag P.placement F.FT_PT_INV.BUSY = false →
      Yields .ftPtInvAll s (fun t => t.d.tcache = [] ∧ t.d.invPage = none ∧ t.d.flag P.placement F.FT_PT_INV.BUSY = true ∧
        OtherPages s.d t.d P.placement ∧ { t.d with regs := s.d.regs, tcache := s.d.tcache, invPage := s.d.invPage } = s.d) ∧
      (∀ page, page < 2 ^ 27 → Yields (.ftPtInvPage page) s (fun t =>
        t.d.tcache = s.d.tcache.filter (fun x => !tcCovers x page) ∧ t.d.invPage = some page ∧
        t.d.flag P.placement F.FT_PT_INV.BUSY = true ∧
        t.d.rd P.placement F.FT_PT_INV.ADDR = page ∧ OtherPages s.d t.d P.placement ∧
        { t.d with regs := s.d.regs, tcache := s.d.tcache, invPage := s.d.invPage } = s.d))) ∧
    (s.d.flag P.placement F.FT_PT_INV.BUSY = true →
      Yields .ftPtInvAll s (fun t => t.d.tcache = s.d.tcache ∧ t.d.invPage = s.d.invPage ∧
        t.d.flag P.placement F.UNIT_ERR.STATE_CMD = true) ∧
      (∀ page, Yields (.ftPtInvPage page) s (fun t =>
        t.d.tcache = s.d.tcache ∧ t.d.invPage = s.d.invPage ∧ t.d.flag P.placement F.UNIT_ERR.STATE_CMD = true)) ∧
      Yields .invalidationDone s (fun t =>
        t.d.flag P.placement F.FT_PT_INV.BUSY = false ∧
        (s.d.invPage = none → t.d.tcache = []) ∧
        (∀ page, s.d.invPage = some page → t.d.tcache = s.d.tcache.filter (fun x => !tcCovers x page)) ∧
        OtherPages s.d t.d P.placement ∧ { t.d with regs := s.d.regs, tcache := s.d.tcache } = s.d)))

/-- R451 to R453, R460: a closed window on rows opens with its byte count at zero when its range lies in the scratchpad rows with
its alignment, and stays closed with ILLEGAL_WRITE otherwise; an open one keeps its target, with STATE_CMD; closing one
keeps its base and size. -/
def Obligations.WindowsOpenAndClose : Prop :=
  ∀ (s : State) (v : Word) (w : Nat), s.d.rd P.kyWindows F.KY_WIN_SEL.WIN = w → w < 1024 →
    (s.d.rdi P.kyWindows w F.KY_WIN_CTL.OPEN = 0 → bitsOf v.toNat 1 1 = 0 →
      s.d.rdi P.kyWindows w F.KY_WIN_BASE.BASE + s.d.rdi P.kyWindows w F.KY_WIN_SIZE.BYTES / 512 ≤ 2 ^ 19 →
      s.d.rdi P.kyWindows w F.KY_WIN_BASE.BASE < 2 ^ 19 →
      s.d.rdi P.kyWindows w F.KY_WIN_SIZE.BYTES % 512 = 0 →
      ∀ ctl, Yields (.windowOpen v ctl) s (fun t =>
        t.d.rdi P.kyWindows w F.KY_WIN_CTL.OPEN = 1 ∧ t.d.rdi P.kyWindows w F.KY_WIN_CTL.TGT = 0 ∧
        t.d.rdi P.kyWindows w F.KY_WIN_CTL.SPAN = bitsOf v.toNat 8 3 ∧ t.d.rdi P.kyWindows w F.KY_WIN_BYTES.BYTES = 0 ∧
        (∀ j (f : Fld), j < 1024 → j ≠ w → f.off < 4096 → f.lo < 64 → t.d.rdi P.kyWindows j f = s.d.rdi P.kyWindows j f) ∧
        OtherPages s.d t.d P.kyWindows ∧ { t.d with regs := s.d.regs, env := s.d.env } = s.d)) ∧
    (s.d.rdi P.kyWindows w F.KY_WIN_CTL.OPEN = 0 → bitsOf v.toNat 1 1 = 0 →
      s.d.rdi P.kyWindows w F.KY_WIN_SIZE.BYTES % 512 ≠ 0 →
      ∀ ctl, Yields (.windowOpen v ctl) s (fun t =>
        t.d.rdi P.kyWindows w F.KY_WIN_CTL.OPEN = 0 ∧ t.d.flag P.kyWindows F.UNIT_ERR.ILLEGAL_WRITE = true)) ∧
    (s.d.rdi P.kyWindows w F.KY_WIN_CTL.OPEN = 1 →
      bitsOf v.toNat 1 1 ≠ s.d.rdi P.kyWindows w F.KY_WIN_CTL.TGT →
      ∀ ctl, Yields (.windowOpen v ctl) s (fun t =>
        t.d.rdi P.kyWindows w F.KY_WIN_CTL.TGT = s.d.rdi P.kyWindows w F.KY_WIN_CTL.TGT ∧
        t.d.rdi P.kyWindows w F.KY_WIN_CTL.OPEN = 1 ∧ t.d.flag P.kyWindows F.UNIT_ERR.STATE_CMD = true)) ∧
    (s.d.rdi P.kyWindows w F.KY_WIN_CTL.OPEN = 1 →
      bitsOf v.toNat 1 1 = s.d.rdi P.kyWindows w F.KY_WIN_CTL.TGT →
      bitsOf v.toNat 8 3 = s.d.rdi P.kyWindows w F.KY_WIN_CTL.SPAN →
      Yields (.windowClose v) s (fun t =>
        t.d.rdi P.kyWindows w F.KY_WIN_CTL.OPEN = 0 ∧
        t.d.rdi P.kyWindows w F.KY_WIN_BASE.BASE = s.d.rdi P.kyWindows w F.KY_WIN_BASE.BASE ∧
        t.d.rdi P.kyWindows w F.KY_WIN_SIZE.BYTES = s.d.rdi P.kyWindows w F.KY_WIN_SIZE.BYTES ∧
        t.d.rdi P.kyWindows w F.KY_WIN_BYTES.BYTES = s.d.rdi P.kyWindows w F.KY_WIN_BYTES.BYTES ∧
        OtherPages s.d t.d P.kyWindows ∧ { t.d with regs := s.d.regs } = s.d))

/-- R600, R604, R606: a base-die unit's read inside one valid code sector that no cache holds answers the sector's bytes and stores
nothing; its write of a whole code sector stores the bytes there and nowhere else, and the sector is valid. `d1` is the device
after the tries on the link (R587), `d2` after translation. -/
def Obligations.NearAccesses : Prop :=
  ∀ (s : State) (path : Nat) (a : Word) (crc : Nat) (d1 d2 : Dev) (tier ta sp e k off : Nat),
    s.d.clocked = true → (kindOf path).isSome = true → 0x8000 ≤ path → tier ≤ 1 → d2.flag P.hostIf F.HI_HDM_CTL.DB_EN = false →
    d2.nearPlace ta = some (k, off) → (∀ j, j < 8 → (d2.cache j).find? (fun x => x.addr == ta / 512) = none) →
    (∀ n, n ≠ 0 → n ≤ 64 → a.toNat % 512 + n ≤ 512 → ta % 128 + n ≤ 128 → d2.poisoned ta = false →
      s.d.clean.nearMay a.toNat n crc false = (true, d1) → d1.nearReq path a.toNat false = none →
      d1.translate (domOf path) a.toNat false false = (.to tier ta sp e, d2) →
      Yields (.nearRead path a n 0 crc 0) s (fun t =>
        t.d = { d2 with rdata := BitVec.ofNat 512 (natOfBytes (d2.stackBytes ta n)), env := {} })) ∧
    (∀ data : List Byte, data.length = 128 → a.toNat % 128 = 0 → ta % 128 = 0 →
      (∀ i, i < 128 → d2.nearPlace (ta + i) = some (k, off + i)) →
      s.d.clean.nearMay a.toNat 128 crc true = (true, d1) → d1.nearReq path a.toNat true = none →
      d1.translate (domOf path) a.toNat true false = (.to tier ta sp e, d2) →
      Yields (.nearWrite path a data 0 crc) s (fun t =>
        (∀ i, i < 128 → Tbl.get (nearDflt t.d.nearGen) t.d.near (byteKey k (off + i)) = data.getD i 0) ∧
        (∀ j, (j < byteKey k off ∨ byteKey k off + 128 ≤ j) →
          Tbl.get (nearDflt t.d.nearGen) t.d.near j = Tbl.get (nearDflt d2.nearGen) d2.near j) ∧
        t.d.poisoned ta = false ∧ t.d.regs = d2.regs ∧ t.d.spad = d2.spad))

/-- R635, R639, R665, R673, R676, R678: how an outstanding request ends: a unit's near access of 50 µs and a far one of FT_TIMEOUT fail
with a message of their kind, under STALL held, a far one under STALL being sent again while reissues are left; an answered far row of
a fill that waits enters the staging buffer; and a reply to a request that no longer waits, or that is past its lifetime, is late. -/
def Obligations.RequestsEnd : Prop :=
  ∀ (s : State) (id : Nat) (r : Req),
    (s.d.reqs.find? (fun r => r.id == id && !r.held && !r.timedOut && decide (r.tier ≤ 1)) = some r → r.sent + 50000 ≤ s.now →
      0x8000 ≤ r.path → r.kind = 6 →
      Yields (.nmTimeout id) s (fun t =>
        (r.abort = true → t.d.reqs = s.d.reqs.map (fun x => if x.id = r.id then { x with timedOut := true } else x) ∧
          t.d.outbox = s.d.outbox ++ [⟨r.path, K.NM_TIMEOUT, Cls.DEFERRED, r.addr % 2 ^ 48, s.now % 2 ^ 32, 0, none⟩]) ∧
        (r.abort = false → t.d.reqs = s.d.reqs.map (fun x => if x.id = r.id then { x with held := true } else x) ∧
          t.d.outbox = s.d.outbox ++ [⟨r.path, K.NM_TIMEOUT, Cls.CONTAINED, r.addr % 2 ^ 48, s.now % 2 ^ 32, 0, none⟩]) ∧
        t.d.near = s.d.near ∧ t.d.hostMem = s.d.hostMem)) ∧
    (s.d.farReq id = some r → r.sent + s.d.farLimit ≤ s.now → 0x8000 ≤ r.path → r.kind = 6 → r.timedOut = false → s.d.kill = none →
      Yields (.farTimeout id) s (fun t =>
        t.d.rd P.farPath F.FT_TIMEOUT_CNT.COUNT = (s.d.rd P.farPath F.FT_TIMEOUT_CNT.COUNT + 1) % 2 ^ F.FT_TIMEOUT_CNT.COUNT.w ∧
        (r.abort = true → t.d.reqs = s.d.reqs.map (fun x => if x.id = r.id then { x with timedOut := true } else x) ∧
          t.d.outbox = s.d.outbox ++ [⟨r.path, K.FT_TIMEOUT, Cls.DEFERRED, r.addr % 2 ^ 48, s.now % 2 ^ 32, 0, none⟩]) ∧
        (r.abort = false → r.reissues < s.d.rd P.farPath F.FT_CTL.REISSUE_MAX → s.d.farDown r.tier r.taddr = false →
          t.d.reqs = s.d.reqs.filter (fun x => x.id != r.id) ++
            [{ r with id := s.d.nextReq, sent := s.now, reissues := r.reissues + 1, epoch := 0 }] ∧
          t.d.outbox = s.d.outbox ∧ t.d.cxl = s.d.cxl ++ farForm r.tier r.taddr r.len r.write r.hcoh) ∧
        (r.abort = false → s.d.rd P.farPath F.FT_CTL.REISSUE_MAX ≤ r.reissues →
          t.d.reqs = s.d.reqs.map (fun x => if x.id = r.id then { x with held := true } else x) ∧
          t.d.outbox = s.d.outbox ++ [⟨r.path, K.FT_TIMEOUT, Cls.CONTAINED, r.addr % 2 ^ 48, s.now % 2 ^ 32, 0, none⟩]) ∧
        t.d.near = s.d.near ∧ t.d.hostMem = s.d.hostMem)) ∧
    (∀ f w, s.d.farReq id = some r → s.now < r.sent + s.d.farLimit → r.timedOut = false → r.kind = 0 → r.write = false →
      s.d.ideBad = [] → (∀ c ∈ s.d.copies, c.owner ≠ r.owner) → s.d.fills.find? (fun f => f.owner == r.owner) = some f →
      s.d.winDecl f.win = some w → f.writing = false →
      Yields (.farReply id .ok) s (fun t =>
        t.d.reqs = s.d.reqs.filter (fun x => x.id != r.id) ∧
        t.d.fills = s.d.fills.map (fun x => if x.owner = r.owner then { x with
          came := x.came + ((s.d.farBytes r.tier r.taddr r.len).length + 511) / 512
          staged := x.staged ++ [(r.dest - w.first, s.d.farBytes r.tier r.taddr r.len)] } else x) ∧
        t.d.rd P.farPath F.FT_RD_BYTES.COUNT = (s.d.rd P.farPath F.FT_RD_BYTES.COUNT + r.len) % 2 ^ F.FT_RD_BYTES.COUNT.w ∧
        t.d.hostMem = s.d.hostMem ∧ t.d.fabric = s.d.fabric ∧ t.d.near = s.d.near)) ∧
    ((s.d.farReq id = none ∧ id < s.d.nextReq ∨
        s.d.farReq id = some r ∧ s.d.ideBad = [] ∧ (r.timedOut = true ∨ r.sent + s.d.farLimit ≤ s.now)) →
      ∀ res, Yields (.farReply id res) s (fun t =>
        t.d.rd P.farPath F.FT_LATE_CNT.COUNT = (s.d.rd P.farPath F.FT_LATE_CNT.COUNT + 1) % 2 ^ F.FT_LATE_CNT.COUNT.w ∧
        OtherPages s.d t.d P.farPath ∧ { t.d with regs := s.d.regs, cyc := s.d.cyc } = s.d))

/-- R609 to R623, R587: a row is scrubbed once in an interval, unless its link retrains, and takes the pass number, which a new interval
advances; a new window clears the counts of corrected errors; a commanded retirement
waits for its stack; a migration takes the first free spare; its end remaps the granule to the spare and records the retirement.
R592, R593, R626 to R630, R637, R587, R18: a write of NM_CFG takes effect while no job, plan or scrub stands against it, without a share of more
than 45,952 granules, and is ignored with STATE_CMD otherwise; a whole-tier NM_SCRUB waits for streaming dockets, then ends OK; a probe reports its expander and a
second failure its loss; a retrained link serves its stack again. -/
def Obligations.NearUpkeep : Prop :=
  (∀ (s : State) (stack : Nat),
    (∀ row at_, s.d.clocked = true → s.d.present.contains stack = true → row + 1 < stackRows → s.d.retraining.contains stack = false →
      at_ = s.now / (s.d.rd P.nearMgr F.NM_SCRUB_PERIOD.HOURS * 3600000000000) →
      (at_ ≠ s.d.patrolAt ∨ s.d.patrolRows.contains (stack * 2 ^ 30 + row) = false →
        Yields (.patrolScrub stack row []) s (fun t =>
          t.d.rd P.nearMgr F.NM_SCRUB_PASS.PASS = (s.d.rd P.nearMgr F.NM_SCRUB_PASS.PASS +
            (if at_ = s.d.patrolAt then 0 else 1)) % 2 ^ F.NM_SCRUB_PASS.PASS.w ∧
          t.d.scrubEpoch stack row = t.d.rd P.nearMgr F.NM_SCRUB_PASS.PASS % 2 ^ 16 ∧ t.d.patrolAt = at_ ∧
          t.d.patrolRows.contains (stack * 2 ^ 30 + row) = true ∧ t.d.retireTag stack row = s.d.retireTag stack row ∧
          (∀ r, r < stackRows → r ≠ row → t.d.scrubEpoch stack r = s.d.scrubEpoch stack r) ∧ OtherPages s.d t.d P.nearMgr ∧
          t.d.near = s.d.near ∧ t.d.poison = s.d.poison ∧ t.d.outbox = s.d.outbox)) ∧
      (at_ = s.d.patrolAt → s.d.patrolRows.contains (stack * 2 ^ 30 + row) = true →
        Yields (.patrolScrub stack row []) s (fun t => t.d = s.d))) ∧
    Yields .retWindowStart s (fun t =>
      t.d.retWindow = s.now / (s.d.rd P.nearMgr F.NM_RET_CTL.WINDOW * 3600000000000) ∧
      (t.d.retWindow ≠ s.d.retWindow → t.d.ceCounts = []) ∧ (t.d.retWindow = s.d.retWindow → t.d.ceCounts = s.d.ceCounts) ∧
      t.d.regs = s.d.regs ∧ t.d.near = s.d.near) ∧
    (∀ r sp rest, s.d.clocked = true → stack < 32 → s.d.migrations.any (fun m => m.stack == stack) = false →
      s.d.retires.find? (fun r => r.stack == stack) = some r → s.d.freeSpares stack = sp :: rest →
      Yields (.migrationStart stack) s (fun t =>
        t.d.migrations = s.d.migrations ++ [⟨stack, r.granule, r.cause, sp, s.now⟩] ∧ t.d.retires = s.d.retires.erase r ∧
        t.d.flag (P.nmChannel stack) F.NM_CH_STAT.MIGRATING = true ∧ OtherPages s.d t.d (P.nmChannel stack) ∧
        t.d.near = s.d.near)) ∧
    (∀ m e, stack < 32 → s.d.migrations.find? (fun m => m.stack == stack) = some m → m.spare < 48 → m.granule < 46016 →
      e < 48 → (∀ i, i < 48 → (s.d.rdi (P.nmChannel stack) i F.NM_REMAP_DATA.VALID = 1 ↔ i < e)) →
      (∀ i, i < e → s.d.rdi (P.nmChannel stack) i F.NM_REMAP_DATA.GRANULE ≠ m.granule) →
      ∀ bad, Yields (.nmRetire stack bad) s (fun t =>
        t.d.remapOf stack m.granule = some (46032 + m.spare) ∧ t.d.migrations = s.d.migrations.erase m ∧
        t.d.flag (P.nmChannel stack) F.NM_CH_STAT.MIGRATING = false ∧
        t.d.flashRetired = s.d.flashRetired ++ [⟨stack, m.granule, m.spare, m.cause, s.now % 2 ^ 32⟩])) ∧
    (∀ g, s.d.present.contains stack = true → g < 46016 → s.d.retireKnown stack g = false →
      Yields (.nmRetGo g stack) s (fun t =>
        t.d.retires = s.d.retires ++ [⟨stack, g, 2⟩] ∧ OtherPages s.d t.d P.nearMgr ∧ t.d.near = s.d.near)) ∧
    (∀ g, (s.d.present.contains stack = false ∨ 46016 ≤ g ∨ (s.d.remapOf stack g).isSome = true) →
      Yields (.nmRetGo g stack) s (fun t =>
        t.d.retires = s.d.retires ∧ t.d.flag P.nearMgr F.UNIT_ERR.ILLEGAL_WRITE = true ∧ t.d.near = s.d.near))) ∧
  (∀ (s : State),
    (∀ v : Word, s.d.flag P.dkCtl F.DK_JOB_STAT.JOB_FREE = true → s.d.plan = none → s.d.nmScrub = none →
      s.d.flag P.hostIf F.HI_HDM_CTL.COMMITTED = false → bitsOf v.toNat 16 16 ≤ 45952 →
      Yields (.nmCfgWrite v) s (fun t =>
        t.d.rd P.nearMgr F.NM_CFG.ILV = bitsOf v.toNat 0 1 ∧ t.d.rd P.nearMgr F.NM_CFG.LOCAL_GRANULES = bitsOf v.toNat 16 16 ∧
        OtherPages s.d t.d P.nearMgr ∧ t.d.hostMem = s.d.hostMem ∧ t.d.spad = s.d.spad)) ∧
    (∀ v : Word, s.d.flag P.dkCtl F.DK_JOB_STAT.JOB_FREE = true → s.d.plan = none → s.d.nmScrub = none →
      bitsOf v.toNat 0 1 = s.d.rd P.nearMgr F.NM_CFG.ILV → 45952 < bitsOf v.toNat 16 16 →
      Yields (.nmCfgWrite v) s (fun t =>
        t.d.rd P.nearMgr F.NM_CFG.ILV = s.d.rd P.nearMgr F.NM_CFG.ILV ∧
        t.d.rd P.nearMgr F.NM_CFG.LOCAL_GRANULES = s.d.rd P.nearMgr F.NM_CFG.LOCAL_GRANULES ∧
        t.d.flag P.nearMgr F.UNIT_ERR.ILLEGAL_WRITE = true ∧ t.d.near = s.d.near ∧ t.d.caches = s.d.caches)) ∧
    (∀ v : Word, s.d.flag P.dkCtl F.DK_JOB_STAT.JOB_FREE = false →
      Yields (.nmCfgWrite v) s (fun t =>
        t.d.rd P.nearMgr F.NM_CFG.ILV = s.d.rd P.nearMgr F.NM_CFG.ILV ∧
        t.d.rd P.nearMgr F.NM_CFG.LOCAL_GRANULES = s.d.rd P.nearMgr F.NM_CFG.LOCAL_GRANULES ∧
        t.d.flag P.nearMgr F.UNIT_ERR.STATE_CMD = true ∧ t.d.near = s.d.near ∧ t.d.caches = s.d.caches)) ∧
    (∀ x, (∀ y ∈ (s.d.ring deviceRing).q, y.n = x.n → y = x) → s.d.nmScrub = none → s.d.nextDocket deviceRing = some x → x.opcode = 12 → s.d.kill = none → s.d.load = none →
      s.d.captureHeld = false → bitAt (x.field 0x10 1) 0 = false → reservedAt x nmScrubMask = [] → s.d.retraining = [] → ∀ ctl,
      (s.d.streamingIn = true → Yields (.nmScrub ctl) s (fun t =>
        t.d.nmScrub = some (deviceRing, x.n) ∧ t.d.flag P.nearMgr F.NM_ZERO_STAT.BUSY = true ∧
        t.d.rd P.nearMgr F.NM_ZERO_STAT.DONE = 0 ∧ t.d.near = s.d.near)) ∧
      (s.d.streamingIn = false → Yields (.nmScrub ctl) s (fun t =>
        t.d.nmScrub = none ∧ t.d.flag P.nearMgr F.NM_ZERO_STAT.BUSY = false ∧
        (∃ y det, t.d.docket deviceRing x.n = some y ∧ y.stage = .ended St.OK det) ∧
        t.d.hostMem = s.d.hostMem ∧ t.d.spad = s.d.spad))) ∧
    (∀ e ok, e < 16 → s.d.rdi P.farPath e F.FT_EXP_BASE.VALID = 1 → Yields (.expanderProbe e ok) s (fun t =>
      t.d.rdi P.farPath e F.FT_EXP_STAT.REACHABLE = bit ok ∧
      (ok = true → e ∉ t.d.expDown ∧ e ∉ t.d.probeFailed ∧ t.d.outbox = s.d.outbox) ∧
      (ok = false → e ∉ s.d.probeFailed → e ∈ t.d.probeFailed ∧ t.d.outbox = s.d.outbox) ∧
      (ok = false → e ∈ s.d.probeFailed → e ∉ s.d.expDown → e ∈ t.d.expDown ∧
        t.d.outbox = s.d.outbox ++ [⟨P.farPath, K.FT_EXP_DOWN, Cls.DEFERRED, 0, s.now % 2 ^ 32, 0, none⟩]) ∧
      OtherPages s.d t.d P.farPath)) ∧
    (∀ stack, Yields (.nmLinkRetrainDone stack) s (fun t =>
      stack ∉ t.d.retraining ∧ (∀ k ∈ s.d.retraining, k ≠ stack → k ∈ t.d.retraining) ∧
      (s.d.colls = [] → OtherPages s.d t.d P.clocks ∧ t.d.near = s.d.near))))

/-! ### Carter (08) -/

/-- R110, R659, R660, R661, R663, R1094: a STREAM, FETCH or OFFLOAD in its turn that nothing holds or refuses begins: a fill joins
those of its window; an OFFLOAD of rows is a copy that asks for each row over the plan's read circuit of the row's tile,
up to the first tile that none reaches; a copy from device addresses sends its reads. A refused one ends with the refusal's status and
DETAIL. No byte of a memory changes. -/
def Obligations.CarterCommandsBegin : Prop :=
  ∀ (s : State) (k : Nat) (x : Docket) (bad : Option (Nat × Nat)),
    s.d.nextDocket k = some x → s.d.kill = none → s.d.streamingHeld = false →
    refusal k x (argMask x) (s.d.caBad x (if k = deviceRing then none else some (ringSpan k))) = bad →
    (∀ w, x.opcode = 3 → bad = none → s.d.winDecl (caWin x) = some w →
      ∀ ctl, Yields (.stream k ctl) s (fun t =>
        t.d.fills = s.d.fills ++ [{ owner := .ring k x.n, win := w.num, restart := caRestart x, src := x.field 0x10 8, rows := caBytes x / 512 }] ∧
        StandsAt t.d k x.n .begun ∧ t.d.reqs = s.d.reqs ∧ t.d.regs = s.d.regs ∧ t.d.spad = s.d.spad ∧ t.d.near = s.d.near ∧
        t.d.hostMem = s.d.hostMem)) ∧
    (∀ w, x.opcode = 5 → caKind x = false → bad = none → s.d.winDecl (caWin x) = some w →
      ∀ ctl, Yields (.fetch k ctl) s (fun t =>
        t.d.fills = s.d.fills ++ [{ owner := .ring k x.n, win := w.num, restart := caRestart x, src := x.field 0x10 8, rows := caBytes x / 512 }] ∧
        StandsAt t.d k x.n .begun ∧ t.d.reqs = s.d.reqs ∧ t.d.regs = s.d.regs ∧ t.d.spad = s.d.spad ∧ t.d.near = s.d.near ∧
        t.d.hostMem = s.d.hostMem)) ∧
    (x.opcode = 4 → caKind x = false → bad = none → (∀ c ∈ s.d.copies, c.owner ≠ .ring k x.n) → ∀ ctl, Yields (.offload k ctl) s (fun t =>
      StandsAt t.d k x.n .begun ∧
      (∃ c ∈ t.d.copies, c.owner = .ring k x.n ∧ c.span = caSpan x ∧ c.fetch = false ∧
        c.obj = (if s.d.onCompress (x.field 0x10 8) then some (x.field 0x10 8, caBytes x) else none) ∧
        c.rows.map (fun y => (y.1, y.2.1)) =
          ((List.range (caBytes x / 512)).map (fun i => ((x.field 0x20 8 + i) % 2 ^ 19, x.field 0x10 8 + 512 * i))).takeWhile
            (fun y => (s.d.offloadCircuit (caSpan x) y.1).isSome) ∧
        c.stopped = decide (c.rows.length < caBytes x / 512)) ∧
      t.d.reqs = s.d.reqs ∧ t.d.fills = s.d.fills ∧ t.d.spad = s.d.spad ∧ t.d.near = s.d.near ∧ t.d.hostMem = s.d.hostMem)) ∧
    (∀ c src dst tier ta sp e, (c = .offload k ∧ x.opcode = 4 ∧ src = x.field 0x20 8 ∧ dst = x.field 0x10 8) ∨
        (c = .fetch k ∧ x.opcode = 5 ∧ src = x.field 0x10 8 ∧ dst = x.field 0x20 8) →
      caKind x = true → bad = none → caBytes x = 512 → s.d.onCompress src = false → s.d.onCompress dst = false →
      (s.d.clean.translate (domOf (P.carter (caSpan x))) src false true).1 = .to tier ta sp e → tier ≤ 1 → Yields c s (fun t =>
        StandsAt t.d k x.n .begun ∧
        t.d.copies = s.d.copies ++ [{ owner := .ring k x.n, span := caSpan x, fetch := decide (x.opcode = 5), obj := none }] ∧
        (∃ r, t.d.reqs = s.d.reqs ++ [r] ∧ r.path = P.carter (caSpan x) ∧ r.owner = .ring k x.n ∧ r.kind = 1 ∧ r.tier = tier ∧
          r.addr = src ∧ r.taddr = ta ∧ r.len = 512 ∧ r.write = false ∧ r.dest = dst ∧ r.sent = s.now) ∧
        t.d.fills = s.d.fills ∧ t.d.spad = s.d.spad ∧ t.d.near = s.d.near ∧ t.d.hostMem = s.d.hostMem)) ∧
    (∀ c st det ctl, (c = .stream k ctl ∧ x.opcode = 3) ∨ (c = .fetch k ctl ∧ x.opcode = 5) ∨ (c = .offload k ctl ∧ x.opcode = 4) →
      bad = some (st, det) → Yields c s (fun t =>
        StandsAt t.d k x.n (.ended st det) ∧ t.d.fills = s.d.fills ∧ t.d.copies = s.d.copies ∧ t.d.reqs = s.d.reqs ∧
        t.d.regs = s.d.regs ∧ t.d.spad = s.d.spad ∧ t.d.near = s.d.near ∧ t.d.hostMem = s.d.hostMem))

/-- R32, R375, R654, R655, R662: the oldest fill of a window begins writing when its readers let it and its span is not sealed, and
not before; once its rows are all written it
advances the window's delivery count by one, modulo 2^32, and its command completes with that count. -/
def Obligations.Fills : Prop :=
  ∀ (s : State) (w : Nat) (win : WinDecl) (f : Fill), s.d.clocked = true → s.d.winDecl w = some win → s.d.fillOf w = some f → win.span < 8 → w < 1024 →
    (f.writing = false → s.d.fillReady win f = true → s.d.isSealed win.span = false → Yields (.fillBegin w) s (fun t =>
      (∃ g, t.d.fillOf w = some g ∧ g.owner = f.owner ∧ g.writing = true ∧ g.rows = f.rows) ∧
      t.d.near = s.d.near ∧ t.d.hostMem = s.d.hostMem)) ∧
    (f.writing = false → (s.d.fillReady win f = false ∨ s.d.isSealed win.span = true) → ∀ ctl, Yields (.fillBegin w ctl) s (fun t => t.d = s.d.clean)) ∧
    (∀ k n, f.writing = true → f.stopped = false → f.failure = none → f.owner = .ring k n →
      (s.d.docket k n).isSome = true → s.d.ownerIdle f.owner = true → f.rows ≤ f.came →
      s.d.fillOnWay win.span win.first f.rows = false →
      Yields (.fillCounted w) s (fun t =>
        t.d.rdi (P.carter win.span) w F.CA_WIN_STAT.DELIV = (s.d.rdi (P.carter win.span) w F.CA_WIN_STAT.DELIV + 1) % 2 ^ 32 ∧
        t.d.rdi (P.carter win.span) w F.CA_WIN_STAT.FILLING = 0 ∧ t.d.fills = s.d.fills.erase f ∧
        StandsAt t.d k n (.ended St.OK ((s.d.rdi (P.carter win.span) w F.CA_WIN_STAT.DELIV + 1) % 2 ^ 32)) ∧
        OtherPages s.d t.d (P.carter win.span) ∧ t.d.spad = s.d.spad ∧ t.d.near = s.d.near))

/-- R20, R665, R667, R668, R683 to R687: at the end of a period a fixed lead, for a far source at most 8,192, takes effect with one log
entry, and no earlier, and the next period begins where it ended; a stall begins under the tier and cause of the span's oldest request
and is counted; one that reaches CA_STALL_LIMIT sends CA_STALL once. -/
def Obligations.LeadAndStalls : Prop :=
  ∀ (s : State) (span : Nat), span < 8 →
    (∀ need, (s.d.carter span).since + s.d.rd (P.carter span) F.CA_ADAPT_PERIOD.MICROS * 1000 ≤ s.now →
      s.d.rd (P.carter span) F.CA_LEAD_FIX.ROWS ≠ 0 → s.d.rd (P.carter span) F.CA_LEAD_FIX.ROWS < 2 ^ 17 →
      need = (if (s.d.carter span).tier = 0 then s.d.rd (P.carter span) F.CA_LEAD_FIX.ROWS
        else min (s.d.rd (P.carter span) F.CA_LEAD_FIX.ROWS) 8192) →
      need ≠ s.d.rd (P.carter span) F.CA_LEAD.ROWS →
      Yields (.leadAdapt span) s (fun t =>
        t.d.rd (P.carter span) F.CA_LEAD.ROWS = need ∧
        t.d.rdi (P.carter span) (s.d.rd (P.carter span) F.CA_ADJ_SEL.TOTAL % 64) F.CA_ADJ_DATA1.REASON = 2 ∧
        t.d.rd (P.carter span) F.CA_ADJ_SEL.TOTAL = (s.d.rd (P.carter span) F.CA_ADJ_SEL.TOTAL + 1) % 2 ^ 32 ∧
        (t.d.carter span).since = (s.d.carter span).since + s.d.rd (P.carter span) F.CA_ADAPT_PERIOD.MICROS * 1000 ∧
        OtherPages s.d t.d (P.carter span) ∧ t.d.spad = s.d.spad)) ∧
    (s.now < (s.d.carter span).since + s.d.rd (P.carter span) F.CA_ADAPT_PERIOD.MICROS * 1000 →
      Yields (.leadAdapt span) s (fun t => t.d = s.d)) ∧
    (∀ r cause, s.d.oldestReq span = some r → s.d.stalls.any (fun x => x.span == span) = false → s.d.stallHolds s.now span = true →
      (s.d.stallCause r = some cause ∨ s.d.stallCause r = none ∧ cause ∈ [0, 1, 3, 6]) → r.addr < 2 ^ 64 → estTier r.tier < 8 →
      Yields (.stallStart span (estTier r.tier) cause (BitVec.ofNat 64 r.addr)) s (fun t =>
        t.d.rdi (P.carter span) (estTier r.tier * 8 + cause) F.CA_STALL_EVT.COUNT =
          (s.d.rdi (P.carter span) (estTier r.tier * 8 + cause) F.CA_STALL_EVT.COUNT + 1) % 2 ^ 32 ∧
        t.d.stalls = s.d.stalls ++ [{ span := span, tier := estTier r.tier, cause := cause, addr := r.addr, since := s.now }] ∧
        OtherPages s.d t.d (P.carter span) ∧ t.d.reqs = s.d.reqs)) ∧
    (∀ tier cause x r, s.d.stalls.find? (fun x => x.span == span && x.tier == tier && x.cause == cause) = some x →
      x.reported = false → x.since + s.d.rd (P.carter span) F.CA_STALL_LIMIT.MICROS * 1000 ≤ s.now → s.d.oldestReq span = some r →
      Yields (.caStall span tier cause) s (fun t =>
        t.d.outbox = s.d.outbox ++ [⟨P.carter span, K.CA_STALL, Cls.DEFERRED, r.addr % 2 ^ 48, s.now % 2 ^ 32, (tier + cause * 4) % 2 ^ 19, none⟩] ∧
        t.d.stalls = s.d.stalls.map (fun y => if y.span = span then { y with reported := true } else y) ∧ t.d.regs = s.d.regs))

/-! ### Clerks (07) -/

/-- R494 to R499, R501, R528, R529, R676: the base instructions of a clerk: ADDI, BEQ, a store and a load in data memory, a load from a
device address, whose value is what the access answers and which waits while it is held, MRET, and ECALL, which
halts the clerk with its fault registers under TRAP_HALT and vectors to mtvec otherwise. The instruction set is RISC-V's. -/
def Obligations.ClerkInstructions : Prop :=
  ∀ (s : State) (p w : Nat) (acc : List AccessErr) (ctl : List ReqOutcome),
    s.d.clocked = true → s.d.clerkReady p = true → s.d.clerkHeld p = false → (s.d.clerk p).fetch = some (w, 4) →
    (w % 128 = 0x13 → funct3Of w = 0 → Yields (.clerkInstruction p acc ctl) s (fun t =>
      Retires (s.d.clerk p) (t.d.clerk p) (rdOf w) ((s.d.clerk p).rx (rs1Of w) + BitVec.ofNat 64 (immI w)) ∧
      (∀ q, q ≠ p → t.d.clerk q = s.d.clerk q) ∧ t.d.regs = s.d.regs ∧ t.d.spad = s.d.spad ∧ t.d.near = s.d.near)) ∧
    (w % 128 = 0x63 → funct3Of w = 0 → Yields (.clerkInstruction p acc ctl) s (fun t =>
      (t.d.clerk p).pc = (if (s.d.clerk p).rx (rs1Of w) = (s.d.clerk p).rx (rs2Of w) then (s.d.clerk p).pc + BitVec.ofNat 64 (immB w)
        else (s.d.clerk p).pc + 4) ∧
      (t.d.clerk p).x = (s.d.clerk p).x ∧ (t.d.clerk p).dtcm = (s.d.clerk p).dtcm ∧ t.d.regs = s.d.regs ∧ t.d.spad = s.d.spad)) ∧
    (∀ a, a = ((s.d.clerk p).rx (rs1Of w) + BitVec.ofNat 64 (immS w)).toNat → inDtcm a = true → a % 8 = 0 →
      w % 128 = 0x23 → funct3Of w = 3 → Yields (.clerkInstruction p acc ctl) s (fun t =>
        Tbl.getN zeroByte (t.d.clerk p).dtcm (a - 0x100000) 8 = bytesOfNat 8 ((s.d.clerk p).rx (rs2Of w)).toNat ∧
        (∀ b, (b < a - 0x100000 ∨ a - 0x100000 + 8 ≤ b) →
          Tbl.get zeroByte (t.d.clerk p).dtcm b = Tbl.get zeroByte (s.d.clerk p).dtcm b) ∧
        (t.d.clerk p).pc = (s.d.clerk p).pc + 4 ∧ (t.d.clerk p).x = (s.d.clerk p).x ∧ (t.d.clerk p).itcm = (s.d.clerk p).itcm ∧
        (t.d.clerk p).stage = (s.d.clerk p).stage ∧ t.d.regs = s.d.regs ∧ t.d.spad = s.d.spad)) ∧
    (∀ a, a = ((s.d.clerk p).rx (rs1Of w) + BitVec.ofNat 64 (immI w)).toNat → inDtcm a = true → a % 8 = 0 →
      w % 128 = 0x03 → funct3Of w = 3 → Yields (.clerkInstruction p acc ctl) s (fun t =>
        Retires (s.d.clerk p) (t.d.clerk p) (rdOf w)
          (BitVec.ofNat 64 (natOfBytes (Tbl.getN zeroByte (s.d.clerk p).dtcm (a - 0x100000) 8))) ∧
        t.d.regs = s.d.regs ∧ t.d.spad = s.d.spad)) ∧
    (∀ a r, a = ((s.d.clerk p).rx (rs1Of w) + BitVec.ofNat 64 (immI w)).toNat → inDevice a = true → a % 8 = 0 →
      w % 128 = 0x03 → funct3Of w = 3 →
      { s.d with env := { ctl := ctl, acc := acc } }.clerkAccess s.now p (a - 0x10000000000) 8 false (bytesOfNat 8 0) = r →
      (∀ bs, r.1 = some bs → Yields (.clerkInstruction p acc ctl) s (fun t =>
        Retires (r.2.clerk p) (t.d.clerk p) (rdOf w) (BitVec.ofNat 64 (natOfBytes bs)) ∧
        { t.d with clerks := r.2.clerks, env := r.2.env } = r.2)) ∧
      (r.1 = none → r.2.clerkHeld p = true → Yields (.clerkInstruction p acc ctl) s (fun t => t.d = r.2.clean))) ∧
    (w = 0x30200073 → Yields (.clerkInstruction p acc ctl) s (fun t =>
      (t.d.clerk p).pc = BitVec.ofNat 64 ((s.d.clerk p).rcsr 0x341) ∧
      bitAt ((t.d.clerk p).rcsr 0x300) 3 = bitAt ((s.d.clerk p).rcsr 0x300) 7 ∧ bitAt ((t.d.clerk p).rcsr 0x300) 7 = true ∧
      (t.d.clerk p).x = (s.d.clerk p).x ∧ t.d.regs = s.d.regs)) ∧
    (w = 0x00000073 → s.d.flag p F.GC_CTL.TRAP_HALT = false → Yields (.clerkInstruction p acc ctl) s (fun t =>
      (t.d.clerk p).pc = BitVec.ofNat 64 ((s.d.clerk p).rcsr 0x305 / 4 * 4) ∧ (t.d.clerk p).rcsr 0x341 = (s.d.clerk p).pc.toNat ∧
      (t.d.clerk p).rcsr 0x342 = 11 ∧ bitAt ((t.d.clerk p).rcsr 0x300) 3 = false ∧
      bitAt ((t.d.clerk p).rcsr 0x300) 7 = bitAt ((s.d.clerk p).rcsr 0x300) 3 ∧
      (t.d.clerk p).x = (s.d.clerk p).x ∧ t.d.flag p F.GC_STAT.RUNNING = true ∧ t.d.outbox = s.d.outbox)) ∧
    (w = 0x00000073 → s.d.flag p F.GC_CTL.TRAP_HALT = true → Yields (.clerkInstruction p acc ctl) s (fun t =>
      t.d.flag p F.GC_STAT.HALTED = true ∧ t.d.flag p F.GC_STAT.RUNNING = false ∧ t.d.flag p F.GC_FAULT.VALID = true ∧
      t.d.rd p F.GC_FAULT.CAUSE = 11 ∧ t.d.rd p F.GC_FAULT.PC = (s.d.clerk p).pc.toNat % 2 ^ 32 ∧ t.d.clerks = s.d.clerks))

/-- R511, R512, R527: TZ.LFADD, TZ.LFREAD and TZ.LFSET act on the counter of the span's Ledger that rs1 names and put what it
answers into rd; TZ.LFADD of 0 raises the Xtlz exception 2. -/
def Obligations.ClerkLedger : Prop :=
  ∀ (s : State) (p w c : Nat), s.d.clocked = true → c = ((s.d.clerk p).rx (rs1Of w)).toNat % 256 →
    (∀ n, n = ((s.d.clerk p).rx (rs2Of w)).toNat % 2 ^ 16 → s.d.tzAt p 3 = some w → n ≠ 0 →
      (s.d.lgValue (spanOf p) c < s.d.lgLimit (spanOf p) c → Yields (.tzLfadd p) s (fun t =>
        Retires (s.d.clerk p) (t.d.clerk p) (rdOf w) (BitVec.ofNat 64
          (min n (s.d.lgLimit (spanOf p) c - s.d.lgValue (spanOf p) c) * 2 ^ 32 + s.d.lgValue (spanOf p) c)) ∧
        t.d.lgValue (spanOf p) c =
          (s.d.lgValue (spanOf p) c + min n (s.d.lgLimit (spanOf p) c - s.d.lgValue (spanOf p) c)) % 2 ^ 32 ∧
        (∀ j, j < 256 → j ≠ c → t.d.lgValue (spanOf p) j = s.d.lgValue (spanOf p) j) ∧ t.d.spad = s.d.spad)) ∧
      (s.d.lgLimit (spanOf p) c ≤ s.d.lgValue (spanOf p) c → Yields (.tzLfadd p) s (fun t =>
        Retires (s.d.clerk p) (t.d.clerk p) (rdOf w) 0x8000000000000000 ∧
        t.d.lgValue (spanOf p) c = s.d.lgValue (spanOf p) c ∧ t.d.spad = s.d.spad))) ∧
    (s.d.tzAt p 3 = some w → ((s.d.clerk p).rx (rs2Of w)).toNat % 2 ^ 16 = 0 → s.d.flag p F.GC_CTL.TRAP_HALT = true →
      Yields (.tzLfadd p) s (fun t =>
        t.d.rd p F.GC_FAULT.CAUSE = 24 ∧ t.d.rd p F.GC_FAULT.XCODE = 2 ∧ t.d.flag p F.GC_STAT.HALTED = true ∧
        t.d.clerks = s.d.clerks ∧ t.d.lgValue (spanOf p) c = s.d.lgValue (spanOf p) c)) ∧
    (s.d.tzAt p 4 = some w → Yields (.tzLfread p) s (fun t =>
      Retires (s.d.clerk p) (t.d.clerk p) (rdOf w) (BitVec.ofNat 64 (s.d.lgValue (spanOf p) c + s.d.lgLimit (spanOf p) c * 2 ^ 32)) ∧
      t.d.lgValue (spanOf p) c = s.d.lgValue (spanOf p) c ∧ t.d.lgLimit (spanOf p) c = s.d.lgLimit (spanOf p) c ∧ t.d.spad = s.d.spad)) ∧
    (s.d.tzAt p 5 = some w → Yields (.tzLfset p) s (fun t =>
      Retires (s.d.clerk p) (t.d.clerk p) 0 0 ∧
      t.d.lgValue (spanOf p) c = ((s.d.clerk p).rx (rs2Of w)).toNat % 2 ^ 32 ∧
      t.d.lgLimit (spanOf p) c = ((s.d.clerk p).rx (rs2Of w)).toNat / 2 ^ 32 ∧
      t.d.lgStart (spanOf p) c = ((s.d.clerk p).rx (rs2Of w)).toNat % 2 ^ 32 ∧ t.d.spad = s.d.spad))

/-- R504 to R507, R510, R517: row moves. TZ.RLD and TZ.RST over a circuit of the plan add a move and go on, and over none raise the
Xtlz exception 1; a load that has its four flits puts the row into the slot of the row stage; TZ.RFENCE and TZ.EFENCE wait for
the moves they name and then go on. -/
def Obligations.ClerkRowMoves : Prop :=
  ∀ (s : State) (p w row slot : Nat), s.d.clocked = true → row = ((s.d.clerk p).rx (rs1Of w)).toNat % 2 ^ 19 →
    slot = ((s.d.clerk p).rx (rs2Of w)).toNat % 16 →
    (∀ r, s.d.tzAt p 0 = some w → s.d.rldCircuit p (funct7Of w) row = some r → (s.d.clerk p).mayMove slot = true →
      Yields (.tzRld p) s (fun t =>
        (t.d.clerk p).moves.map (fun m => (m.slot, m.row, m.store)) =
          (s.d.clerk p).moves.map (fun m => (m.slot, m.row, m.store)) ++ [(slot, row, false)] ∧
        (t.d.clerk p).pc = (s.d.clerk p).pc + 4 ∧ (t.d.clerk p).x = (s.d.clerk p).x ∧ (t.d.clerk p).stage = (s.d.clerk p).stage ∧
        t.d.regs = s.d.regs ∧ t.d.spad = s.d.spad)) ∧
    (∀ r, s.d.tzAt p 1 = some w → s.d.rstCircuit p (funct7Of w) row = some r → (s.d.clerk p).mayMove slot = true →
      Yields (.tzRst p) s (fun t =>
        (t.d.clerk p).moves = (s.d.clerk p).moves ++ [{ slot := slot, row := row, port := funct7Of w, store := true, circ := r.key }] ∧
        (t.d.circ r.key).ready.length + (t.d.circ r.key).inFlight.length =
          (s.d.circ r.key).ready.length + (s.d.circ r.key).inFlight.length + 4 ∧
        (t.d.clerk p).pc = (s.d.clerk p).pc + 4 ∧ (t.d.clerk p).x = (s.d.clerk p).x ∧ t.d.regs = s.d.regs ∧ t.d.spad = s.d.spad)) ∧
    (∀ c, s.d.flag p F.GC_CTL.TRAP_HALT = true →
      (c = .tzRld p ∧ s.d.tzAt p 0 = some w ∧ s.d.rldCircuit p (funct7Of w) row = none) ∨
      (c = .tzRst p ∧ s.d.tzAt p 1 = some w ∧ s.d.rstCircuit p (funct7Of w) row = none) →
      Yields c s (fun t => t.d.rd p F.GC_FAULT.CAUSE = 24 ∧ t.d.rd p F.GC_FAULT.XCODE = 1 ∧
        t.d.flag p F.GC_STAT.HALTED = true ∧ t.d.clerks = s.d.clerks ∧ t.d.circs = s.d.circs)) ∧
    (∀ m rest k, (s.d.clerk p).moves = m :: rest → m.store = false → m.sent = true → s.d.circuit m.circ = some k →
      4 ≤ (s.d.circ m.circ).queue.length → (((s.d.circ m.circ).queue.take 4).flatMap (·.payload)).length = 512 →
      Yields (.rowMoveDone p m.slot) s (fun t =>
        Tbl.getN zeroByte (t.d.clerk p).stage (512 * m.slot) 512 = ((s.d.circ m.circ).queue.take 4).flatMap (·.payload) ∧
        (t.d.clerk p).moves.map (·.slot) = rest.map (·.slot) ∧ (t.d.clerk p).x = (s.d.clerk p).x ∧
        (∀ b, (b < 512 * m.slot ∨ 512 * m.slot + 512 ≤ b) →
          Tbl.get zeroByte (t.d.clerk p).stage b = Tbl.get zeroByte (s.d.clerk p).stage b) ∧
        t.d.regs = s.d.regs ∧ t.d.spad = s.d.spad)) ∧
    (s.d.tzAt p 2 = some w →
      ((s.d.clerk p).moves.any (fun m => bitAt (rs2Of w) m.port) = false → Yields (.tzRfence p) s (fun t =>
        Retires (s.d.clerk p) (t.d.clerk p) 0 0 ∧ t.d.flag p F.GC_STAT.WAITING = false ∧ t.d.spad = s.d.spad)) ∧
      ((s.d.clerk p).moves.any (fun m => bitAt (rs2Of w) m.port) = true → Yields (.tzRfence p) s (fun t =>
        t.d.clerks = s.d.clerks ∧ t.d.flag p F.GC_STAT.WAITING = true ∧ OtherPages s.d t.d p ∧ t.d.spad = s.d.spad))) ∧
    (s.d.tzAt p 9 = some w →
      ((s.d.clerk p).moves = [] → Yields (.tzEfence p) s (fun t =>
        Retires (s.d.clerk p) (t.d.clerk p) (rdOf w)
          (BitVec.ofNat 64 (s.d.epoch (spanOf p) + (s.d.clerk p).discarded % 2 ^ 32 * 2 ^ 32)) ∧
        (t.d.clerk p).discarded = 0 ∧ t.d.spad = s.d.spad)) ∧
      ((s.d.clerk p).moves ≠ [] → Yields (.tzEfence p) s (fun t =>
        t.d.clerks = s.d.clerks ∧ t.d.flag p F.GC_STAT.WAITING = true ∧ OtherPages s.d t.d p ∧ t.d.spad = s.d.spad)))

/-- R513 to R515, R526, R537, R538: TZ.CWAIT answers 0 when its count is reached and waits otherwise, a timeout answers 1, TZ.DONE
idles the clerk, GO starts it at ENTRY with its registers at zero and is ignored while it runs, STOP idles it. -/
def Obligations.ClerkWaitsAndControl : Prop :=
  ∀ (s : State) (p w : Nat),
    (∀ kind idx v, kind = ((s.d.clerk p).rx (rs1Of w)).toNat % 4 → idx = bitsOf ((s.d.clerk p).rx (rs1Of w)).toNat 16 10 →
      v = ((s.d.clerk p).rx (rs2Of w)).toNat % 2 ^ 16 → s.d.tzAt p 6 = some w → (kind = 1 ∨ kind = 2) →
      s.d.clocked = true →
      (guardMet (s.d.guardCount kind idx) v = true → Yields (.tzCwait p) s (fun t =>
        Retires (s.d.clerk p) (t.d.clerk p) (rdOf w) 0 ∧ (t.d.clerk p).cwait = none ∧ t.d.flag p F.GC_STAT.WAITING = false ∧
        t.d.spad = s.d.spad)) ∧
      (guardMet (s.d.guardCount kind idx) v = false → Yields (.tzCwait p) s (fun t =>
        t.d.clerk p = { s.d.clerk p with
          cwait := some (kind, idx), cwaitAt := if (s.d.clerk p).cwait.isSome then (s.d.clerk p).cwaitAt else s.d.cclk / 15 } ∧ t.d.flag p F.GC_STAT.WAITING = true ∧
        OtherPages s.d t.d p ∧ t.d.spad = s.d.spad)) ∧
      ((s.d.clerk p).cwait = some (kind, idx) → (s.d.clerk p).rcsr 0x7C0 ≠ 0 →
        (s.d.clerk p).cwaitAt + (s.d.clerk p).rcsr 0x7C0 ≤ s.d.cclk / 15 → guardMet (s.d.guardCount kind idx) v = false →
        Yields (.cwaitTimeout p) s (fun t =>
          Retires (s.d.clerk p) (t.d.clerk p) (rdOf w) 1 ∧ (t.d.clerk p).cwait = none ∧ t.d.flag p F.GC_STAT.WAITING = false ∧
          t.d.spad = s.d.spad))) ∧
    (s.d.tzAt p 10 = some w → s.d.clocked = true → Yields (.tzDone p) s (fun t =>
      t.d.flag p F.GC_STAT.RUNNING = false ∧ t.d.flag p F.GC_STAT.IDLE = true ∧ Retires (s.d.clerk p) (t.d.clerk p) 0 0 ∧
      (t.d.clerk p).part = none ∧
      (∀ q r, (s.d.clerk p).part = some q → t.d.run q.ring q.n = some r → p ∉ r.active) ∧ t.d.spad = s.d.spad)) ∧
    (kindOf p = some .clerk → s.d.flag p F.GC_STAT.RUNNING = false → s.d.on p = true → Yields (.gcGo p) s (fun t =>
      t.d.flag p F.GC_STAT.RUNNING = true ∧ t.d.flag p F.GC_STAT.IDLE = false ∧ t.d.flag p F.GC_STAT.HALTED = false ∧
      (t.d.clerk p).pc = BitVec.ofNat 64 (s.d.rd p F.GC_CTL.ENTRY) ∧ (∀ i, (t.d.clerk p).rx i = 0) ∧
      (t.d.clerk p).dtcm = (s.d.clerk p).dtcm ∧ (t.d.clerk p).csr = (s.d.clerk p).csr ∧ OtherPages s.d t.d p ∧
      t.d.spad = s.d.spad)) ∧
    (kindOf p = some .clerk → s.d.flag p F.GC_STAT.RUNNING = true → Yields (.gcGo p) s (fun t =>
      t.d.clerks = s.d.clerks ∧ t.d.flag p F.UNIT_ERR.STATE_CMD = true ∧ t.d.flag p F.GC_STAT.RUNNING = true)) ∧
    (kindOf p = some .clerk → Yields (.gcStop p) s (fun t =>
      t.d.flag p F.GC_STAT.RUNNING = false ∧ t.d.flag p F.GC_STAT.IDLE = true ∧ (t.d.clerk p).pc = (s.d.clerk p).pc ∧
      (t.d.clerk p).x = (s.d.clerk p).x ∧ OtherPages s.d t.d p ∧ t.d.spad = s.d.spad))

/-- R520 to R527: TZ.DPOST takes the lowest free entry of the span's queue and answers it, answers all ones when none is free, and
raises the Xtlz exception 4 outside a RUN_STEP; a posted NOP completes; TZ.DPOLL of an ended one answers its status with bit 63
and frees the entry, of another one answers 0. -/
def Obligations.SubDockets : Prop :=
  ∀ (s : State) (p w a : Nat), s.d.clocked = true → a = ((s.d.clerk p).rx (rs1Of w)).toNat →
    (∀ q bytes, s.d.tzAt p 7 = some w → (s.d.clerk p).part = some q → a % 64 = 0 → 0x100000 ≤ a → a + 64 ≤ 0x110000 →
      bytes = Tbl.getN zeroByte (s.d.clerk p).dtcm (a - 0x100000) 64 →
      subBad { n := 0, bytes := bytes, snap := [], stage := .fetched } = false →
      (∀ e, s.d.freeSub (spanOf p) = some e → Yields (.tzDpost p) s (fun t =>
        Retires (s.d.clerk p) (t.d.clerk p) (rdOf w) (BitVec.ofNat 64 e) ∧
        t.d.subs = s.d.subs ++ [{ span := spanOf p, entry := e, clerk := p, parent := q, bytes := bytes, stage := .fetched }] ∧
        OtherPages s.d t.d p ∧ t.d.spad = s.d.spad)) ∧
      (s.d.freeSub (spanOf p) = none → Yields (.tzDpost p) s (fun t =>
        Retires (s.d.clerk p) (t.d.clerk p) (rdOf w) (BitVec.allOnes 64) ∧ t.d.subs = s.d.subs ∧ OtherPages s.d t.d p))) ∧
    (s.d.tzAt p 7 = some w → (s.d.clerk p).part = none → s.d.flag p F.GC_CTL.TRAP_HALT = true → Yields (.tzDpost p) s (fun t =>
      t.d.rd p F.GC_FAULT.CAUSE = 24 ∧ t.d.rd p F.GC_FAULT.XCODE = 4 ∧ t.d.flag p F.GC_STAT.HALTED = true ∧ t.d.subs = s.d.subs)) ∧
    (∀ span e b, s.d.subs.find? (fun b => b.span == span && b.entry == e && b.stage == .fetched) = some b →
      s.d.subHeld b = false → b.docket.opcode = 0 → ∀ ctl, Yields (.subDocketBegin span e ctl) s (fun t =>
        (∀ y ∈ t.d.subs, y.span = span → y.entry = e → y.stage = .ended St.OK 0) ∧ t.d.subs.length = s.d.subs.length ∧
        t.d.regs = s.d.regs ∧ t.d.spad = s.d.spad)) ∧
    (∀ b, s.d.tzAt p 8 = some w → s.d.subs.find? (fun b => b.span == spanOf p && b.entry == a % 16 && b.clerk == p) = some b →
      (∀ st det, b.stage = .ended st det → Yields (.tzDpoll p) s (fun t =>
        Retires (s.d.clerk p) (t.d.clerk p) (rdOf w) (BitVec.ofNat 64 (2 ^ 63 + st)) ∧
        t.d.subs = s.d.subs.filter (fun x => !(x.span == spanOf p && x.entry == a % 16)) ∧ t.d.spad = s.d.spad)) ∧
      ((∀ st det, b.stage ≠ .ended st det) → Yields (.tzDpoll p) s (fun t =>
        Retires (s.d.clerk p) (t.d.clerk p) (rdOf w) 0 ∧ t.d.subs = s.d.subs ∧ t.d.spad = s.d.spad)))

/-! ### Docket rings (02) -/

/-- R105 to R109, R117, R118, R121: a doorbell within the ring announces its dockets, one beyond it sets DB_ERR and is ignored; a
fetch copies the 64 bytes of the next announced docket and advances HEAD, and with EXPECT_SEQ when its SEQ is the expected one;
another SEQ ends it with BAD_SEQ and stops the ring; RESTART starts a stopped ring, and is ignored with STATE_CMD on another. -/
def Obligations.DoorbellsAndFetches : Prop :=
  ∀ (s : State) (k : Nat), k < 33 →
    (∀ tail : W32, s.d.on (P.ring k) = true →
      ((tail.toNat + 2 ^ 32 - (s.d.ring k).tailN % 2 ^ 32) % 2 ^ 32 ≤ (s.d.ring k).headN + s.d.ringSize k - (s.d.ring k).tailN →
        Yields (.doorbell k tail) s (fun t =>
          (t.d.ring k).tailN = (s.d.ring k).tailN + (tail.toNat + 2 ^ 32 - (s.d.ring k).tailN % 2 ^ 32) % 2 ^ 32 ∧
          (t.d.ring k).tailN % 2 ^ 32 = tail.toNat ∧ (t.d.ring k).q = (s.d.ring k).q ∧
          (∀ j, j ≠ k → t.d.ring j = s.d.ring j) ∧ { t.d with rings := s.d.rings, cyc := s.d.cyc } = s.d)) ∧
      ((s.d.ring k).headN + s.d.ringSize k - (s.d.ring k).tailN < (tail.toNat + 2 ^ 32 - (s.d.ring k).tailN % 2 ^ 32) % 2 ^ 32 →
        Yields (.doorbell k tail) s (fun t =>
          t.d.rings = s.d.rings ∧ t.d.flag (P.ring k) F.DK_RING_STAT.DB_ERR = true ∧ OtherPages s.d t.d (P.ring k)))) ∧
    (∀ bs, s.d.clocked = true → s.d.mayFetch k = true → s.d.cplFull k = false → s.d.noService = false →
      (s.d.controlRead (s.d.ringSlot k (s.d.ring k).headN).1 (s.d.ringSlot k (s.d.ring k).headN).2 64 .ok).1 = .ok bs →
      (natOfBytes (bs.take 4) = s.d.rd (P.ring k) F.DK_RING_CTL.EXPECT_SEQ →
        Yields (.docketFetch k .ok 0) s (fun t =>
          (∃ x, (t.d.ring k).q = (s.d.ring k).q ++ [x] ∧ x.bytes = bs ∧ x.n = (s.d.ring k).headN ∧ x.stage = .fetched) ∧
          (t.d.ring k).headN = (s.d.ring k).headN + 1 ∧ (t.d.ring k).tailN = (s.d.ring k).tailN ∧
          t.d.rd (P.ring k) F.DK_RING_CTL.EXPECT_SEQ =
            (s.d.rd (P.ring k) F.DK_RING_CTL.EXPECT_SEQ + 1) % 2 ^ F.DK_RING_CTL.EXPECT_SEQ.w ∧
          OtherPages s.d t.d (P.ring k) ∧ { t.d with rings := s.d.rings, regs := s.d.regs } = s.d)) ∧
      (natOfBytes (bs.take 4) ≠ s.d.rd (P.ring k) F.DK_RING_CTL.EXPECT_SEQ →
        Yields (.docketFetch k .ok 0) s (fun t =>
          (∃ x, (t.d.ring k).q = (s.d.ring k).q ++ [x] ∧ x.stage = .ended St.BAD_SEQ (s.d.rd (P.ring k) F.DK_RING_CTL.EXPECT_SEQ)) ∧
          t.d.flag (P.ring k) F.DK_RING_STAT.SEQ_ERR = true ∧ t.d.flag (P.ring k) F.DK_RING_STAT.STOPPED = true ∧
          OtherPages s.d t.d (P.ring k) ∧ { t.d with rings := s.d.rings, regs := s.d.regs, cyc := s.d.cyc } = s.d))) ∧
    (s.d.flag (P.ring k) F.DK_RING_STAT.STOPPED = true → Yields (.restart k) s (fun t =>
      t.d.flag (P.ring k) F.DK_RING_STAT.STOPPED = false ∧ OtherPages s.d t.d (P.ring k) ∧ { t.d with regs := s.d.regs } = s.d)) ∧
    (s.d.flag (P.ring k) F.DK_RING_STAT.STOPPED = false → Yields (.restart k) s (fun t =>
      t.d.flag (P.ring k) F.DK_RING_STAT.STOPPED = false ∧ t.d.flag (P.ring k) F.UNIT_ERR.STATE_CMD = true ∧ t.d.rings = s.d.rings))

/-- R115, R121 to R123, R125, R134: the record of the oldest docket goes to its place of the completion ring with the phase of its
pass, the docket leaves the ring, and DK_LAST_DONE takes its SEQ when its status counts as done; a counted REDUCE's record latches its group
sums in DK_VTOTAL; the host's head is taken as
written. -/
def Obligations.CompletionRecords : Prop :=
  ∀ (s : State) (k : Nat), k < 33 →
    (∀ x rest st det, s.d.clocked = true → (s.d.ring k).q = x :: rest → x.stage = .ended st det → x.opcode ≠ 2 →
      s.d.hostUp = true → s.d.cplFull k = false →
      Yields (.completionWrite k) s (fun t =>
        t.d.hostBytes (s.d.rd (P.ring k) F.DK_CPL_BASE.BASE * 4096 +
            (s.d.ring k).recN % 2 ^ s.d.rd (P.ring k) F.DK_CPL_CFG.LOG2_SIZE * 32) 32 =
          recordBytes x.seq st (0x10 + k)
            (if (s.d.ring k).recN / 2 ^ s.d.rd (P.ring k) F.DK_CPL_CFG.LOG2_SIZE % 2 = 0 then 1 else 0) x.tag det s.now ∧
        (t.d.ring k).q = rest ∧ (t.d.ring k).recN = (s.d.ring k).recN + 1 ∧ (∀ j, j ≠ k → t.d.ring j = s.d.ring j) ∧
        (countsAsDone st = true → t.d.rd (P.ring k) F.DK_LAST_DONE.SEQ = x.seq % 2 ^ F.DK_LAST_DONE.SEQ.w) ∧
        (countsAsDone st = false → t.d.rd (P.ring k) F.DK_LAST_DONE.SEQ = s.d.rd (P.ring k) F.DK_LAST_DONE.SEQ) ∧
        (x.total = none → OtherPages s.d t.d (P.ring k)) ∧
        (∀ v a, x.total = some (v, a) →
          t.d.rd P.dkCtl F.DK_VTOTAL.VALID = v % 2 ^ F.DK_VTOTAL.VALID.w ∧
          t.d.rd P.dkCtl F.DK_VTOTAL.ATTEMPTED = a % 2 ^ F.DK_VTOTAL.ATTEMPTED.w ∧
          t.d.rd P.dkCtl F.DK_VTOTAL_STEP.STEP = s.d.rd P.dkCtl F.DK_STEP.STEP ∧
          t.d.flag P.dkCtl F.DK_VTOTAL_STEP.SET = true) ∧
        t.d.spad = s.d.spad ∧ t.d.near = s.d.near)) ∧
    (∀ head : W32, Yields (.cplHeadWrite k head) s (fun t =>
      t.d.rd (P.ring k) F.DK_CPL_HEAD.HEAD = head.toNat ∧ OtherPages s.d t.d (P.ring k) ∧ { t.d with regs := s.d.regs } = s.d))

/-- R110, R111, R139, R1093 to R1095: the ring's next docket begins: an opcode above 0x0C ends with BAD_OPCODE and one of the device
ring on another with BAD_RING; a NOP ends OK; a BARRIER ends OK once every docket that it names has its record and waits until
then. Nothing but the ring changes.
R135, R138, R374, R376, R377, R487: KILL begins in its turn; its network phases seal every span, wait until the fabric is quiet
or the quiesce has lasted its limit, flush, clear and unseal, and then every window is closed; phase 3 waits for outstanding requests; the last phase frees the job, leaves
every ring STOPPED and ends its docket OK. -/
def Obligations.DocketsAndKill : Prop :=
  (∀ (s : State) (k : Nat) (x : Docket), s.d.clocked = true → k < 33 → s.d.noService = false → s.d.nextDocket k = some x →
    (0x0C < x.opcode → ∀ ctl, Yields (.docketBegin k ctl) s (fun t =>
      StandsAt t.d k x.n (.ended St.BAD_OPCODE 0) ∧ { t.d with rings := s.d.rings, env := s.d.env } = s.d)) ∧
    (k ≠ 32 → deviceOnly x.opcode = true → s.d.opHeld x = false → ∀ ctl, Yields (.docketBegin k ctl) s (fun t =>
      StandsAt t.d k x.n (.ended St.BAD_RING 0) ∧ { t.d with rings := s.d.rings, env := s.d.env } = s.d)) ∧
    (∀ c ctl, c = .docketBegin k ctl ∨ c = .nop k → x.opcode = 0 → s.d.kill = none → reservedAt x (argMask x) = [] →
      Yields c s (fun t => StandsAt t.d k x.n (.ended St.OK 0) ∧ (∀ j, j ≠ k → t.d.ring j = s.d.ring j) ∧
        { t.d with rings := s.d.rings, env := s.d.env } = s.d)) ∧
    (∀ c ctl, c = .docketBegin k ctl ∨ c = .barrier k → x.opcode = 7 → s.d.kill = none → reservedAt x (argMask x) = [] →
      s.d.barrierOf k = none →
      (s.d.barrierMet x = true → Yields c s (fun t =>
        StandsAt t.d k x.n (.ended St.OK 0) ∧ { t.d with rings := s.d.rings, env := s.d.env } = s.d)) ∧
      (s.d.barrierMet x = false → Yields c s (fun t =>
        StandsAt t.d k x.n .begun ∧ { t.d with rings := s.d.rings, env := s.d.env } = s.d)))) ∧
  (∀ (s : State),
    (∀ x, s.d.kill = none → s.d.nextDocket deviceRing = some x → x.opcode = 10 → reservedAt x (argMask x) = [] →
      Yields .kill s (fun t => t.d.kill = some { ring := deviceRing, n := x.n, phase := 2 } ∧ t.d.snaps = [])) ∧
    (∀ x, s.d.kill = some x → x.phase = 2 →
      (x.net = 0 → Yields .kill s (fun t =>
        t.d.kill = some { x with net := 1 } ∧ (∀ sp, sp < 8 → t.d.phase sp = 1) ∧ t.d.circs = s.d.circs ∧ t.d.spad = s.d.spad)) ∧
      (x.net = 1 → Yields .kill s (fun t =>
        t.d.kill = some { x with net := 2, quiesceAt := s.d.cclk } ∧ (∀ sp, sp < 8 → t.d.phase sp = 2) ∧
        t.d.circs = s.d.circs ∧ t.d.spad = s.d.spad)) ∧
      (x.net = 2 → s.d.quiet allSpans = false → s.d.quiesceOver x.quiesceAt = false → Yields .kill s (fun t => t.d = s.d)) ∧
      (x.net = 2 → s.d.quiet allSpans = true ∨ s.d.quiesceOver x.quiesceAt = true → Yields .kill s (fun t =>
        t.d.kill = some { x with net := 3 } ∧ (∀ sp, sp < 8 → t.d.phase sp = 3) ∧ t.d.spad = s.d.spad)) ∧
      (x.net = 4 → Yields .kill s (fun t =>
        t.d.kill = some { x with net := 5 } ∧ t.d.plan = none ∧ t.d.circs = [] ∧ t.d.tgs = [] ∧ t.d.descs = [] ∧
        (∀ sp, sp < 8 → t.d.phase sp = 5) ∧ t.d.spad = s.d.spad)) ∧
      (x.net = 5 → s.d.epochBusy allSpans = false → Yields .kill s (fun t =>
        t.d.kill = some { x with phase := 3 } ∧ t.d.winWrites = [] ∧ t.d.spad = s.d.spad ∧
        (∀ w, w < 1024 → t.d.rdi P.kyWindows w F.KY_WIN_CTL.OPEN = 0) ∧
        (∀ sp, sp < 8 → t.d.phase sp = 0 ∧ t.d.epoch sp = (s.d.epoch sp + 1) % 4)))) ∧
    (∀ x, s.d.kill = some x → x.phase = 3 →
      (s.d.reqsOutstanding = true → Yields .kill s (fun t => t.d = s.d)) ∧
      (s.d.reqsOutstanding = false → Yields .kill s (fun t =>
        t.d.kill = some { x with phase := 4 } ∧ { t.d with kill := s.d.kill } = s.d))) ∧
    (∀ x, s.d.kill = some x → x.phase = 5 → (s.d.docket x.ring x.n).isSome = true → Yields .kill s (fun t =>
      t.d.kill = none ∧ t.d.flag P.dkCtl F.DK_JOB_STAT.JOB_FREE = true ∧ t.d.flag P.dkCtl F.DK_JOB_STAT.KILL_ACTIVE = false ∧
      (∀ k, k < 33 → t.d.flag (P.ring k) F.DK_RING_STAT.STOPPED = true) ∧
      StandsAt t.d x.ring x.n (.ended St.OK 0) ∧ t.d.spad = s.d.spad ∧ t.d.near = s.d.near)))

/-! ### Training steps (09) -/

/-- R688 to R694: a RUN_STEP in its turn begins over every unit of its mask with a program or an image, ends with NO_PLAN when no plan is loaded, and with
BAD_ARGS at its lowest bad offset; a unit that is ON and has ended its earlier parts starts its part at the entry that the docket
or the plan gives.
R531, R691 to R694: a unit's part starts. -/
def Obligations.RunSteps : Prop :=
  (∀ (s : State) (k : Nat) (x : Docket), s.d.nextDocket k = some x → x.opcode = 2 → s.d.kill = none → s.d.runHeld k x = false →
    (s.d.plan = none → Yields (.runStep k) s (fun t =>
      StandsAt t.d k x.n (.ended St.NO_PLAN 0) ∧ { t.d with rings := s.d.rings } = s.d)) ∧
    (∀ st det, s.d.plan ≠ none → badArgs (reservedAt x (fun _ => 0) ++ s.d.runBad k x) = some (st, det) →
      Yields (.runStep k) s (fun t => StandsAt t.d k x.n (.ended st det) ∧ { t.d with rings := s.d.rings } = s.d)) ∧
    (s.d.plan ≠ none → reservedAt x (fun _ => 0) ++ s.d.runBad k x = [] → rsEndStep x = false →
      s.d.runUnits (rsMask x) ≠ [] → s.d.run k x.n = none → Yields (.runStep k) s (fun t =>
        StandsAt t.d k x.n .begun ∧ t.d.between = false ∧
        { ring := k, n := x.n, waiting := s.d.runUnits (rsMask x), active := [] } ∈ t.d.runs ∧
        (∀ y ∈ s.d.runs, y ∈ t.d.runs) ∧ (∀ y ∈ t.d.runs, y ∈ s.d.runs ∨ (y.ring = k ∧ y.n = x.n)) ∧
        (s.d.cyc.begun = [] → t.d.runs = s.d.runs ++ [{ ring := k, n := x.n, waiting := s.d.runUnits (rsMask x), active := [] }]) ∧
        t.d.regs = s.d.regs ∧ t.d.spad = s.d.spad ∧ t.d.near = s.d.near))) ∧
  (∀ (s : State) (p : Nat) (r : RunEx) (x : Docket), s.d.clocked = true → s.d.nextRun p = some r → s.d.docket r.ring r.n = some x → s.d.on p = true →
    s.d.slices.any (fun y => y.path == p) = false →
    (kindOf p = some .clerk → Yields (.partStart p) s (fun t =>
      t.d.flag p F.GC_STAT.RUNNING = true ∧ (t.d.clerk p).pc = BitVec.ofNat 64 (s.d.rd p F.GC_CTL.ENTRY) ∧
      (t.d.clerk p).rx 10 = BitVec.ofNat 64 x.seq ∧ (t.d.clerk p).rx 11 = BitVec.ofNat 64 (rsMb x) ∧
      (t.d.clerk p).rx 12 = BitVec.ofNat 64 (0x10 + r.ring) ∧ (∀ i, i < 32 → (i < 10 ∨ 12 < i) → (t.d.clerk p).rx i = 0) ∧
      (t.d.clerk p).part = some ⟨r.ring, r.n, x.seq, rsMb x⟩ ∧ (∃ r', t.d.run r.ring r.n = some r' ∧ p ∈ r'.active ∧ p ∉ r'.waiting) ∧
      t.d.rings = s.d.rings ∧ t.d.spad = s.d.spad)) ∧
    (kindOf p = some .sf → Yields (.partStart p) s (fun t =>
      t.d.flag p F.SF_STAT.RUNNING = true ∧
      t.d.rd p F.SF_STAT.PC = (if rsSfStart x = 0xFFFF then s.d.rd p F.SF_CTL.ENTRY else rsSfStart x) % 2 ^ 12 ∧
      (t.d.sf p).part = some ⟨r.ring, r.n, x.seq, rsMb x⟩ ∧ (∃ r', t.d.run r.ring r.n = some r' ∧ p ∈ r'.active ∧ p ∉ r'.waiting) ∧
      t.d.rings = s.d.rings ∧ t.d.spad = s.d.spad)) ∧
    (kindOf p = some .me ∨ kindOf p = some .spare → Yields (.partStart p) s (fun t =>
      t.d.flag p F.ME_STAT.RUNNING = true ∧
      t.d.rd p F.ME_STAT.PC = (if rsMeStart x = 0xFFFF then s.d.rd p F.ME_CTL.ENTRY else rsMeStart x) % 2 ^ 12 ∧
      (t.d.me p).part = some ⟨r.ring, r.n, x.seq, rsMb x⟩ ∧ (t.d.me p).bankA = (s.d.me p).bankA ∧
      (t.d.me p).bankB = (s.d.me p).bankB ∧ (∃ r', t.d.run r.ring r.n = some r' ∧ p ∈ r'.active ∧ p ∉ r'.waiting) ∧
      t.d.rings = s.d.rings ∧ t.d.spad = s.d.spad)))

/-- R700, R704, R720 to R722: the record of an END_STEP run advances DK_STEP and empties the accumulation state; a write of DK_STEP or
CLEAR empties it too while no RUN_STEP and no counted REDUCE is in execution, and is ignored with STATE_CMD otherwise. -/
def Obligations.StepBoundaries : Prop :=
  ∀ (s : State),
    (∀ k x rest det, s.d.clocked = true → k < 33 → (s.d.ring k).q = x :: rest → x.opcode = 2 → x.stage = .ended St.OK det → rsEndStep x = true →
      rsCount x = false → s.d.flag P.dkCtl F.DK_ACC.UPD_POISON = false → s.d.rd P.dkCtl F.DK_VTOTAL.VALID ≠ 0 →
      s.d.hostUp = true → s.d.cplFull k = false → Yields (.completionWrite k) s (fun t =>
        t.d.rd P.dkCtl F.DK_STEP.STEP = (s.d.rd P.dkCtl F.DK_STEP.STEP + 1) % 2 ^ F.DK_STEP.STEP.w ∧
        t.d.rd P.dkCtl F.DK_ACC.MB_COUNT = 0 ∧ t.d.rd P.dkCtl F.DK_ACC.POISONED = 0 ∧ (∀ mb, mb < 4096 → t.d.mbCounted mb = false) ∧
        (∀ mb, mb < 4096 → t.d.mbPoisoned mb = false) ∧ t.d.boundaries = s.d.boundaries + 1 ∧ (t.d.ring k).q = rest ∧
        t.d.spad = s.d.spad ∧ t.d.near = s.d.near)) ∧
    (s.d.runExecuting = false → s.d.countedExecuting = false →
      (∀ step : W32, Yields (.dkStepWrite step) s (fun t =>
        t.d.rd P.dkCtl F.DK_STEP.STEP = step.toNat ∧ t.d.rd P.dkCtl F.DK_ACC.MB_COUNT = 0 ∧
        t.d.rd P.dkCtl F.DK_ACC.BROKEN = 0 ∧ (∀ mb, mb < 4096 → t.d.mbCounted mb = false) ∧ t.d.boundaries = s.d.boundaries ∧
        t.d.spad = s.d.spad ∧ t.d.near = s.d.near)) ∧
      Yields .clear s (fun t =>
        t.d.rd P.dkCtl F.DK_STEP.STEP = s.d.rd P.dkCtl F.DK_STEP.STEP ∧ t.d.rd P.dkCtl F.DK_ACC.MB_COUNT = 0 ∧
        t.d.rd P.dkCtl F.DK_ACC.BROKEN = 0 ∧ (∀ mb, mb < 4096 → t.d.mbCounted mb = false) ∧ t.d.spad = s.d.spad ∧ t.d.near = s.d.near)) ∧
    ((s.d.runExecuting = true ∨ s.d.countedExecuting = true) →
      (∀ step : W32, Yields (.dkStepWrite step) s (fun t =>
        t.d.rd P.dkCtl F.DK_STEP.STEP = s.d.rd P.dkCtl F.DK_STEP.STEP ∧
        t.d.rd P.dkCtl F.DK_ACC.MB_COUNT = s.d.rd P.dkCtl F.DK_ACC.MB_COUNT ∧ t.d.flag P.dkCtl F.UNIT_ERR.STATE_CMD = true ∧
        (∀ mb, mb < 4096 → t.d.mbCounted mb = s.d.mbCounted mb ∧ t.d.mbPoisoned mb = s.d.mbPoisoned mb) ∧
        OtherPages s.d t.d P.dkCtl ∧ t.d.spad = s.d.spad)) ∧
      Yields .clear s (fun t =>
        t.d.rd P.dkCtl F.DK_STEP.STEP = s.d.rd P.dkCtl F.DK_STEP.STEP ∧
        t.d.rd P.dkCtl F.DK_ACC.MB_COUNT = s.d.rd P.dkCtl F.DK_ACC.MB_COUNT ∧ t.d.flag P.dkCtl F.UNIT_ERR.STATE_CMD = true ∧
        (∀ mb, mb < 4096 → t.d.mbCounted mb = s.d.mbCounted mb ∧ t.d.mbPoisoned mb = s.d.mbPoisoned mb) ∧
        OtherPages s.d t.d P.dkCtl ∧ t.d.spad = s.d.spad))

/-! ### Kyino links (10) -/

/-- R732 to R735, R749 to R755, R734: the states of a link: training ends with HELLO sent on fresh credits, the partner's HELLO brings
the link UP, training that lasts 500 ms or that is tried again, a retrain that ends with four lanes or three within its 200 µs and
advertises the free space, fails and is tried again, or fails for good; a new device identity takes effect while no collective runs. -/
def Obligations.KyinoLinkStates : Prop :=
  ∀ (s : State) (p : Nat), p < 24 →
    (s.d.on (P.kyPort p) = true → s.d.link p = Link.TRAINING → (s.d.port p).trained = false →
      s.now ≤ (s.d.port p).since + 500000000 → Yields (.trainingDone p) s (fun t =>
      (t.d.port p).trained = true ∧ t.d.link p = Link.TRAINING ∧ t.d.credits p 2 = 4096 ∧ t.d.credits p 0 = 64 ∧
      (∃ f, t.d.wire = s.d.wire ++ [(p, s.d.onWire p 0 f)] ∧ f.op = Op.HELLO ∧ f.src = s.d.myId) ∧
      OtherPages s.d t.d (P.kyPort p) ∧ t.d.spad = s.d.spad)) ∧
    (s.d.link p = Link.TRAINING → (s.d.port p).trained = false → (s.d.port p).since + 500000000 ≤ s.now → (s.d.port p).everUp = true →
      Yields (.trainingTimeout p) s (fun t => t.d.link p = Link.DOWN ∧ t.d.outbox = s.d.outbox ∧ OtherPages s.d t.d (P.kyPort p))) ∧
    (s.d.on (P.kyPort p) = true → s.d.link p = Link.TRAINING → (s.d.port p).trained = false → (s.d.port p).since + 500000000 < s.now →
      Yields (.trainingDone p) s (fun t => t.d.link p = Link.DOWN ∧ t.d.wire = s.d.wire ∧ OtherPages s.d t.d (P.kyPort p))) ∧
    (s.d.link p = Link.TRAINING → (s.d.port p).trained = false → s.now < (s.d.port p).since + 500000000 →
      Yields (.trainingTimeout p) s (fun t => t.d = s.d)) ∧
    (s.d.on (P.kyPort p) = true → s.d.link p = Link.DOWN → (s.d.port p).since + 1000000000 ≤ s.now →
      Yields (.trainingRetry p) s (fun t => t.d.link p = Link.TRAINING ∧ (t.d.port p).trained = false ∧
        OtherPages s.d t.d (P.kyPort p) ∧ t.d.wire = s.d.wire)) ∧
    (∀ src, src < 2 ^ 17 → s.d.link p = Link.TRAINING → (s.d.port p).trained = true → Yields (.hello p src) s (fun t =>
      t.d.link p = Link.UP ∧ t.d.rd (P.kyPort p) F.KY_PORT_STAT.PARTNER = src ∧ t.d.rd (P.kyPort p) F.KY_PORT_STAT.LANES = 4 ∧
      (t.d.port p).everUp = true ∧ t.d.spad = s.d.spad)) ∧
    (∀ lseq free, s.d.link p = Link.RETRAIN → s.now ≤ (s.d.port p).since + 200000 → (s.d.port p).replay = [] → (s.d.port p).sendq = [] →
      (s.d.routedPort p = false → Yields (.kyRetrain p lseq free) s (fun t =>
        t.d.link p = Link.UP ∧ t.d.rd (P.kyPort p) F.KY_PORT_STAT.LANES = 4 ∧
        (∀ vc, vc < 4 → t.d.credits p vc = free.getD vc 0 % 2 ^ 16) ∧
        t.d.wire = s.d.wire ++ [(p, .advert (s.d.port p).rxSeq ((List.range 4).map (fun vc => vcDepth vc - s.d.occ p vc)))] ∧
        t.d.spad = s.d.spad)) ∧
      (s.d.routedPort p = true → Yields (.kyRetrain p lseq free) s (fun t =>
        t.d.link p = Link.UP ∧ t.d.rd (P.kyPort p) F.KY_PORT_STAT.LANES = 4 ∧ t.d.wire = s.d.wire ∧ t.d.spad = s.d.spad)) ∧
      (∀ lane, lane < 4 → s.d.routedPort p = false → Yields (.kyLaneSpare p lane lseq free) s (fun t =>
        t.d.link p = Link.UP ∧ t.d.rd (P.kyPort p) F.KY_PORT_STAT.LANES = 3 ∧
        t.d.rd (P.kyPort p) F.KY_PORT_STAT.LANE_USED = 15 - 2 ^ lane ∧
        (∀ vc, vc < 4 → t.d.credits p vc = free.getD vc 0 % 2 ^ 16) ∧
        t.d.wire = s.d.wire ++ [(p, .advert (s.d.port p).rxSeq ((List.range 4).map (fun vc => vcDepth vc - s.d.occ p vc)))] ∧
        t.d.spad = s.d.spad))) ∧
    (∀ c lane lseq free, lane < 4 → c = .kyRetrain p lseq free ∨ c = .kyLaneSpare p lane lseq free → s.d.link p = Link.RETRAIN →
      (s.d.port p).since + 200000 < s.now → (s.d.port p).attempts < s.d.rd (P.kyPort p) F.KY_PORT_CTL.RETRAIN_MAX →
      Yields c s (fun t => t.d.link p = Link.RETRAIN ∧ (t.d.port p).attempts = (s.d.port p).attempts + 1 ∧ t.d.wire = s.d.wire ∧
        OtherPages s.d t.d (P.kyPort p))) ∧
    (s.d.link p = Link.RETRAIN → (s.d.port p).attempts < s.d.rd (P.kyPort p) F.KY_PORT_CTL.RETRAIN_MAX →
      Yields (.retrainTimeout p) s (fun t => t.d.link p = Link.RETRAIN ∧ (t.d.port p).attempts = (s.d.port p).attempts + 1 ∧
        (t.d.port p).replay = (s.d.port p).replay ∧ OtherPages s.d t.d (P.kyPort p))) ∧
    (s.d.link p = Link.RETRAIN → s.d.rd (P.kyPort p) F.KY_PORT_CTL.RETRAIN_MAX ≤ (s.d.port p).attempts → s.d.colls = [] →
      Yields (.retrainTimeout p) s (fun t => t.d.link p = Link.DOWN ∧ (t.d.port p).replay = [] ∧
        t.d.outbox = s.d.outbox ++ [⟨P.kyPort p, K.KY_LINK_DOWN, Cls.DEFERRED, 0, s.now % 2 ^ 32, 0, none⟩])) ∧
    (∀ id, s.d.colls = [] → Yields (.kyDevIdWrite id) s (fun t => t.d.myId = id % 2 ^ 17 ∧ t.d.spad = s.d.spad)) ∧
    (∀ id, s.d.colls ≠ [] → Yields (.kyDevIdWrite id) s (fun t =>
      t.d.myId = s.d.myId ∧ t.d.flag P.kyino F.UNIT_ERR.STATE_CMD = true ∧ t.d.wire = s.d.wire))

/-- R738, R742, R744 to R748, R758, R765: a frame with the expected LSEQ and the CRC of its bytes is accepted and charged to its VC's buffer, any other
answered with a NAK; an ACK drops what it covers, a NAK resends what follows its LSEQ and a replay timeout what is held, until a frame's
resends are used up, a CREDIT adds what was freed, a
report sends what is due; a port that starves reads SLOW and recovers once every VC that set it has; a routing entry keeps its bit 30 at zero.
R766 to R769: in routed mode a frame that finds no room in its VC's buffer is dropped, an accepted ESEQ advances the lowest missing one, an acknowledgement releases every frame before the
ESEQ it names and resends none that it does not show behind an accepted one, the receiver acknowledges every 256 frames, and
a connection without an acknowledgement for RTO_US resends what it holds. -/
def Obligations.KyinoFrames : Prop :=
  (∀ (s : State) (p : Nat), p < 24 →
    (∀ f, s.d.link p = Link.UP → s.d.routedPort p = false → f.dst = s.d.myId → frameOk f = true → s.d.quarantined f.src = false →
      Yields (.frameReceive p (s.d.port p).rxSeq (frameCrc false (s.d.port p).rxSeq f) f) s (fun t =>
        (t.d.port p).rxq = (s.d.port p).rxq ++ [f] ∧ (t.d.port p).rxSeq = ((s.d.port p).rxSeq + 1) % 2 ^ 16 ∧
        t.d.occ p (frameVc f) = (s.d.occ p (frameVc f) + frameCost f) % 2 ^ 16 ∧
        ((s.d.port p).unacked + 1 < 64 → t.d.wire = s.d.wire) ∧
        (64 ≤ (s.d.port p).unacked + 1 → t.d.wire = s.d.wire ++ [(p, .ack (s.d.port p).rxSeq)]) ∧
        OtherPages s.d t.d (P.kyPort p) ∧ t.d.spad = s.d.spad)) ∧
    (∀ f seq crc, s.d.link p = Link.UP → s.d.routedPort p = false → (crc ≠ frameCrc false seq f ∨ seq ≠ (s.d.port p).rxSeq) →
      Yields (.frameReceive p seq crc f) s (fun t =>
        t.d.wire = s.d.wire ++ [(p, .nak (((s.d.port p).rxSeq + 2 ^ 16 - 1) % 2 ^ 16))] ∧ { t.d with wire := s.d.wire } = s.d)) ∧
    (∀ lseq h rest, (s.d.port p).replay = h :: rest → h.seq = lseq → (s.d.port p).sendq = [] → Yields (.ack p lseq) s (fun t =>
      (t.d.port p).replay = rest ∧ (t.d.port p).ackAt = s.now ∧ t.d.wire = s.d.wire ∧ t.d.regs = s.d.regs)) ∧
    (∀ lseq hs, s.d.link p = Link.UP → s.d.routedPort p = false → hs = (s.d.port p).replay.filter (fun h => seqAfter h.seq lseq) →
      ((∀ h ∈ hs, h.resends < s.d.rd (P.kyPort p) F.KY_PORT_CTL.RETRY_LIMIT) → Yields (.nak p lseq) s (fun t =>
        t.d.wire = s.d.wire ++ hs.map (fun y => (p, s.d.onWire p y.seq y.f)) ∧
        (t.d.port p).replay = (s.d.port p).replay.map (fun y => if seqAfter y.seq lseq then { y with resends := y.resends + 1 } else y) ∧
        OtherPages s.d t.d (P.kyPort p) ∧ t.d.spad = s.d.spad)) ∧
      (∀ h ∈ hs, s.d.rd (P.kyPort p) F.KY_PORT_CTL.RETRY_LIMIT ≤ h.resends → Yields (.nak p lseq) s (fun t =>
        t.d.link p = Link.RETRAIN ∧ (t.d.port p).replay = (s.d.port p).replay ∧ t.d.wire = s.d.wire ∧ OtherPages s.d t.d (P.kyPort p)))) ∧
    (s.d.link p = Link.UP → s.d.routedPort p = false → (s.d.port p).ackAt + 5000 ≤ s.now →
      ((∀ h ∈ (s.d.port p).replay, h.resends < s.d.rd (P.kyPort p) F.KY_PORT_CTL.RETRY_LIMIT) → Yields (.replayTimeout p) s (fun t =>
        t.d.wire = s.d.wire ++ (s.d.port p).replay.map (fun y => (p, s.d.onWire p y.seq y.f)) ∧ t.d.link p = Link.UP ∧
        (t.d.port p).replay = (s.d.port p).replay.map (fun y => { y with resends := y.resends + 1 }) ∧
        OtherPages s.d t.d (P.kyPort p))) ∧
      (∀ h ∈ (s.d.port p).replay, s.d.rd (P.kyPort p) F.KY_PORT_CTL.RETRY_LIMIT ≤ h.resends → Yields (.replayTimeout p) s (fun t =>
        t.d.link p = Link.RETRAIN ∧ t.d.wire = s.d.wire ∧ OtherPages s.d t.d (P.kyPort p)))) ∧
    (∀ vc n, vc < 4 → s.d.link p = Link.UP → (s.d.port p).sendq = [] → (s.d.port p).seen.length = 4 → Yields (.credit p vc n) s (fun t =>
      t.d.credits p vc = (s.d.credits p vc + (n + 2 ^ 16 - (s.d.port p).seen.getD vc 0) % 2 ^ 16) % 2 ^ 16 ∧
      (t.d.port p).seen.getD vc 0 = n % 2 ^ 16 ∧ (∀ v, v < 4 → v ≠ vc → t.d.credits p v = s.d.credits p v) ∧ t.d.wire = s.d.wire ∧
      OtherPages s.d t.d (P.kyPort p))) ∧
    (s.d.link p = Link.UP → Yields (.creditReport p) s (fun t =>
      (t.d.port p).unacked = 0 ∧ (t.d.port p).reported = (s.d.port p).freed ∧
      (∀ vc, vc < 4 → (s.d.port p).freed.getD vc 0 ≠ (s.d.port p).reported.getD vc 0 →
        (p, .credit vc ((s.d.port p).freed.getD vc 0)) ∈ t.d.wire) ∧
      ((s.d.port p).unacked ≠ 0 → (p, .ack (((s.d.port p).rxSeq + 2 ^ 16 - 1) % 2 ^ 16)) ∈ t.d.wire) ∧ t.d.regs = s.d.regs)) ∧
    (∀ vc a, vc < 4 → (s.d.port p).short.getD vc none = some a →
      (s.d.flag (P.kyPort p) F.KY_PORT_STAT.SLOW = false → a + s.d.starveNs p ≤ s.now → Yields (.kySlow p vc) s (fun t =>
        t.d.flag (P.kyPort p) F.KY_PORT_STAT.SLOW = true ∧
        t.d.outbox = s.d.outbox ++ [⟨P.kyPort p, K.KY_SLOW, Cls.DEFERRED, 0, s.now % 2 ^ 32, 0, none⟩] ∧ OtherPages s.d t.d (P.kyPort p))) ∧
      (s.d.flag (P.kyPort p) F.KY_PORT_STAT.SLOW = true → a + s.d.starveNs p ≤ s.now → Yields (.kySlow p vc) s (fun t =>
        (t.d.port p).starved = (s.d.port p).starved.set vc true ∧ { t.d with ports := s.d.ports } = s.d)) ∧
      (s.now < a + s.d.starveNs p → Yields (.kySlow p vc) s (fun t => t.d = s.d))) ∧
    ((∀ vc, vc < 4 → (s.d.port p).starved.getD vc false = true →
        (s.d.port p).short.getD vc none = none ∧ (s.d.port p).lastShort.getD vc 0 + s.d.starveNs p ≤ s.now) →
      Yields (.slowClear p) s (fun t => t.d.flag (P.kyPort p) F.KY_PORT_STAT.SLOW = false ∧ OtherPages s.d t.d (P.kyPort p) ∧
        { t.d with regs := s.d.regs, ports := s.d.ports } = s.d)) ∧
    (∀ vc, vc < 4 → (s.d.port p).starved.getD vc false = true →
      ((s.d.port p).short.getD vc none ≠ none ∨ s.now < (s.d.port p).lastShort.getD vc 0 + s.d.starveNs p) →
      Yields (.slowClear p) s (fun t => t.d = s.d)) ∧
    (∀ v : Word, s.d.rd P.kyino F.KY_RT_INDEX.INDEX < 2 ^ 17 → Yields (.kyRtDataWrite v) s (fun t =>
      t.d.rtEntry (s.d.rd P.kyino F.KY_RT_INDEX.INDEX) = v.toNat % 2 ^ 30 + bit (bitAt v.toNat 31) * 2 ^ 31 ∧
      (∀ j, j < 2 ^ 17 → j ≠ s.d.rd P.kyino F.KY_RT_INDEX.INDEX → t.d.rtEntry j = s.d.rtEntry j) ∧
      OtherPages s.d t.d P.kyino ∧ { t.d with regs := s.d.regs } = s.d))) ∧
  (∀ (s : State) (dev vc : Nat), vc < 4 →
    (∀ p f, p < 24 → s.d.link p = Link.UP → s.d.routedPort p = true → f.dst = s.d.myId → f.src = dev → frameVc f = vc →
      frameOk f = true → s.d.quarantined dev = false → (s.d.e2e (dev * 4 + vc)).acc = [] → (s.d.e2e (dev * 4 + vc)).low < 2 ^ 32 →
      (vcDepth vc < s.d.occ p vc + frameCost f → ∀ seq crc, Yields (.frameReceive p seq crc f) s (fun t => t.d = s.d)) ∧
      (s.d.occ p vc + frameCost f ≤ vcDepth vc →
       Yields (.frameReceive p (s.d.e2e (dev * 4 + vc)).low (frameCrc true (s.d.e2e (dev * 4 + vc)).low f) f) s (fun t =>
        (t.d.port p).rxq = (s.d.port p).rxq ++ [f] ∧
        (t.d.e2e (dev * 4 + vc)).low = ((s.d.e2e (dev * 4 + vc)).low + 1) % 2 ^ 32 ∧
        (t.d.e2e (dev * 4 + vc)).since = (s.d.e2e (dev * 4 + vc)).since + 1 ∧ t.d.wire = s.d.wire ∧ t.d.spad = s.d.spad))) ∧
    (∀ low, (s.d.conn (dev * 4 + vc)).held ≠ [] → (s.d.port (s.d.conn (dev * 4 + vc)).port).sendq = [] →
      Yields (.selectiveAck dev vc low 0) s (fun t =>
        (t.d.conn (dev * 4 + vc)).held =
          (s.d.conn (dev * 4 + vc)).held.filter (fun h => decide ((h.seq + 2 ^ 32 - low) % 2 ^ 32 < 2 ^ 31)) ∧
        t.d.wire = s.d.wire ∧ t.d.regs = s.d.regs)) ∧
    (256 ≤ (s.d.e2e (dev * 4 + vc)).since → Yields (.selectiveAckSend dev vc) s (fun t =>
      (∃ map, t.d.wire = s.d.wire ++ [((s.d.e2e (dev * 4 + vc)).port, .selAck dev vc (s.d.e2e (dev * 4 + vc)).low map)]) ∧
      (t.d.e2e (dev * 4 + vc)).since = 0 ∧ (t.d.e2e (dev * 4 + vc)).low = (s.d.e2e (dev * 4 + vc)).low ∧ t.d.regs = s.d.regs)) ∧
    ((s.d.conn (dev * 4 + vc)).held ≠ [] → (∀ h ∈ (s.d.conn (dev * 4 + vc)).held, h.resends < s.d.rd P.kyino F.KY_E2E.RETRY) →
      (s.d.conn (dev * 4 + vc)).at_ + s.d.rd P.kyino F.KY_E2E.RTO_US * 1000 ≤ s.now →
      s.d.link (s.d.conn (dev * 4 + vc)).port = Link.UP →
      (s.d.port (s.d.conn (dev * 4 + vc)).port).sendq = [] → Yields (.e2eResend dev vc) s (fun t =>
        t.d.wire = s.d.wire ++ (s.d.conn (dev * 4 + vc)).held.map (fun h => ((s.d.conn (dev * 4 + vc)).port, s.d.onWire (s.d.conn (dev * 4 + vc)).port h.seq h.f)) ∧
        (t.d.conn (dev * 4 + vc)).held = (s.d.conn (dev * 4 + vc)).held.map (fun h => { h with resends := h.resends + 1 }) ∧
        (t.d.conn (dev * 4 + vc)).at_ = s.now)))

/-- R454 to R458, R772 to R776, R779, R781, R801, R375, R1102: a remote write that passes every check of R772 is accepted into its
window, one that fails is recorded with the first reason; an accepted write ends counted, its rows or its bytes written, not into a
sealed span nor past another request at a tile's write port, and uncounted where its access fails; the answer to the last write of a PUT ends it, OK or with REMOTE_ERROR. -/
def Obligations.RemoteWrites : Prop :=
  ∀ (s : State) (f : Frame) (d1 : Dev), d1 = s.d.takeFrame (fun x => x == f) →
    (∀ c cw, (c = .put f ∧ cw = false ∧ f.op = Op.PUT) ∨ (c = .cwrite f ∧ cw = true ∧ f.op = Op.CWRITE) → frameOk f = true →
      d1.quarantined f.src = false →
      (d1.writeRefusal s.now cw f = none → Yields c s (fun t =>
        (∃ w, t.d.winWrites = s.d.winWrites ++ [w] ∧ w.win = (if cw then s.d.grp f.group F.CH_GRP_CFG.WIN else f.win) ∧
          w.src = f.src ∧ w.tag = f.tag ∧ w.offset = f.offset ∧ w.data = f.payload ∧ w.held = false) ∧
        t.d.regs = d1.regs ∧ t.d.spad = s.d.spad ∧ t.d.near = s.d.near)) ∧
      (∀ r, d1.writeRefusal s.now cw f = some r → Yields c s (fun t =>
        t.d.winWrites = s.d.winWrites ∧ t.d.rd P.kyino F.KY_REFUSE_LAST.REASON = r ∧ t.d.rd P.kyino F.KY_REFUSE_LAST.SRC = f.src % 2 ^ 17 ∧
        t.d.flag P.kyino F.KY_REFUSE_LAST.VALID = true ∧ t.d.spad = s.d.spad ∧ t.d.near = s.d.near))) ∧
    (∀ win w res, s.d.winWrites.find? (fun w => w.win == win && !w.held) = some w → win < 1024 →
      (w.near = false → s.d.clocked = true → s.d.isSealed w.span = false → w.rowsDone = [] → w.data.length / 512 ≤ 2 ^ 19 →
        (∀ i, i < w.data.length / 512 →
          (s.d.writeReqs (spPath w.span (tileOfRow (w.rowAt i)))).all (fun x => x.1 == windowPort) = true) →
        Yields (.windowWriteCounted win res) s (fun t =>
        t.d.winWrites = s.d.winWrites.erase w ∧
        t.d.rdi P.kyWindows win F.KY_WIN_COUNT.COUNT = (s.d.rdi P.kyWindows win F.KY_WIN_COUNT.COUNT + 1) % 2 ^ 32 ∧
        t.d.rdi P.kyWindows win F.KY_WIN_BYTES.BYTES = (s.d.rdi P.kyWindows win F.KY_WIN_BYTES.BYTES + w.data.length) % 2 ^ 48 ∧
        (w.op = Op.PUT → t.d.near = s.d.near ∧ t.d.hostMem = s.d.hostMem ∧
          (∀ i, i < w.data.length / 512 →
            t.d.row w.span ((w.base + w.offset / 512 + i) % 2 ^ 19) = (w.data.drop (512 * i)).take 512)))) ∧
      (w.near = false → w.data.length / 512 ≤ 2 ^ 19 → ∀ i, i ∈ w.rowsLeft →
        (s.d.writeReqs (spPath w.span (tileOfRow (w.rowAt i)))).any (fun x => x.1 != windowPort) = true →
        Yields (.windowWriteCounted win res) s (fun t =>
          (∃ w', w' ∈ t.d.winWrites ∧ i ∈ w'.rowsLeft ∧ w'.win = win ∧ w'.data = w.data) ∧
          t.d.winWrites.length = s.d.winWrites.length ∧ t.d.row w.span (w.rowAt i) = s.d.row w.span (w.rowAt i) ∧
          t.d.rdi P.kyWindows win F.KY_WIN_COUNT.COUNT = s.d.rdi P.kyWindows win F.KY_WIN_COUNT.COUNT ∧ t.d.near = s.d.near)) ∧
      (w.near = false → s.d.isSealed w.span = true → w.rowsLeft ≠ [] → Yields (.windowWriteCounted win res) s (fun t => t.d = s.d.clean)) ∧
      (∀ bs d2, w.near = true → w.data ≠ [] → (w.base + w.offset) % 512 + w.data.length ≤ 512 →
        s.d.rangeRetrains (w.base + w.offset) w.data.length = false → res ≠ .late →
        s.d.clean.access s.now (P.io w.span 0) .nobody (w.base + w.offset) w.data.length true w.data { res := res } = (some bs, d2) →
        Yields (.windowWriteCounted win res) s (fun t =>
          t.d.winWrites = s.d.winWrites.erase w ∧
          t.d.rdi P.kyWindows win F.KY_WIN_COUNT.COUNT = (s.d.rdi P.kyWindows win F.KY_WIN_COUNT.COUNT + 1) % 2 ^ 32 ∧
          t.d.rdi P.kyWindows win F.KY_WIN_BYTES.BYTES = (s.d.rdi P.kyWindows win F.KY_WIN_BYTES.BYTES + w.data.length) % 2 ^ 48 ∧
          (w.op = Op.PUT → t.d.near = d2.near ∧ t.d.caches = d2.caches ∧ t.d.spad = d2.spad))) ∧
      (∀ d2, w.near = true → w.data ≠ [] → (w.base + w.offset) % 512 + w.data.length ≤ 512 →
        s.d.rangeRetrains (w.base + w.offset) w.data.length = false → res ≠ .late →
        s.d.clean.access s.now (P.io w.span 0) .nobody (w.base + w.offset) w.data.length true w.data { res := res } = (none, d2) →
        d2.reqs.length = s.d.reqs.length → Yields (.windowWriteCounted win res) s (fun t =>
          t.d.winWrites = s.d.winWrites.erase w ∧
          t.d.rdi P.kyWindows win F.KY_WIN_COUNT.COUNT = s.d.rdi P.kyWindows win F.KY_WIN_COUNT.COUNT ∧
          t.d.near = d2.near ∧ t.d.spad = d2.spad))) ∧
    (∀ k n c, d1.quarantined f.src = false → s.d.pr.pairTag ≠ some f.tag →
      (∀ y ∈ s.d.snaps, (f.src, f.win, f.tag, f.offset) ∉ y.out) →
      s.d.colls.find? (fun c => c.out.contains (f.src, f.win, f.tag, f.offset)) = some c → c.op = 4 → c.owner = .ring k n →
      s.d.collBy c.owner = some c → (s.d.docket k n).isSome = true →
      (c.out = [(f.src, f.win, f.tag, f.offset)] → c.stuck = false → c.failure = none → Yields (.wack f) s (fun t =>
        StandsAt t.d k n (.ended St.OK 0) ∧ t.d.collBy c.owner = none ∧ t.d.outbox = s.d.outbox ∧ t.d.spad = s.d.spad)) ∧
      Yields (.wref f) s (fun t =>
        StandsAt t.d k n (.ended St.REMOTE_ERROR f.src) ∧ t.d.collBy c.owner = none ∧
        t.d.outbox = s.d.outbox ++ [⟨P.countingHouse, K.CH_REMOTE, Cls.DEFERRED, f.src % 2 ^ 48, s.now % 2 ^ 32, 0, none⟩] ∧
        t.d.spad = s.d.spad))

/-- R712 to R717, R795, R798, R799, R801, R805, R808, R811 to R813: a REDUCE in its turn begins and takes the group's next sequence number,
or ends with the lowest refused offset; in a group of one it reads its buffer and stores the same elements back, a NaN as the
canonical one; an AMAX_MAX of a group of one with valid micro-batches ends OK, leaves the table as it was and keeps the group sums for
its record; a PUT sends its frame and waits for the answer; a CREADY or CABORT from outside the group is a
strike, a CREADY for the next or a waiting REDUCE is kept; a CABORT of its REDUCE and a wait of TIMEOUT_MS end it with REMOTE_ERROR. -/
def Obligations.Collectives : Prop :=
  ∀ (s : State),
    (∀ c op x, (c = .allReduce ∧ op = 0) ∨ (c = .reduceScatter ∧ op = 1) ∨ (c = .allGather ∧ op = 2) ∨ (c = .amaxMax ∧ op = 3) ∨
        (c = .reducePut ∧ op = 4) → s.d.nextDocket deviceRing = some x → x.opcode = 6 → rdOp x = op → s.d.kill = none →
        s.d.reduceHeld x = false →
      (∀ st det, refusal deviceRing x (argMask x) (s.d.clean.reduceBad x) = some (st, det) → Yields c s (fun t =>
        StandsAt t.d deviceRing x.n (.ended st det) ∧ { t.d with rings := s.d.rings, env := s.d.env } = s.d)) ∧
      (refusal deviceRing x (argMask x) (s.d.clean.reduceBad x) = none → op ≠ 4 → Yields c s (fun t =>
        (StandsAt t.d deviceRing x.n .begun ∨ ∃ st det, StandsAt t.d deviceRing x.n (.ended st det)) ∧
        t.d.grp (rdGroup x) F.CH_GRP_SEQ.SEQ = (s.d.grp (rdGroup x) F.CH_GRP_SEQ.SEQ + 1) % 2 ^ 32)) ∧
      (∀ n dtype, op < 3 → n = rdCount x → dtype = rdDtype x → refusal deviceRing x (argMask x) (s.d.clean.reduceBad x) = none →
        (s.d.clean.members (rdGroup x)).1 = .ok [s.d.myId] → s.d.grp (rdGroup x) F.CH_GRP_CFG.RANK = 0 →
        (∀ y ∈ s.d.colls, y.owner ≠ .ring deviceRing x.n) → (isCounted x = false ∨ s.d.vValid ≠ 0) → Yields c s (fun t =>
          ∃ (d1 : Dev) (bs : List Byte) (b : Bool) (d2 : Dev), { d1 with rings := s.d.rings, regs := s.d.regs, colls := s.d.colls, env := s.d.env } = s.d ∧
            d1.env = {} ∧
            d1.readBuffer s.now (.ring deviceRing x.n) (x.field 0x10 8) (bytesFor dtype n) = (bs, b, d2) ∧
            (b = true → StandsAt t.d deviceRing x.n .begun ∧ t.d.near = d2.near ∧ t.d.spad = d2.spad ∧ t.d.hostMem = d2.hostMem) ∧
            (b = false → ∃ colls fresh d3, d3 = ({ d2 with colls := colls, fresh := fresh } : Dev).chWrite s.now (.ring deviceRing x.n)
                (x.field 0x10 8) (rowsFromCodes dtype ((codesIn dtype n bs).map (canonNan dtype))) ∧
              t.d.near = d3.near ∧ t.d.spad = d3.spad ∧ t.d.hostMem = d3.hostMem ∧ t.d.fabric = d3.fabric ∧
              t.d.collBy (.ring deviceRing x.n) = none ∧ ∃ st det, StandsAt t.d deviceRing x.n (.ended st det)))) ∧
      (∀ (ms : List Nat) (bs : List Byte) (d0 d1 d2 : Dev), op = 4 → refusal deviceRing x (argMask x) (s.d.clean.reduceBad x) = none →
        rdCount x = 64 → (∀ y ∈ s.d.colls, y.owner ≠ .ring deviceRing x.n) →
        (s.d.clean.beginDocket deviceRing x.n).members (rdGroup x) = (.ok ms, d0) →
        d1 = { d0 with colls := s.d.colls ++ [
          { owner := .ring deviceRing x.n, op := 4, dtype := 0, group := rdGroup x, counted := false, direct := false, addr := x.field 0x10 8, count := 64, peer := x.field 0x24 4 }] } →
        d1.readBuffer s.now (.ring deviceRing x.n) (x.field 0x10 8) 64 = (bs, false, d2) →
        (x.field 0x24 4 = s.d.myId ∨ s.d.candidates (x.field 0x24 4) ≠ []) → Yields c s (fun t =>
          StandsAt t.d deviceRing x.n .begun ∧
          (∃ y, t.d.collBy (.ring deviceRing x.n) = some y ∧ y.op = 4 ∧
            y.out = [(x.field 0x24 4, x.field 0x28 2, s.d.nextPutTag % 2 ^ 16, x.field 0x30 8)]) ∧
          (x.field 0x24 4 = s.d.myId → ∃ g, t.d.kyLocal = s.d.kyLocal ++ [g] ∧ g.op = Op.PUT ∧ g.win = x.field 0x28 2 ∧
            g.key = x.field 0x2C 4 ∧ g.offset = x.field 0x30 8 ∧ g.payload = bs ∧ g.src = s.d.myId) ∧
          t.d.nextPutTag = (s.d.nextPutTag + 1) % 2 ^ 16 ∧ t.d.near = d2.near ∧ t.d.spad = d2.spad)) ∧
      (op = 3 → refusal deviceRing x (argMask x) (s.d.clean.reduceBad x) = none → (s.d.clean.members (rdGroup x)).1 = .ok [s.d.myId] →
        s.d.grp (rdGroup x) F.CH_GRP_CFG.RANK = 0 → s.d.colls = [] → s.d.vValid ≠ 0 → (∀ e, s.d.amaxWord e 1 < 2 ^ 64) →
        Yields c s (fun t =>
          (∃ y, t.d.docket deviceRing x.n = some y ∧ y.stage = .ended St.OK 0 ∧ y.total = some (s.d.vValid, s.d.vAttempted)) ∧
          (∀ e w, w < 4 → t.d.amaxWord e w = s.d.amaxWord e w) ∧
          t.d.grp (rdGroup x) F.CH_GRP_SEQ.SEQ = (s.d.grp (rdGroup x) F.CH_GRP_SEQ.SEQ + 1) % 2 ^ 32 ∧
          t.d.flag P.dkCtl F.DK_ACC.REDUCED = true ∧ t.d.rd P.dkCtl F.DK_VTOTAL.VALID = s.d.rd P.dkCtl F.DK_VTOTAL.VALID ∧ t.d.colls = []))) ∧
    (∀ f d1, d1 = s.d.takeFrame (fun x => x == f) → d1.quarantined f.src = false → f.src < 2 ^ 17 →
      (d1.mayCollect f.group f.src = false → ∀ c, c = .cready f ∨ c = .cabort f → Yields c s (fun t =>
        rtStrikes (t.d.rtEntry f.src) = min (rtStrikes (s.d.rtEntry f.src) + 1) 15 ∧ t.d.colls = s.d.colls ∧ t.d.early = s.d.early ∧
        t.d.spad = s.d.spad)) ∧
      (d1.mayCollect f.group f.src = true → f.tag = s.d.grp f.group F.CH_GRP_SEQ.SEQ % 2 ^ 16 → Yields (.cready f) s (fun t =>
        t.d.early = s.d.early ++ [f] ∧ t.d.colls = s.d.colls ∧ rtStrikes (t.d.rtEntry f.src) = rtStrikes (s.d.rtEntry f.src))) ∧
      (d1.mayCollect f.group f.src = true → s.d.collOf f.group = none → Yields (.cabort f) s (fun t => t.d = d1))) ∧
    (∀ f c q, (s.d.takeFrame (fun x => x == f)).quarantined f.src = false → s.d.collOf f.group = some c → s.d.collBy c.owner = some c →
      c.members.findIdx? (fun m => m == f.src) = some q → c.seq % 2 ^ 16 = f.tag →
      (f.tag ≠ s.d.grp f.group F.CH_GRP_SEQ.SEQ % 2 ^ 16 → f.strand < c.strands.length → c.stuck = true → Yields (.cready f) s (fun t =>
        ∃ c', t.d.collBy c.owner = some c' ∧ (c'.strand f.strand).creadys = (c.strand f.strand).creadys ++ [(q, f.offset)] ∧
          c'.buf = c.buf)) ∧
      (∀ k n, c.op = 3 → c.owner = .ring k n → (s.d.docket k n).isSome = true → Yields (.cabort f) s (fun t =>
        StandsAt t.d k n (.ended St.REMOTE_ERROR (f.key % 2 ^ 17)) ∧ t.d.collBy c.owner = none ∧ t.d.amax = s.d.amax))) ∧
    (∀ g rank c k n, s.d.collOf g = some c → s.d.collBy c.owner = some c → c.op = 3 → c.stuck = false → c.owner = .ring k n →
      (s.d.docket k n).isSome = true →
      c.strands.any (fun x => (match x.recvs with | y :: _ => y.peer == rank | [] => false) ||
        (match x.sends with | y :: _ => y.peer == rank | [] => false)) = true →
      s.d.candidates (c.members.getD rank 0) ≠ [] →
      (c.strands.any (fun x => x.late rank s.now (s.d.rd P.countingHouse F.CH_CTL.TIMEOUT_MS * 1000000)) = true → Yields (.chRemote g rank) s (fun t =>
        StandsAt t.d k n (.ended St.REMOTE_ERROR (c.members.getD rank 0)) ∧ t.d.collBy c.owner = none ∧ t.d.amax = s.d.amax)) ∧
      (c.strands.any (fun x => x.late rank s.now (s.d.rd P.countingHouse F.CH_CTL.TIMEOUT_MS * 1000000)) = false → Yields (.chRemote g rank) s (fun t => t.d = s.d)))

/-- R784 to R788, R790: a period's TSYNC; a TSYNC on the upstream port is recorded and answered, elsewhere it is a strike; a TDREQ is
answered with its arrival time; a TDRSP steps the clock forward or sets what is still to be slewed, and its offset is rounded toward
zero (the model's choice). -/
def Obligations.DeviceTime : Prop :=
  ∀ (s : State) (p src : Nat), p < 24 → src < 2 ^ 17 →
    (s.d.passesTime s.now = true → s.d.tsyncSent + s.d.periodNs ≤ s.now → Yields .tsyncPeriod s (fun t =>
      t.d.tsyncSent = s.now ∧ t.d.spad = s.d.spad ∧ SameAround s t)) ∧
    ((s.d.passesTime s.now = false ∨ s.now < s.d.tsyncSent + s.d.periodNs) → Yields .tsyncPeriod s (fun t => t.d = s.d)) ∧
    (∀ t1 : Word, s.d.link p = Link.UP → s.d.isMaster = false → p = s.d.upstream → s.d.quarantined src = false →
      Yields (.tsync p src t1) s (fun t => t.d.exchange = some (t1.toNat, s.now, s.now) ∧ t.d.tsyncAt = some s.now ∧
        SameAround s t ∧ t.d.spad = s.d.spad)) ∧
    (∀ t1 : Word, s.d.link p = Link.UP → (s.d.isMaster = true ∨ p ≠ s.d.upstream) → s.d.quarantined src = false →
      Yields (.tsync p src t1) s (fun t => rtStrikes (t.d.rtEntry src) = min (rtStrikes (s.d.rtEntry src) + 1) 15 ∧
        t.d.exchange = s.d.exchange ∧ t.d.tsyncAt = s.d.tsyncAt ∧ SameAround s t)) ∧
    (s.d.link p = Link.UP → s.d.passesTime s.now = true → (s.d.isMaster = true ∨ p ≠ s.d.upstream) → s.d.quarantined src = false →
      s.d.routedPort p = false → (s.d.port p).sendq = [] → (s.d.port p).replay = [] → 1 ≤ s.d.credits p 3 →
      Yields (.tdreq p src) s (fun t =>
        (∃ f, t.d.wire = s.d.wire ++ [(p, s.d.onWire p (s.d.port p).txSeq f)] ∧ f.op = Op.TDRSP ∧ f.dst = s.d.partner p ∧
          f.payload = bytesOfNat 8 s.now) ∧ SameAround s t)) ∧
    (∀ (t4 : Word) (t1 t2 t3 : Nat) (theta : Int), s.d.link p = Link.UP → s.d.exchange = some (t1, t2, t3) → s.d.isMaster = false →
      p = s.d.upstream → s.d.quarantined src = false →
      theta = (((t2 : Int) - t1) - ((t4.toNat : Int) - t3)).tdiv 2 →
      (theta < -10000 → Yields (.tdrsp p src t4) s (fun t =>
        (t.now : Int) = s.now - theta ∧ t.slew = 0 ∧ t.d.exchange = none ∧
        t.d.rd P.kyino F.KY_TIME_OFFSET.THETA = (theta.emod (2 ^ 64)).toNat ∧ t.pending = s.pending)) ∧
      (-10000 ≤ theta → Yields (.tdrsp p src t4) s (fun t =>
        t.now = s.now ∧ t.slew = theta * 270000 ∧ t.d.exchange = none ∧
        t.d.rd P.kyino F.KY_TIME_OFFSET.THETA = (theta.emod (2 ^ 64)).toNat ∧ t.d.outbox = s.d.outbox ∧ t.pending = s.pending)))

/-! ### Units (02) and spare engines (04) -/

/-- R68, R78, R83 to R91, R1089 to R1091: the commands of UNIT_CTL on a unit that has no Kyino port below it: an enable starts the
unit under a parent that is ON, waits without one, and is latched while the unit drains; a disable drains what is below; a block
reset, which leaves the unit FAILED where it fails, and a FENCE of a unit in which no work is in flight; a RELEASE of the unit and of what was fenced with it; each of them turned
away where the unit does not take it.
R78, R81, R89, R93, R433, R441: the start sequence ends in ON, and the enabled children start; a scratchpad tile's rows are zero then;
a drain without work left ends in OFF, from which a latched enable starts the unit in the next MCLK cycle, and at once where it was
written in this one (R94); a drain of 1 ms is ended by force, with its error
bit and message. -/
def Obligations.Units : Prop :=
  (∀ (s : State) (p : Nat), (kindOf p).isSome = true → p ≠ P.group →
    (∀ q ∈ p :: descendants p, kindOf q ≠ some .kyPort) →
    (s.d.ust p = U.OFF → s.d.parentOn p = true → Yields (.unitEnable p) s (fun t =>
      t.d.ust p = U.STARTING ∧ t.d.flag p F.UNIT_CTL.ENABLE = true ∧ t.d.rd p F.UNIT_STAT.STATE_TIME = s.now % 2 ^ 32 ∧
      OtherPages s.d t.d p ∧ t.d.spad = s.d.spad)) ∧
    (s.d.ust p = U.OFF → s.d.parentOn p = false → Yields (.unitEnable p) s (fun t =>
      t.d.ust p = U.OFF ∧ t.d.flag p F.UNIT_CTL.ENABLE = true ∧ OtherPages s.d t.d p)) ∧
    (s.d.ust p = U.DRAINING → Yields (.unitEnable p) s (fun t =>
      t.d.ust p = U.DRAINING ∧ t.d.flag p F.UNIT_CTL.ENABLE = true ∧ t.d.flag p F.UNIT_STAT.PEND_EN = true ∧ OtherPages s.d t.d p)) ∧
    (canCommand p = true → s.d.ust p = U.STARTING ∨ s.d.ust p = U.ON → Yields (.unitDisable p) s (fun t =>
      t.d.flag p F.UNIT_CTL.ENABLE = false ∧
      (∀ q ∈ resetTree p, t.d.ust q = if s.d.ust q = U.STARTING ∨ s.d.ust q = U.ON then U.DRAINING else s.d.ust q) ∧
      (∀ q, q ∉ resetTree p → t.d.ust q = s.d.ust q) ∧ t.d.spad = s.d.spad ∧ t.d.rings = s.d.rings)) ∧
    (canCommand p = true → s.d.ust p = U.OFF → Yields (.unitDisable p) s (fun t =>
      t.d.ust p = U.OFF ∧ t.d.flag p F.UNIT_CTL.ENABLE = false ∧ OtherPages s.d t.d p)) ∧
    (canCommand p = true → s.d.workInFlight p = false → resetTree p = [p] → isRing p = false → s.d.ust p ≠ U.NO_SERVICE →
      Yields (.blockReset p true) s (fun t =>
        t.d.ust p = (if s.d.shut p then s.d.ust p
          else if s.d.flag p F.UNIT_CTL.ENABLE = true ∧ s.d.parentOn p = true then U.STARTING else U.OFF) ∧
        (∀ i (f : Fld), i < 2 ^ 20 → f.off < 4096 → f.lo < 64 → keptOnReset p f.off = false → t.d.rdi p i f = resetKey (fldKey p i f)) ∧
        OtherPages s.d t.d p ∧ t.d.spad = s.d.spad ∧ t.d.rings = s.d.rings)) ∧
    (canCommand p = true → s.d.workInFlight p = false → resetTree p = [p] → isRing p = false → s.d.ust p ≠ U.NO_SERVICE →
      s.d.flag P.boot F.BT_STAT.READY = false → s.d.noService = false → Yields (.blockReset p false) s (fun t =>
        t.d.ust p = U.FAILED ∧ (∀ q, q ≠ p → t.d.ust q = s.d.ust q) ∧ t.d.spad = s.d.spad ∧ t.d.rings = s.d.rings)) ∧
    (canCommand p = true → s.d.shut p = false → s.d.workInFlight p = false → (resetTree p).any isRing = false →
      s.d.noService = false → (s.d.fenceStates s.now p).serviceMet = true → Yields (.fence p) s (fun t =>
        (∀ q ∈ p :: descendants p, t.d.ust q = if s.d.ust q = U.FAILED ∨ s.d.ust q = U.NO_SERVICE then s.d.ust q else U.FENCED) ∧
        (∀ q, q ∉ p :: descendants p → t.d.ust q = s.d.ust q) ∧
        t.d.spad = s.d.spad ∧ t.d.near = s.d.near ∧ t.d.rings = s.d.rings)) ∧
    (canCommand p = true → s.d.ust p = U.FENCED → Yields (.release p) s (fun t =>
      t.d.ust p = U.OFF ∧ t.d.flag p F.UNIT_CTL.ENABLE = false ∧
      (∀ q ∈ descendants p, t.d.ust q =
        if s.d.ust q = U.FENCED ∧ Tbl.get noNat s.d.marks q = p + 1 then U.OFF else s.d.ust q) ∧
      (∀ q, q ∉ p :: descendants p → t.d.ust q = s.d.ust q) ∧ t.d.spad = s.d.spad ∧ t.d.rings = s.d.rings)) ∧
    (∀ c, (c = .unitEnable p ∧ s.d.shut p = true) ∨ (c = .unitDisable p ∧ (canCommand p = false ∨ s.d.shut p = true)) ∨
        (c = .fence p ∧ (canCommand p = false ∨ s.d.shut p = true)) ∨ (c = .release p ∧ (canCommand p = false ∨ s.d.ust p ≠ U.FENCED)) ∨
        (∃ ok, c = .blockReset p ok ∧ canCommand p = false) →
      Yields c s (fun t => t.d.flag p F.UNIT_ERR.STATE_CMD = true ∧ (∀ q, t.d.ust q = s.d.ust q) ∧
        (∀ q, t.d.rd q F.UNIT_CTL.ENABLE = s.d.rd q F.UNIT_CTL.ENABLE) ∧ t.d.marks = s.d.marks ∧ t.d.spad = s.d.spad))) ∧
  (∀ (s : State) (p : Nat), (kindOf p).isSome = true → (∀ q ∈ p :: descendants p, kindOf q ≠ some .kyPort) →
    (s.d.ust p = U.STARTING → s.d.parentOn p = true → Yields (.startSequenceDone p) s (fun t =>
      t.d.ust p = U.ON ∧
      (∀ q ∈ childrenOf p, t.d.ust q = if s.d.ust q = U.OFF ∧ s.d.flag q F.UNIT_CTL.ENABLE = true then U.STARTING else s.d.ust q) ∧
      (∀ q, q ∉ p :: childrenOf p → t.d.ust q = s.d.ust q) ∧
      (kindOf p = some .sp → ∀ a, a < 2 ^ 23 → Tbl.get zeroByte t.d.spad ((spanOf p * 32 + tileNo p) * 2 ^ 23 + a) = 0) ∧
      (∀ a, kindOf p ≠ some .sp ∨ a / 2 ^ 23 ≠ spanOf p * 32 + tileNo p → Tbl.get zeroByte t.d.spad a = Tbl.get zeroByte s.d.spad a))) ∧
    (s.d.ust p ≠ U.STARTING ∨ s.d.parentOn p = false → Yields (.startSequenceDone p) s (fun t => t.d = s.d)) ∧
    (s.d.ust p = U.DRAINING → (∀ q ∈ childrenOf p, s.d.ust q = U.OFF ∨ s.d.shut q = true) →
      s.d.workInFlight p = false → s.d.progRuns p = false → Yields (.unitDrainComplete p) s (fun t =>
        t.d.ust p = (if s.d.flag p F.UNIT_STAT.PEND_EN = true ∧ p ∈ s.d.cyc.enabledNow ∧ s.d.flag p F.UNIT_CTL.ENABLE = true ∧
          s.d.parentOn p = true then U.STARTING else U.OFF) ∧
        (s.d.flag p F.UNIT_STAT.PEND_EN = true → p ∉ s.d.cyc.enabledNow → p ∈ t.d.cyc.restartNext) ∧
        t.d.flag p F.UNIT_STAT.PEND_EN = false ∧ OtherPages s.d t.d p ∧ t.d.spad = s.d.spad)) ∧
    (s.d.workInFlight p = true ∨ s.d.progRuns p = true ∨ s.d.ust p ≠ U.DRAINING →
      Yields (.unitDrainComplete p) s (fun t => t.d = s.d)) ∧
    (s.d.ust p = U.DRAINING → (s.now + 2 ^ 32 - s.d.rd p F.UNIT_STAT.STATE_TIME) % 2 ^ 32 < 1000000 →
      Yields (.unitDrainTimeout p) s (fun t => t.d = s.d)) ∧
    (s.d.ust p = U.DRAINING → 1000000 ≤ (s.now + 2 ^ 32 - s.d.rd p F.UNIT_STAT.STATE_TIME) % 2 ^ 32 →
      resetTree p = [p] → isRing p = false → kindOf p ≠ some .clocks → s.d.workInFlight p = false → s.d.rd p F.UNIT_STAT.PEND_EN = 0 →
      Yields (.unitDrainTimeout p) s (fun t =>
        t.d.ust p = U.OFF ∧ t.d.flag p F.UNIT_ERR.DRAIN_TIMEOUT = true ∧
        t.d.outbox = s.d.outbox ++ [⟨p, K.UNIT_DRAIN_TIMEOUT, Cls.CONTAINED, 0, s.now % 2 ^ 32, 0, none⟩] ∧
        OtherPages s.d t.d p ∧ t.d.spad = s.d.spad)))

/-- R311 to R323, R560: a span's spare: a HOST_SUB fences the named engine and begins the substitution, is refused while the spare is not free, and one that names no engine is an illegal
write; the substitution completes once no request of the old
epoch is left and the plan store can be read, with NUMCTL, generator and program of the position and nothing of its banks; a HOST_REL gives the position back. -/
def Obligations.SpareEngines : Prop :=
  ∀ (s : State) (span : Nat), span < 8 →
    (∀ bay eng, bay < 4 → eng < 3 → s.d.spareFree span = false → Yields (.hostSub span bay eng) s (fun t =>
      t.d.flag (P.spare span) F.UNIT_ERR.STATE_CMD = true ∧ t.d.substs = s.d.substs ∧ t.d.rings = s.d.rings ∧
      t.d.rd (P.spare span) F.ME_REMAP.TGT_BAY = s.d.rd (P.spare span) F.ME_REMAP.TGT_BAY)) ∧
    (∀ bay, Yields (.hostSub span bay 3) s (fun t =>
      t.d.flag (P.spare span) F.UNIT_ERR.ILLEGAL_WRITE = true ∧ t.d.substs = s.d.substs ∧ t.d.rings = s.d.rings)) ∧
    (∀ bay eng, bay < 4 → eng < 3 → s.d.spareFree span = true → Yields (.hostSub span bay eng) s (fun t =>
      t.d.rd (P.spare span) F.ME_REMAP.TGT_BAY = bay ∧ t.d.rd (P.spare span) F.ME_REMAP.TGT_ENG = eng ∧
      (∃ x ∈ t.d.substs, x.span = span ∧ x.target = P.me span bay eng ∧ x.cause = 3) ∧
      t.d.ust (P.me span bay eng) = (if s.d.ust (P.me span bay eng) = U.FAILED then U.FAILED else U.FENCED))) ∧
    (s.d.flag (P.spare span) F.ME_REMAP.ACTIVE = true → s.d.ust (s.d.rd (P.spare span) F.ME_REMAP.SERVED) = U.OFF →
      Yields (.hostRel span) s (fun t =>
        t.d.flag (P.spare span) F.ME_REMAP.ACTIVE = false ∧ t.d.rd (P.spare span) F.ME_REMAP.SERVED = 0 ∧
        t.d.rd (P.spare span) F.ME_REMAP_TIME.TIME = s.now % 2 ^ 64 ∧
        t.d.flag (s.d.rd (P.spare span) F.ME_REMAP.SERVED) F.UNIT_STAT.SPARED = false)) ∧
    (s.d.flag (P.spare span) F.ME_REMAP.ACTIVE = false ∨ s.d.ust (s.d.rd (P.spare span) F.ME_REMAP.SERVED) ≠ U.OFF →
      Yields (.hostRel span) s (fun t => t.d.flag (P.spare span) F.UNIT_ERR.STATE_CMD = true ∧ t.d.rings = s.d.rings ∧
        t.d.rd (P.spare span) F.ME_REMAP.SERVED = s.d.rd (P.spare span) F.ME_REMAP.SERVED)) ∧
    (∀ x, s.d.substs.find? (fun y => y.span == span) = some x → x.target < 2 ^ 16 → s.d.kill = none →
      s.d.on (P.spare span) = true → s.d.epochBusy [span] = false → (s.d.plan.isSome = true → s.d.storeUp = true) → Yields (.meSpare span) s (fun t =>
        t.d.flag (P.spare span) F.ME_REMAP.ACTIVE = true ∧ t.d.rd (P.spare span) F.ME_REMAP.SERVED = x.target ∧
        t.d.rd (P.spare span) F.ME_REMAP.CAUSE = x.cause % 4 ∧ t.d.rd (P.spare span) F.ME_REMAP_TIME.TIME = s.now % 2 ^ 64 ∧
        t.d.flag x.target F.UNIT_STAT.SPARED = true ∧ t.d.substs = s.d.substs.filter (fun y => y.span != span) ∧
        t.d.rd (P.spare span) F.NUMCTL.RMODE = s.d.rd x.target F.NUMCTL.RMODE % 4 ∧
        t.d.rd (P.spare span) F.RNG_SEED.SEED = s.d.rd x.target F.RNG_SEED.SEED % 2 ^ F.RNG_SEED.SEED.w ∧
        t.d.rd (P.spare span) F.RNG_STREAM.STREAM = s.d.rd x.target F.RNG_STREAM.STREAM % 2 ^ F.RNG_STREAM.STREAM.w ∧
        t.d.rd (P.spare span) F.RNG_POS.POS = s.d.rd x.target F.RNG_POS.POS % 2 ^ F.RNG_POS.POS.w ∧
        t.d.rd (P.spare span) F.ME_STAT.BANK_A = 0 ∧ t.d.rd (P.spare span) F.ME_STAT.CELLS_HELD = 0 ∧
        t.d.isSealed span = false ∧ t.d.spad = s.d.spad)) ∧
    (s.d.epochBusy [span] = true ∨ (s.d.plan.isSome = true ∧ s.d.storeUp = false) → Yields (.meSpare span) s (fun t => t.d = s.d))

/-! ### Tollhouse (11) -/

/-- R831, R836 to R844, R855, R861, R871, R899: the oldest message of a unit reaches Tollhouse, in one MCLK cycle in order of paths: it takes the slot at WPTR unless the slot
is held, and then it is counted as lost; CORRECTED and INFO messages are logged acknowledged; its entry raises the interrupt; in
SERVICE a CONTAINED message starts a grace timer, or joins the ladder of its kind and unit; in BOOT and TEST the direct action is
taken in place of both; a FATAL one drives the pin. A read of the log copies the selected slot. -/
def Obligations.MessagesAndLog : Prop :=
  ∀ (s : State),
    (∀ k m w e, s.d.outbox[k]? = some m → s.d.outbox.find? (fun x => x.path == m.path) = some m → m.kind ≠ K.BI_REPAIR →
      s.d.cyc.tollPath ≤ m.path →
      w = s.d.rd P.tollhouse F.FC_LOG_STAT.WPTR → w < 512 → e = s.d.entryFor m.kind m.cls →
      (∀ st, st = (if m.cls = Cls.CORRECTED ∨ m.cls = Cls.INFO then 2 else 1) → (s.d.slot w).state ≠ 1 →
        (s.d.fcPhase = 1 → m.cls ≠ Cls.CONTAINED → m.cls ≠ Cls.FATAL → Yields (.tollhouseMessage k) s (fun t =>
          t.d.slot w = { msg := m, state := st } ∧ t.d.rd P.tollhouse F.FC_LOG_STAT.WPTR = (w + 1) % 512 ∧
          t.d.rd P.tollhouse F.FC_WRITE_CNT.COUNT = (s.d.rd P.tollhouse F.FC_WRITE_CNT.COUNT + 1) % 2 ^ 64 ∧
          t.d.outbox = s.d.outbox.erase m ∧ t.d.graces = s.d.graces ∧ t.d.ladders = s.d.ladders ∧
          (bitAt e 0 = true → s.d.msixMasked (bitsOf e 1 6) = false → t.d.msix = s.d.msix ++ [bitsOf e 1 6]) ∧
          (bitAt e 0 = false → t.d.msix = s.d.msix) ∧ (∀ j, j ≠ w → t.d.slot j = s.d.slot j) ∧ t.d.spad = s.d.spad)) ∧
        (s.d.fcPhase = 1 → m.cls = Cls.CONTAINED ∨ m.cls = Cls.FATAL → s.d.ladderOf s.now m.kind m.path = none → entryActs e ≠ [] →
          Yields (.tollhouseMessage k) s (fun t =>
            t.d.slot w = { msg := m, state := 1 } ∧ t.d.ladders = s.d.ladders ∧
            t.d.graces = s.d.graces ++ [{ slot := w, expiry := s.now + bitsOf e 8 16 * 1000, acts := entryActs e }] ∧
            (m.cls = Cls.FATAL → t.d.flag P.tollhouse F.FC_ERR_PIN_CTL.DRIVE = true) ∧ t.d.spad = s.d.spad)) ∧
        (∀ l, s.d.fcPhase = 1 ∨ s.d.fcPhase = 3 → m.cls = Cls.CONTAINED ∨ m.cls = Cls.FATAL →
          s.d.ladderOf s.now m.kind m.path = some l → l.waiting = none → Yields (.tollhouseMessage k) s (fun t =>
            t.d.slot w = { msg := m, state := 1, joined := true } ∧ t.d.ladders = s.d.ladders ∧ t.d.graces = s.d.graces ∧
            t.d.spad = s.d.spad)) ∧
        (s.d.fcPhase = 0 ∨ s.d.fcPhase = 2 → m.cls ≠ Cls.FATAL → entryDirect e s.d.fcPhase = 4 → Yields (.tollhouseMessage k) s (fun t =>
          t.d.slot w = { msg := m, state := st, direct := true } ∧ t.d.flag P.tollhouse F.FC_ERR_PIN_CTL.DRIVE = true ∧
          t.d.graces = s.d.graces ∧ t.d.ladders = s.d.ladders ∧ t.d.spad = s.d.spad))) ∧
      ((s.d.slot w).state = 1 → s.d.fcPhase = 1 → m.cls ≠ Cls.CONTAINED → m.cls ≠ Cls.FATAL → Yields (.tollhouseMessage k) s (fun t =>
        t.d.log = s.d.log ∧ t.d.flag P.tollhouse F.FC_LOG_STAT.OVERFLOW = true ∧ t.d.rd P.tollhouse F.FC_LOG_STAT.WPTR = w ∧
        t.d.rd P.tollhouse F.FC_OVF_CNT.COUNT = (s.d.rd P.tollhouse F.FC_OVF_CNT.COUNT + 1) % 2 ^ 32 ∧
        t.d.outbox = s.d.outbox.erase m ∧ t.d.msix = s.d.msix))) ∧
    (∀ k m, s.d.outbox[k]? = some m → s.d.outbox.find? (fun x => x.path == m.path) = some m → m.path < s.d.cyc.tollPath →
      Yields (.tollhouseMessage k) s (fun t => t.d = s.d)) ∧
    (∀ x, x = s.d.slot (s.d.rd P.tollhouse F.FC_LOG_SEL.SLOT) → Yields .fcLogRead s (fun t =>
      t.d.logBuf = (msgBits x.msg % 2 ^ 64, msgBits x.msg / 2 ^ 64, x.word) ∧
      t.d.rdata = BitVec.ofNat 512 (msgBits x.msg % 2 ^ 64) ∧ { t.d with logBuf := s.d.logBuf, rdata := s.d.rdata } = s.d))

/-- R844, R856 to R862, R869: an acknowledgement frees the slot, and in time it cancels the grace timer; on a ladder it ends the wait
for recurrence; a timer that expires while a ladder of its kind and unit runs joins it; a running step completes when its work has
ended and waits for recurrence, or ends an acknowledged ladder, and does not fail before its time; the recurrence interval ends one. -/
def Obligations.LaddersAndGraces : Prop :=
  ∀ (s : State) (k : Nat), k < 512 →
    ((s.d.slot k).state ≠ 1 → Yields (.fcAck k) s (fun t => t.d.flag P.tollhouse F.UNIT_ERR.STATE_CMD = true ∧ t.d.log = s.d.log ∧
      t.d.graces = s.d.graces ∧ t.d.ladders = s.d.ladders)) ∧
    (∀ g, (s.d.slot k).state = 1 → s.d.graces.find? (fun x => x.slot == k) = g → (∀ x, g = some x → s.now < x.expiry) →
      s.d.ladders.find? (fun l => l.slot == k && !l.direct) = none → Yields (.fcAck k) s (fun t =>
        t.d.slot k = { s.d.slot k with state := 2, late := (s.d.slot k).expired } ∧ (∀ j, j ≠ k → t.d.slot j = s.d.slot j) ∧
        t.d.graces = s.d.graces.filter (fun x => x.slot != k) ∧ t.d.ladders = s.d.ladders ∧ t.d.regs = s.d.regs)) ∧
    (∀ l, (s.d.slot k).state = 1 → s.d.graces.find? (fun x => x.slot == k) = none →
      s.d.ladders.find? (fun l => l.slot == k && !l.direct) = some l →
      (l.waiting.isSome = true → Yields (.fcAck k) s (fun t =>
        (t.d.slot k).state = 2 ∧ (t.d.slot k).step = l.step ∧ (t.d.slot k).resolved = l.since % 2 ^ 32 ∧
        t.d.ladders = s.d.ladders.filter (fun x => x != l) ∧ t.d.regs = s.d.regs)) ∧
      (l.waiting = none → Yields (.fcAck k) s (fun t =>
        (t.d.slot k).state = 2 ∧ { l with acked := true } ∈ t.d.ladders ∧ t.d.regs = s.d.regs))) ∧
    (∀ g, s.d.graces.find? (fun x => x.slot == k) = some g → s.now < g.expiry → Yields (.graceTimerExpiry k) s (fun t => t.d = s.d)) ∧
    (∀ g l, s.d.graces.find? (fun x => x.slot == k) = some g → g.expiry ≤ s.now →
      s.d.ladderOf s.now (s.d.slot k).msg.kind (s.d.slot k).msg.path = some l → l.waiting = none → Yields (.graceTimerExpiry k) s (fun t =>
        t.d.slot k = { s.d.slot k with expired := true, joined := true } ∧ t.d.ladders = s.d.ladders ∧
        t.d.graces = s.d.graces.filter (fun x => x.slot != k) ∧ t.d.regs = s.d.regs)) ∧
    (∀ l, s.d.ladders = [l] → l.slot = k → l.runs = true →
      (l.direct = false → l.acked = false → s.d.stepEnded l = true → Dev.stepLate s.now l = false → Yields (.ladderStepDone k true) s (fun t =>
        t.d.ladders = [{ l with since := s.now, waiting := some (s.now + s.d.rd P.tollhouse F.FC_RECUR.MICROS * 1000) }] ∧
        (s.d.fcPhase = 3 → s.d.restoring = none → t.d.fcPhase = 1) ∧ t.d.log = s.d.log ∧ t.d.spad = s.d.spad)) ∧
      (l.direct = false → l.acked = true → s.d.stepEnded l = true → Dev.stepLate s.now l = false → Yields (.ladderStepDone k true) s (fun t =>
        t.d.ladders = [] ∧ (t.d.slot k).step = l.step ∧ (t.d.slot k).resolved = s.now % 2 ^ 32)) ∧
      (s.d.stepEnded l = false → Dev.stepLate s.now l = false → Yields (.ladderStepDone k true) s (fun t => t.d = s.d)) ∧
      (l.acked = false → Dev.stepLate s.now l = true → l.step < l.acts.length → l.acts.getD l.step 0 ≠ 6 →
        ∀ ok, Yields (.ladderStepDone k ok) s (fun t =>
          ∃ l' ∈ t.d.ladders, l'.slot = k ∧ l'.step = l.step + 1 ∧ l'.begun = true ∧ l'.since = s.now)) ∧
      (s.d.ust (s.d.sourceUnit l.path) ≠ U.FAILED → s.now < l.since + actLimit (l.acts.getD (l.step - 1) 0) →
        Yields (.ladderStepDone k false) s (fun t => t.d = s.d))) ∧
    (∀ l u, s.d.ladders = [l] → l.slot = k → l.waiting = some u →
      (u ≤ s.now → l.direct = false → Yields (.recurEnd k) s (fun t =>
        t.d.ladders = [] ∧ (t.d.slot k).step = l.step ∧ (t.d.slot k).resolved = l.since % 2 ^ 32 ∧ t.d.regs = s.d.regs)) ∧
      (s.now < u → Yields (.recurEnd k) s (fun t => t.d = s.d)))

/-- R18, R846 to R851, R874 to R877: the error pin, PHASE and the reaction entries: a pulse ends no earlier than its time; a write of the
pin's register arms it and takes a pulse of 10 to 1000 µs only; PHASE moves between SERVICE and TEST only, and not in a window; an
entry in the limits is in force for its kind from then on, and no other kind's changes. -/
def Obligations.PinPhaseAndReactions : Prop :=
  ∀ (s : State),
    (∀ u, s.d.pulseUntil = some u →
      (s.now < u → Yields .errPulseEnd s (fun t => t.d = s.d)) ∧
      (u ≤ s.now → Yields .errPulseEnd s (fun t => t.d.pulseUntil = none ∧ t.d.flag P.tollhouse F.FC_ERR_PIN_CTL.PULSING = false ∧
        t.d.flag P.tollhouse F.FC_ERR_PIN_CTL.DRIVE = s.d.flag P.tollhouse F.FC_ERR_PIN_CTL.DRIVE ∧ t.d.log = s.d.log))) ∧
    (∀ v : Word, 10 ≤ bitsOf v.toNat 16 10 → bitsOf v.toNat 16 10 ≤ 1000 → Yields (.errPinCtlWrite v) s (fun t =>
      t.d.rd P.tollhouse F.FC_ERR_PIN_CTL.DRIVE = bitsOf v.toNat 0 1 ∧
      t.d.rd P.tollhouse F.FC_ERR_PIN_CTL.ERR_PULSE_MIN = bitsOf v.toNat 16 10 ∧
      t.d.rd P.tollhouse F.FC_ERR_PIN_CTL.ARMED = (if bitAt v.toNat 1 then 1 else s.d.rd P.tollhouse F.FC_ERR_PIN_CTL.ARMED) ∧
      OtherPages s.d t.d P.tollhouse ∧ t.d.outbox = s.d.outbox)) ∧
    (∀ v : Word, bitsOf v.toNat 16 10 < 10 ∨ 1000 < bitsOf v.toNat 16 10 → Yields (.errPinCtlWrite v) s (fun t =>
      t.d.flag P.tollhouse F.UNIT_ERR.ILLEGAL_WRITE = true ∧
      t.d.rd P.tollhouse F.FC_ERR_PIN_CTL.ERR_PULSE_MIN = s.d.rd P.tollhouse F.FC_ERR_PIN_CTL.ERR_PULSE_MIN)) ∧
    (∀ v : Word, ∀ n, n = bitsOf v.toNat 0 2 →
      (s.d.bistWin = none → (s.d.fcPhase = 1 ∧ n = 2) ∨ (s.d.fcPhase = 2 ∧ n = 1) → Yields (.fcPhaseWrite v) s (fun t =>
        t.d.fcPhase = n ∧ OtherPages s.d t.d P.tollhouse ∧ t.d.outbox = s.d.outbox)) ∧
      (s.d.bistWin ≠ none ∨ (s.d.fcPhase ≠ 1 ∧ s.d.fcPhase ≠ 2) ∨ s.d.fcPhase = n → Yields (.fcPhaseWrite v) s (fun t =>
        t.d.fcPhase = s.d.fcPhase ∧ t.d.flag P.tollhouse F.UNIT_ERR.STATE_CMD = true))) ∧
    (∀ v : Word, ∀ kind, kind = s.d.rd P.tollhouse F.FC_REACT_SEL.KIND → kind < 1024 →
      (kindRow kind = none → Yields (.fcReactWrite v) s (fun t => t.d = s.d)) ∧
      ((kindRow kind).isSome = true → 10 ≤ bitsOf v.toNat 8 16 → bitsOf v.toNat 8 16 ≤ 10000 → bitAt v.toNat 7 = false →
        bitsOf v.toNat 42 22 = 0 → bitsOf v.toNat 33 3 ≤ 4 → bitsOf v.toNat 36 3 ≤ 4 → bitsOf v.toNat 39 3 ≤ 4 →
        Yields (.fcReactWrite v) s (fun t =>
          (∀ cls, t.d.entryFor kind cls = v.toNat) ∧
          (∀ j cls, j ≠ kind → j < 1024 → t.d.entryFor j cls = s.d.entryFor j cls) ∧ OtherPages s.d t.d P.tollhouse)) ∧
      ((kindRow kind).isSome = true → bitsOf v.toNat 8 16 < 10 ∨ 10000 < bitsOf v.toNat 8 16 → Yields (.fcReactWrite v) s (fun t =>
        t.d.flag P.tollhouse F.UNIT_ERR.ILLEGAL_WRITE = true ∧ ∀ j cls, j < 1024 → t.d.entryFor j cls = s.d.entryFor j cls)))

/-! ### Self-test (11) -/

/-- R883 to R888, R892 to R898, R901, R312: a slice starts when its unit may take one, passes and counts, with the last one ending the
pass; a failure runs again; a second one is repaired and run once more where R893 or R894 allows it; a
slice past its budget, or of a unit that is no longer ON, is abandoned; a unit whose pass is too old is reported once; AUTO off ends the slices of idle gaps.
R853, R888 to R891: a BIST_WINDOW in its turn begins with PHASE TEST, and its time runs from when no docket of R889 is in
execution; a refused one ends with its status; it ends when its time is over, with what it ran and what
failed as DETAIL and PHASE as it was. -/
def Obligations.SelfTest : Prop :=
  (∀ (s : State) (p : Nat), (kindOf p).isSome = true →
    (s.d.sliceMay s.now p = true → Yields (.sliceStart p) s (fun t =>
      t.d.slices = s.d.slices ++ [{ path := p, since := s.now, window := (s.d.windowOf p).isSome }] ∧ t.d.regs = s.d.regs ∧ t.d.spad = s.d.spad)) ∧
    (s.d.sliceMay s.now p = false → Yields (.sliceStart p) s (fun t => t.d = s.d)) ∧
    (∀ x repairable readable, s.d.slices.find? (fun y => y.path == p) = some x →
      (s.now < x.since + s.d.sliceBudget → s.d.on p = true → x.run ≠ 2 → Yields (.sliceDone p true repairable readable) s (fun t =>
        t.d.slices = s.d.slices.filter (fun y => y.path != p) ∧
        t.d.rd P.bist F.BI_RUN_CNT.COUNT = (s.d.rd P.bist F.BI_RUN_CNT.COUNT + 1) % 2 ^ 48 ∧
        (s.d.slicesDone p + 1 < sliceTotal p → t.d.slicesDone p = s.d.slicesDone p + 1 ∧ t.d.passAt p = s.d.passAt p) ∧
        (sliceTotal p ≤ s.d.slicesDone p + 1 → t.d.slicesDone p = 0 ∧ t.d.passAt p = s.now) ∧
        (∀ q, q ≠ p → t.d.slicesDone q = s.d.slicesDone q ∧ t.d.passAt q = s.d.passAt q) ∧
        OtherPages s.d t.d P.bist ∧ t.d.outbox = s.d.outbox ∧ t.d.spad = s.d.spad)) ∧
      (s.now < x.since + s.d.sliceBudget → s.d.on p = true → x.run = 0 → (x.window = true → s.d.bistWin.all (s.d.budgetFits s.now) = true) → Yields (.sliceDone p false repairable readable) s (fun t =>
        { x with since := s.now, run := 1 } ∈ t.d.slices ∧ t.d.regs = s.d.regs ∧ t.d.outbox = s.d.outbox)) ∧
      (s.now < x.since + s.d.sliceBudget → s.d.on p = true → x.run = 1 → s.d.canRepair x repairable = true →
        (x.window = true → s.d.bistWin.all (s.d.budgetFits s.now) = true) →
        Yields (.sliceDone p false repairable readable) s (fun t =>
          { x with since := s.now, run := 2, readable := readable } ∈ t.d.slices ∧
          t.d.rd P.bist F.BI_FAIL_CNT.COUNT = (s.d.rd P.bist F.BI_FAIL_CNT.COUNT + 1) % 2 ^ 32 ∧
          OtherPages s.d t.d P.bist ∧ t.d.outbox = s.d.outbox)) ∧
      (s.now < x.since + s.d.sliceBudget → s.d.on p = true → x.run = 2 → kindOf p ≠ some .nmChannel → s.d.held P.bist < 8 → s.d.repairs.length < 256 →
        Yields (.sliceDone p true repairable readable) s (fun t =>
          t.d.repairs = s.d.repairs ++ [(p, 0)] ∧ t.d.flag P.bist F.BI_FAIL_LAST.REPAIRED = true ∧
          t.d.outbox = s.d.outbox ++ [⟨P.bist, K.BI_REPAIR, Cls.INFO, p % 2 ^ 48, s.now % 2 ^ 32, 0, none⟩] ∧
          t.d.rd P.bist F.BI_FUSE_PEND.COUNT = (s.d.repairs.length + 1) % 2 ^ 9 ∧ OtherPages s.d t.d P.bist)) ∧
      (∀ c pass, (c = .sliceBudgetExpiry p ∧ x.since + s.d.sliceBudget ≤ s.now) ∨
          (c = .sliceDone p pass repairable readable ∧ (x.since + s.d.sliceBudget ≤ s.now ∨ s.d.on p = false)) →
        Yields c s (fun t =>
          t.d.slices = s.d.slices.filter (fun y => y.path != p) ∧ t.d.biDone = s.d.biDone ∧
          t.d.rd P.bist F.BI_ABANDON_CNT.COUNT = (s.d.rd P.bist F.BI_ABANDON_CNT.COUNT + 1) % 2 ^ 32 ∧
          OtherPages s.d t.d P.bist ∧ t.d.outbox = s.d.outbox)) ∧
      (s.now < x.since + s.d.sliceBudget → Yields (.sliceBudgetExpiry p) s (fun t => t.d = s.d))) ∧
    (0 < sliceTotal p → s.d.biTold.contains p = false → s.d.passAt p + s.d.rd P.bist F.BI_COVER.HOURS * 3600000000000 ≤ s.now →
      Yields (.biOverdue p) s (fun t => t.d.biTold = s.d.biTold ++ [p] ∧ t.d.regs = s.d.regs ∧
        t.d.outbox = s.d.outbox ++ [⟨P.bist, K.BI_OVERDUE, Cls.DEFERRED, p % 2 ^ 48, s.now % 2 ^ 32, 0, none⟩])) ∧
    (s.d.biTold.contains p = true ∨ s.now < s.d.passAt p + s.d.rd P.bist F.BI_COVER.HOURS * 3600000000000 →
      Yields (.biOverdue p) s (fun t => t.d = s.d)) ∧
    Yields .biAutoOff s (fun t => t.d.flag P.bist F.BI_CTL.AUTO = false ∧ (∀ y ∈ t.d.slices, y.window = true) ∧
      t.d.biDone = s.d.biDone ∧ OtherPages s.d t.d P.bist ∧ t.d.outbox = s.d.outbox)) ∧
  (∀ (s : State),
    (∀ x, s.d.bistWin = none → s.d.nextDocket deviceRing = some x → x.opcode = 11 → s.d.kill = none → s.d.captureHeld = false →
      (refusal deviceRing x windowMask (windowBad x) = none → Yields .bistWindow s (fun t =>
        StandsAt t.d deviceRing x.n .begun ∧ t.d.fcPhase = 2 ∧
        (∃ w, t.d.bistWin = some w ∧ w.n = x.n ∧ w.micros = x.field 0x10 4 ∧ w.spans = spansOf (x.field 0x14 1) ∧
          w.phase = s.d.fcPhase ∧ (s.d.streamingIn = true → w.start = none)) ∧
        t.d.spad = s.d.spad ∧ t.d.reqs = s.d.reqs)) ∧
      (∀ st det, refusal deviceRing x windowMask (windowBad x) = some (st, det) → Yields .bistWindow s (fun t =>
        StandsAt t.d deviceRing x.n (.ended st det) ∧ t.d.bistWin = none ∧ t.d.regs = s.d.regs ∧ t.d.slices = s.d.slices))) ∧
    (∀ w, s.d.bistWin = some w → w.start = none →
      (s.d.streamingIn = false → Yields .bistWindow s (fun t =>
        t.d.bistWin = some { w with start := some s.now } ∧ t.d.slices = s.d.slices ∧ t.d.rings = s.d.rings ∧ OtherPages s.d t.d P.bist)) ∧
      (s.d.streamingIn = true → Yields .bistWindow s (fun t => t.d = s.d)) ∧
      Yields .bistWindowEnd s (fun t => t.d = s.d)) ∧
    (∀ w s0, s.d.bistWin = some w → w.start = some s0 → s0 + w.micros * 1000 ≤ s.now → (s.d.docket deviceRing w.n).isSome = true →
      Yields .bistWindowEnd s (fun t =>
        t.d.bistWin = none ∧ (∀ y ∈ t.d.slices, y.window = false) ∧
        StandsAt t.d deviceRing w.n (.ended St.OK (w.runs % 2 ^ 32 + w.fails % 2 ^ 32 * 2 ^ 32)) ∧
        (s.d.ladders = [] → s.d.restoring = none → w.phase = 1 ∨ w.phase = 2 → t.d.fcPhase = w.phase) ∧ t.d.spad = s.d.spad)))

/-! ### Risk, snapshots and RESTORE (12) -/

/-- R902 to R911, R931: from 4 µs after the end of the window, and no earlier, the risk becomes the larger of the window sum and the
decayed risk, or the override; the counts of the window are kept and the next window's take their place; a threshold that is
reached is marked and logged, its message goes when enabled, and EVACUATE's asks for it. -/
def Obligations.RiskEstimate : Prop :=
  ∀ (s : State),
    (s.now < s.d.assayEnd + 4000 → Yields .assayerEval s (fun t => t.d = s.d)) ∧
    (∀ sum risk, s.d.assayEnd + 4000 ≤ s.now →
      sum = s.d.windowSum ((List.range 6).map (fun i => s.d.rdi P.assayer i F.AS_CNT_DATA.CUR)) s.d.assay.margin →
      risk = (if s.d.flag P.assayer F.AS_OVERRIDE.EN = true then s.d.rd P.assayer F.AS_OVERRIDE.VALUE
        else max sum (s.d.rd P.assayer F.AS_RISK.RISK - s.d.rd P.assayer F.AS_RISK.RISK / 2 ^ s.d.rd P.assayer F.AS_CTL.DECAY)) % 2 ^ 16 →
      Yields .assayerEval s (fun t =>
        t.d.rd P.assayer F.AS_RISK.RISK = risk ∧ t.d.rd P.assayer F.AS_RISK.SUM = sum ∧ t.d.assay.start = s.d.assayEnd ∧
        (∀ i, i < 6 → t.d.rdi P.assayer i F.AS_CNT_DATA.LAST = s.d.rdi P.assayer i F.AS_CNT_DATA.CUR % 2 ^ 32 ∧
          t.d.rdi P.assayer i F.AS_CNT_DATA.CUR = s.d.nextCount s.d.assayEnd i % 2 ^ 32) ∧
        (s.d.rd P.assayer F.AS_THRESH.ADVISE ≤ risk → t.d.flag P.assayer F.AS_RISK.ADV_HI = true) ∧
        (risk < s.d.rd P.assayer F.AS_THRESH.ADVISE → risk * 8 < s.d.rd P.assayer F.AS_THRESH.ADVISE * 7 →
          t.d.flag P.assayer F.AS_RISK.ADV_HI = false) ∧
        (s.d.rd P.assayer F.AS_THRESH.EVACUATE ≤ risk → s.d.flag P.assayer F.AS_RISK.EVAC_HI = false →
          s.d.flag P.assayer F.AS_CTL.EVAC_EN = true → t.d.flag P.assayer F.AS_RISK.EVAC_REQ = true ∧
          (⟨P.assayer, K.AS_EVACUATE, Cls.DEFERRED, 0, s.now % 2 ^ 32, 0, none⟩ : Msg) ∈ t.d.outbox) ∧
        t.d.rings = s.d.rings ∧ t.d.spad = s.d.spad))

/-- R912 to R926, R928, R929, R931, R933, R937: a SNAPSHOT in its turn waits for its capture point or ends refused; the capture takes the
image when the point is reached and nothing of R914 is in execution, and ends; each destination's next stage goes on or fails;
the buddy's answers end its stages, and the last completes the image there; when every destination has ended the docket ends;
pairing is asked for and dropped, and AUTO is turned off. -/
def Obligations.Snapshots : Prop :=
  ∀ (s : State),
    (∀ x st det, s.d.pr.autoDue = none → s.d.nextDocket deviceRing = some x → x.opcode = 8 → s.d.kill = none →
      refusal deviceRing x snapMask ((if snList x % 64 != 0 then [0x10] else []) ++ (if snCount x == 0 ∨ snCount x > 256 then [0x18] else [])) =
        some (st, det) →
      Yields .snapshot s (fun t => StandsAt t.d deviceRing x.n (.ended st det) ∧ t.d.snaps = s.d.snaps ∧ t.d.regs = s.d.regs ∧
        t.d.near = s.d.near ∧ t.d.hostMem = s.d.hostMem)) ∧
    (∀ x bs e e', s.d.pr.autoDue = none → s.d.nextDocket deviceRing = some x → x.opcode = 8 → s.d.kill = none →
      refusal deviceRing x snapMask ((if snList x % 64 != 0 then [0x10] else []) ++ (if snCount x == 0 ∨ snCount x > 256 then [0x18] else [])) =
        none →
      s.d.rangeRetrains (snList x) (16 * snCount x) = false →
      s.d.clean.snRead s.now (.ring deviceRing x.n) (snList x) (16 * snCount x) .ok true = (some bs, e) →
      e.snapBad x (listRegions bs (snCount x)) = ([], e') → Yields .snapshot s (fun t =>
        StandsAt t.d deviceRing x.n .begun ∧ t.d.snaps.length = s.d.snaps.length + 1 ∧
        ∃ y, t.d.snaps.getLast? = some y ∧ y.n = some x.n ∧ y.regions = listRegions bs (snCount x) ∧ y.tag = x.field 0x30 8 ∧
          y.capturing = false ∧ y.captured = false ∧
          (s.d.snaps = [] → s.d.snapUnrecorded = false → y.point = some (if s.d.between = true then s.d.boundaries else s.d.boundaries + 1)))) ∧
    (∀ due, s.d.pr.autoDue = some due → Yields .snapshot s (fun t => t.d.pr.autoDue = none ∧ t.d.rings = s.d.rings ∧
      t.d.snaps.length ≤ s.d.snaps.length + 1)) ∧
    (∀ x rest, s.d.snaps = x :: rest →
      (∀ o bs e, x.capturing = false → x.captured = false → x.reached s.d = true → s.d.captureWaits = false → s.d.snHeld = false →
        o = (match x.n with | some n => Owner.ring deviceRing n | none => Owner.nobody) →
        (∀ r ∈ x.regions, s.d.rangeRetrains r.1 r.2 = false) →
        s.d.clean.regionsRead s.now o x.regions = (some bs, e) → Yields .captureStart s (fun t =>
        t.d.flag P.snapshot F.SN_STAT.CAPTURING = true ∧
        (∃ y, t.d.snaps = y :: rest ∧ y.capturing = true ∧ y.step = e.stepNo ∧ y.regions = x.regions ∧ y.n = x.n ∧
          y.image.take 4 = ([0x54, 0x5A, 0x53, 0x4E] : List Byte) ∧
          ∃ a, y.image = a ++ bs ++ imageDigest (a ++ bs) ++ List.replicate 16 0) ∧ t.d.rings = e.rings)) ∧
      (x.reached s.d = false ∨ s.d.captureWaits = true → Yields .captureStart s (fun t => t.d = s.d.clean)) ∧
      (x.capturing = true → x.stage.isSome = true ∨ (x.buddy.done = true ∧ x.far.done = true) → s.d.snHeld = false →
        (∀ a, x.stage = some a → s.d.rangeRetrains a x.image.length = false) →
        (∀ a o, x.stage = some a → o = (match x.n with | some n => Owner.ring deviceRing n | none => Owner.nobody) →
          (s.d.clean.snWrite s.now o a (x.image.take (x.image.length - 64)) .ok).1 = true) → Yields .captureEnd s (fun t =>
        t.d.snaps = { x with capturing := false, captured := true } :: rest ∧ t.d.capGap = 0 ∧
        t.d.flag P.snapshot F.SN_STAT.CAPTURING = false ∧ t.d.rd P.snapshot F.SN_HOLD_NS.COUNT = (s.now - x.heldAt) % 2 ^ 48)) ∧
      (x.capturing = false ∨ (x.stage = none ∧ x.far.done = false) → Yields .captureEnd s (fun t => t.d = s.d.clean)) ∧
      (∀ res id, x.buddy = .stage 1 → x.captured = true → s.d.snHeld = false → id = s.d.rd P.snapshot F.SN_BUDDY.ID →
        (∀ a, x.stage = some a → s.d.rangeRetrains a x.image.length = false) →
        (id = s.d.myId ∨ s.d.candidates id ≠ [] → Yields (.snapshotStage false res) s (fun t =>
          t.d.snaps = { x with
            buddy := .sent 1
            out := [(id, s.d.rd P.snapshot F.SN_BUDDY.WIN, s.d.nextPutTag % 2 ^ 16, 4096 + s.d.rd P.snapshot F.SN_STAT.NEXT_SLOT * s.d.rd P.snapshot F.SN_SLOT_BYTES.BYTES)] } :: rest ∧
          t.d.flag P.snapshot F.SN_STAT.SENDING = true)) ∧
        (id ≠ s.d.myId → s.d.candidates id = [] → Yields (.snapshotStage false res) s (fun t =>
          (∃ y, t.d.snaps = y :: rest ∧ y.buddy = .failed St.REMOTE_ERROR id ∧ y.far = x.far) ∧
          t.d.flag P.snapshot F.SN_STAT.BUDDY_OK = false))) ∧
      (∀ k f, x.buddy = .sent k → x.out = [(f.src, f.win, f.tag, f.offset)] → s.d.pr.pairTag ≠ some f.tag →
        (s.d.takeFrame (fun y => y == f)).quarantined f.src = false → (∀ y ∈ s.d.colls, (f.src, f.win, f.tag, f.offset) ∉ y.out) →
        (k < 3 → Yields (.wack f) s (fun t => t.d.snaps = { x with buddy := .stage (k + 1), out := [] } :: rest)) ∧
        (k = 3 → Yields (.wack f) s (fun t =>
          t.d.snaps = { x with buddy := .complete, out := [] } :: rest ∧ t.d.flag P.snapshot F.SN_STAT.BUDDY_OK = true ∧
          t.d.rd P.snapshot F.SN_STAT.NEXT_SLOT = 1 - s.d.rd P.snapshot F.SN_STAT.NEXT_SLOT ∧
          (x.far.good = true → t.d.rd P.snapshot F.SN_LAST.STEP = x.step % 2 ^ 32 ∧ t.d.rd P.snapshot F.SN_LAST.TIME = s.now % 2 ^ 32))) ∧
        Yields (.wref f) s (fun t =>
          (∃ y, t.d.snaps = y :: rest ∧ y.buddy = .failed St.REMOTE_ERROR (s.d.rd P.snapshot F.SN_BUDDY.ID) ∧ y.far = x.far) ∧
          t.d.flag P.snapshot F.SN_STAT.BUDDY_OK = false)) ∧
      (∀ k o img e0 e res, x.far = .stage k → x.captured = true → s.d.snHeld = false → res ≠ .late →
        (∀ a, x.stage = some a → s.d.rangeRetrains a x.image.length = false) →
        o = (match x.n with | some n => Owner.ring deviceRing n | none => Owner.nobody) →
        (s.d.clean.wr P.snapshot F.SN_STAT.SENDING 1).snapImage s.now x k = (some img, e0) →
        e0.snWrite s.now o (x.farAddr + s.d.rd P.snapshot F.SN_STAT.FAR_NEXT_SLOT *
          s.d.rd P.snapshot F.SN_SLOT_BYTES.BYTES + (stageBytes img k).1) (stageBytes img k).2 res = (true, e) →
        (k < 3 → Yields (.snapshotStage true res) s (fun t => t.d.snaps = { x with far := .stage (k + 1) } :: rest)) ∧
        (k = 3 → Yields (.snapshotStage true res) s (fun t =>
          t.d.snaps = { x with far := .complete } :: rest ∧ t.d.flag P.snapshot F.SN_STAT.FAR_OK = true ∧
          (x.buddy.good = true → t.d.rd P.snapshot F.SN_LAST.STEP = x.step % 2 ^ 32 ∧ t.d.rd P.snapshot F.SN_LAST.TIME = s.now % 2 ^ 32)))) ∧
      (∀ n, x.captured = true → x.n = some n → (s.d.docket deviceRing n).isSome = true →
        (x.buddy = .complete ∨ x.buddy = .unused → x.far = .complete ∨ x.far = .unused → Yields .snapshotComplete s (fun t =>
          StandsAt t.d deviceRing n (.ended St.OK (imageBytes x.regions)) ∧ t.d.snaps.length = rest.length ∧
          t.d.rd P.snapshot F.SN_LAST.STEP = s.d.rd P.snapshot F.SN_LAST.STEP ∧ OtherPages s.d t.d P.snapshot)) ∧
        (∀ st det, x.buddy = .failed st det → st ≠ St.OK → x.far.done = true → Yields .snapshotComplete s (fun t =>
          StandsAt t.d deviceRing n (.ended st det) ∧ t.d.snaps.length = rest.length ∧
          t.d.rd P.snapshot F.SN_LAST.STEP = s.d.rd P.snapshot F.SN_LAST.STEP)))) ∧
    Yields .snPair s (fun t => t.d.pr.pairAsked = true ∧ t.d.pr.pairTag = some s.d.nextPutTag ∧ t.d.pr.pairAcked = false ∧
      t.d.nextPutTag = (s.d.nextPutTag + 1) % 2 ^ 16 ∧ t.d.snaps = s.d.snaps) ∧
    Yields .snUnpair s (fun t => t.d.pr.pairAsked = false ∧ t.d.flag P.snapshot F.SN_STAT.PAIRED = false ∧
      t.d.flag P.snapshot F.SN_STAT.SAME_FEED = false ∧ t.d.pr.pairTag = some s.d.nextPutTag ∧ t.d.snaps = s.d.snaps) ∧
    Yields .snAutoOff s (fun t => t.d.flag P.snapshot F.SN_CTL.AUTO = false ∧ t.d.flag P.snapshot F.SN_STAT.AUTO_PEND = false ∧
      OtherPages s.d t.d P.snapshot ∧ t.d.snaps = s.d.snaps)

/-- R139, R852, R941 to R945: a RESTORE in its turn is in execution, with PHASE RECOVERY, until no docket of R402 is; then a failed read
of its header ends it, a header or an image that R942 refuses does with the offset, and so does one whose digest differs, and no memory
changes; a good one gives back the amax/scale table and, with STATE, the step. -/
def Obligations.RestoreRuns : Prop :=
  ∀ (s : State) (res : ReqOutcome),
    (∀ x, s.d.restoring = none → s.d.nextDocket deviceRing = some x → x.opcode = 9 →
      (s.d.kill ≠ none → Yields (.restore res) s (fun t =>
        StandsAt t.d deviceRing x.n (.ended St.BAD_ARGS 0) ∧ t.d.restoring = none ∧ t.d.regs = s.d.regs)) ∧
      (∀ st det, s.d.kill = none → s.d.captureHeld = false →
        refusal deviceRing x reMask (if x.field 0x10 8 % 4096 = 0 then [] else [0x10]) = some (st, det) → Yields (.restore res) s (fun t =>
          StandsAt t.d deviceRing x.n (.ended st det) ∧ t.d.restoring = none ∧ t.d.regs = s.d.regs)) ∧
      (s.d.kill = none → s.d.captureHeld = false → s.d.streamingIn = true →
        refusal deviceRing x reMask (if x.field 0x10 8 % 4096 = 0 then [] else [0x10]) = none → Yields (.restore res) s (fun t =>
          StandsAt t.d deviceRing x.n .begun ∧ t.d.restoring = some x.n ∧ (s.d.fcPhase = 1 → t.d.fcPhase = 3) ∧
          t.d.near = s.d.near ∧ t.d.amax = s.d.amax ∧ t.d.spad = s.d.spad))) ∧
    (∀ n x bytes, s.d.restoring = some n → s.d.docket deviceRing n = some x → x.field 0x18 8 = bytes →
      s.d.streamingIn = false → s.d.snHeld = false → res ≠ .late → s.d.rangeRetrains (x.field 0x10 8) bytes = false →
      (∀ e, s.d.clean.snRead s.now (.ring deviceRing n) (x.field 0x10 8) 256 res = (none, e) → e.snHeld = false → Yields (.restore res) s (fun t =>
        StandsAt t.d deviceRing n (.ended St.TIER_ERROR e.snDetail) ∧ t.d.restoring = none ∧
        t.d.amax = s.d.amax ∧ t.d.spad = s.d.spad)) ∧
      (∀ hdr e, s.d.clean.snRead s.now (.ring deviceRing n) (x.field 0x10 8) 256 res = (some hdr, e) →
        (headerOk hdr bytes = false → Yields (.restore res) s (fun t =>
          StandsAt t.d deviceRing n (.ended St.BAD_ARGS 0x10) ∧ t.d.restoring = none ∧ t.d.amax = s.d.amax ∧ t.d.spad = s.d.spad)) ∧
        (∀ head e2, headerOk hdr bytes = true →
          e.snRead s.now (.ring deviceRing n) (x.field 0x10 8) (headBytes hdr bytes) res = (some head, e2) →
          (∀ y ∈ imageRegions head, s.d.rangeRetrains y.1 y.2.1 = false) →
          (∀ det e3, e2.restoreBad head bytes (x.field 0x20 1) = (some det, e3) → Yields (.restore res) s (fun t =>
            StandsAt t.d deviceRing n (.ended St.BAD_ARGS det) ∧ t.d.restoring = none ∧ t.d.amax = s.d.amax ∧ t.d.spad = s.d.spad)) ∧
          (∀ e3 img e4, e2.restoreBad head bytes (x.field 0x20 1) = (none, e3) →
            e3.snRead s.now (.ring deviceRing n) (x.field 0x10 8) bytes res = (some img, e4) → imageRegions img = [] →
            Yields (.restore res) s (fun t =>
              t.d.restoring = none ∧ t.d.spad = s.d.spad ∧
              ((img.drop (bytes - 64)).take 48 ≠ imageDigest (img.take (bytes - 64)) →
                StandsAt t.d deviceRing n (.ended St.INTEGRITY 0) ∧ t.d.amax = s.d.amax) ∧
              ((img.drop (bytes - 64)).take 48 = imageDigest (img.take (bytes - 64)) →
                StandsAt t.d deviceRing n (.ended St.OK (fieldAt img 0x10 4)) ∧ t.d.between = true ∧
                (∀ o c i w, sectionAt img 2 = some (c, o) → 0 < i → i < 4096 → w < 4 →
                  t.d.amaxWord i w = fieldAt img (o + 32 * i + 8 * w) 8 % (if w = 3 then 2 ^ 37 else 2 ^ 64)) ∧
                (∀ o c, bitAt (x.field 0x20 1) 0 = true → sectionAt img 4 = some (c, o) → t.d.stepNo = fieldAt img o 4)))))))

/-! ### Units that are lost, and the work that they take along (04, 11) -/

/-- R311 to R316, R857, R858, R866, R869, R896: where a command discards the work of a scope: a HOST_SUB names the position, fences its
engine and begins the substitution; an expired timer begins STEP1, here DISCARD, with PHASE RECOVERY; a step whose unit is FAILED, with
no step left, ends its ladder as failed; a slice that fails and cannot be repaired fails its unit. -/
def Obligations.LossOfUnits : Prop :=
  ∀ (s : State),
    (∀ span bay eng, span < 8 → bay < 4 → eng < 3 → s.d.spareFree span = true → Yields (.hostSub span bay eng) s (fun t =>
      t.d.rd (P.spare span) F.ME_REMAP.TGT_BAY = bay ∧ t.d.rd (P.spare span) F.ME_REMAP.TGT_ENG = eng ∧
      t.d.shut (P.me span bay eng) = true ∧
      ∃ x ∈ t.d.substs, x.span = span ∧ x.target = P.me span bay eng ∧ x.cause = 3)) ∧
    (∀ k g rest, k < 512 → s.d.graces.find? (fun x => x.slot == k) = some g → g.expiry ≤ s.now → s.d.ladders = [] → g.acts = 1 :: rest →
      s.d.fcPhase = 1 → s.d.bistWin = none → isSpanPath (s.d.slot k).msg.path = true → Yields (.graceTimerExpiry k) s (fun t =>
        t.d.ladders = [({ kind := (s.d.slot k).msg.kind, path := (s.d.slot k).msg.path, slot := k, step := 1, acts := g.acts, begun := true, since := s.now } : Ladder)] ∧
        t.d.fcPhase = 3 ∧ t.d.graces = s.d.graces.filter (fun x => x.slot != k) ∧ (t.d.slot k).expired = true)) ∧
    (∀ k l, k < 512 → s.d.ladders = [l] → l.slot = k → l.runs = true → s.d.ust (s.d.sourceUnit l.path) = U.FAILED → l.path ≠ P.root →
      l.acts.length ≤ l.step → l.direct = false → Yields (.ladderStepDone k false) s (fun t =>
        t.d.ladders = [] ∧ (t.d.slot k).failed = true ∧ (t.d.slot k).resolved = s.now % 2 ^ 32 ∧
        t.d.ust (s.d.sourceUnit l.path) = U.FAILED)) ∧
    (∀ p x repairable readable, (kindOf p).isSome = true → s.d.slices.find? (fun y => y.path == p) = some x →
      s.now < x.since + s.d.sliceBudget → s.d.on p = true → x.run = 1 → s.d.canRepair x repairable = false → kindOf p ≠ some .kyPort → p ≠ P.bist →
      p ≠ P.root → s.d.inService P.bist = true → Yields (.sliceDone p false repairable readable) s (fun t =>
        t.d.ust p = U.FAILED ∧ t.d.flag P.bist F.BI_FAIL_LAST.VALID = true ∧ t.d.rd P.bist F.BI_FAIL_LAST.PATH = p % 2 ^ 16 ∧
        t.d.flag P.bist F.BI_FAIL_LAST.REPAIRED = false ∧ ∀ y ∈ t.d.slices, y.path ≠ p))

/-! ### Boot and firmware (13) -/

/-- R976, R977, R984 to R989, R993, R850, R1002 to R1005: boot of a device whose resources all work ends READY, in SERVICE, with its
image, links and stacks, the alias key certified for that image, the DeviceID private key erased and the device secret locked; one with no good image ends in the recovery hold; one that loses its base resource ends STOPPED; a step that takes too long
resets the device and leaves the step's START in the journal; a device that has booted does not boot again. -/
def Obligations.Boots : Prop :=
  ∀ (s : State) (f : BootFacts),
    (s.d.unbooted = false → Yields (.boot f) s (fun t => t.d = s.d)) ∧
    (s.d.unbooted = true → f.sigA = true → f.fails = [] → f.badUnits = [] → s.d.bt.clearPend = false → s.d.bt.journal = [] →
      (∀ r, s.d.level r = 0) → s.d.flash = [] → s.d.lastSlices = [] → s.d.flag P.boot F.BT_CTL.NEXT_IMAGE = false →
      0 < s.d.rd P.boot F.BT_MAX_ATTEMPTS.COUNT → bitAt (s.d.rd P.boot F.BT_KEY_STAT.PROGRAMMED) 0 = true →
      bitAt (s.d.rd P.boot F.BT_KEY_STAT.REVOKED) 0 = false → s.d.rd P.boot F.BT_SVN.FUSE_SVN = 0 → (∀ p, s.d.ust p = U.OFF) →
      Yields (.boot f) s (fun t =>
        t.d.flag P.boot F.BT_STAT.READY = true ∧ t.d.rd P.boot F.BT_STAT.STEP = 7 ∧ t.d.fcPhase = 1 ∧
        t.d.bootNo = (s.d.bootNo + 1) % 2 ^ 32 ∧ t.d.rd P.boot F.BT_STAT.IMAGE = 0 ∧
        (∃ c, t.d.dice.cert = some c ∧ c.key = Config.p384Public t.d.dice.aliasKey ∧ c.digest = s.d.imageSha false ∧ c.svn = 0 ∧ c.slot = 0) ∧
        t.d.dice.deviceKey = none ∧ t.d.dice.locked = true ∧
        t.d.flag P.hostIf F.HI_LINK_STAT.UP0 = true ∧ t.d.flag P.clocks F.CK_STAT.VCO_LOCK = true ∧
        ∀ k, k < 32 → t.d.flag (P.nmChannel k) F.NM_CH_STAT.PRESENT = true)) ∧
    (s.d.unbooted = true → f.sigA = false → f.sigB = false → Yields (.boot f) s (fun t =>
      t.d.bt.recoveryHold = true ∧ t.d.flag P.boot F.BT_STAT.READY = false ∧ t.d.rd P.boot F.BT_STAT.STEP = 1 ∧ t.d.hostMem = s.d.hostMem)) ∧
    (s.d.unbooted = true → ((s.d.stepRom f).stepImage f).2 = true → 8 ≤ bootFails f 1 → s.d.inService P.boot = true →
      Yields (.boot f) s (fun t =>
        t.d.flag P.boot F.BT_STAT.STOPPED = true ∧ t.d.flag P.boot F.BT_STAT.READY = false ∧ t.d.ust P.root = U.NO_SERVICE ∧
        t.d.noService = true)) ∧
    (∀ k, k ≤ 7 → s.d.unbooted = true → Yields (.bootStepTimeout k) s (fun t =>
      t.d.rd P.power F.PW_RESET_CAUSE.CAUSE = 4 ∧ t.d.bootNo = (s.d.bootNo + 1) % 2 ^ 32 ∧ t.d.rings = [] ∧ t.d.log = s.d.log ∧
      (∃ a b, t.d.bt.journal = (a :: b :: s.d.bt.journal).take 3840 ∧ a.event = 2 ∧ b.event = 0 ∧ b.step = k ∧ b.resource = stepResource k) ∧
      t.d.hostMem = s.d.hostMem ∧ t.d.flash = s.d.flash)) ∧
    (∀ k, s.d.unbooted = false → Yields (.bootStepTimeout k) s (fun t => t.d = s.d))

/-- R981, R986, R996 to R1001, R1017 to R1021: the boot registers: CLEAR_LEVELS, MAINT_NEXT, SVN_COMMIT, NEXT_IMAGE and REVOKE
take effect at a later boot, and a REVOKE of an unprogrammed slot is refused; a journal read takes the selected record; an update
stores in the image area that is not NEXT_IMAGE, and is activated. -/
def Obligations.FirmwareAndBootRegisters : Prop :=
  ∀ (s : State),
    Yields .clearLevels s (fun t => t.d.bt.clearPend = true ∧ t.d.bt.levels = s.d.bt.levels ∧ t.d.bt.skipped = s.d.bt.skipped ∧ t.d.regs = s.d.regs) ∧
    Yields .maintNext s (fun t => t.d.flag P.boot F.BT_CTL.MAINT_NEXT = true ∧ OtherPages s.d t.d P.boot ∧ t.d.repairs = s.d.repairs) ∧
    Yields .svnCommit s (fun t => t.d.flag P.boot F.BT_CTL.SVN_COMMIT = true ∧ OtherPages s.d t.d P.boot ∧
      t.d.rd P.boot F.BT_SVN.FUSE_SVN = s.d.rd P.boot F.BT_SVN.FUSE_SVN) ∧
    (∀ b, Yields (.nextImage b) s (fun t => t.d.flag P.boot F.BT_CTL.NEXT_IMAGE = b ∧ OtherPages s.d t.d P.boot ∧ t.d.flash = s.d.flash)) ∧
    (∀ v, v ≤ 3 → (0 < v → bitAt (s.d.rd P.boot F.BT_KEY_STAT.PROGRAMMED) (v - 1) = true) → Yields (.revoke v) s (fun t =>
      t.d.rd P.boot F.BT_CTL.REVOKE = v ∧ t.d.rd P.boot F.BT_KEY_STAT.REVOKED = s.d.rd P.boot F.BT_KEY_STAT.REVOKED ∧
      OtherPages s.d t.d P.boot)) ∧
    (∀ v, 0 < v → bitAt (s.d.rd P.boot F.BT_KEY_STAT.PROGRAMMED) (v - 1) = false → Yields (.revoke v) s (fun t =>
      t.d.rd P.boot F.BT_CTL.REVOKE = s.d.rd P.boot F.BT_CTL.REVOKE ∧ t.d.flag P.boot F.UNIT_ERR.ILLEGAL_WRITE = true)) ∧
    (∀ v, v = (match s.d.bt.journal[s.d.rd P.boot F.BT_JRNL_SEL.RECORD]? with | some r => r.bits | none => 0) → Yields .btJrnlRead s (fun t =>
      t.d.bt.jrnlBuf = v ∧ t.d.rdata = BitVec.ofNat 512 (v % 2 ^ 64) ∧ { t.d with bt.jrnlBuf := s.d.bt.jrnlBuf, rdata := s.d.rdata } = s.d)) ∧
    (∀ off bs b, b = !s.d.flag P.boot F.BT_CTL.NEXT_IMAGE → off + bs.length ≤ 2 ^ 24 →
      (s.d.bt.recoveryHold = true ∧ s.d.booted = false ∨ s.d.booted = true ∧ s.d.flag P.boot F.BT_STAT.IMAGE ≠ b) →
      Yields (.firmwareUpdate off bs) s (fun t =>
        Tbl.getN zeroByte t.d.flash (imageBase b + off) bs.length = bs ∧
        (∀ a, a < imageBase b + off ∨ imageBase b + off + bs.length ≤ a → Tbl.get zeroByte t.d.flash a = Tbl.get zeroByte s.d.flash a) ∧
        t.d.updated = some (bit b) ∧ t.d.regs = s.d.regs ∧ t.d.hostMem = s.d.hostMem)) ∧
    (∀ off bs, s.d.booted = true → s.d.flag P.boot F.BT_STAT.IMAGE = !s.d.flag P.boot F.BT_CTL.NEXT_IMAGE →
      Yields (.firmwareUpdate off bs) s (fun t => t.d = s.d)) ∧
    (∀ b, s.d.updated = some b → Yields .activateFirmware s (fun t =>
      t.d.rd P.boot F.BT_CTL.NEXT_IMAGE = b % 2 ∧ t.d.level 0 = 0 ∧ t.d.flash = s.d.flash ∧ OtherPages s.d t.d P.boot)) ∧
    (s.d.updated = none → Yields .activateFirmware s (fun t => t.d = s.d))

/-! ### The host's links (13) -/

/-- R470, R956, R961 to R970: HDM: an access outside the range, or over no link, has no effect; a read answers with the line and puts it
into the snoop filter; a full set asks the host for its oldest line first; bad data is answered with poison; a write stores its bytes,
and a poisoned one poisons their code sector; a response ends its back-invalidation; snoops miss and UIO is unsupported. -/
def Obligations.HdmAccesses : Prop :=
  ∀ (s : State) (addr : Word),
    (∀ c, s.d.hdmLine addr.toNat = none → (∃ n x, c = .hdmRead addr n x) ∨ (∃ bs p, c = .hdmWrite addr bs p) →
      Yields c s (fun t => t.d = s.d)) ∧
    (∀ line excl, s.d.hdmLine addr.toNat = some line → s.d.stackBusy (line * 64) = false →
      (∀ e bs e', s.d.sfEnter line excl = (true, e) → e.nearRead s.now (line * 64) (line * 64) 64 0 = (.bytes bs, e') →
        Yields (.hdmRead addr 0 excl) s (fun t =>
          t.d.rdata = BitVec.ofNat 512 (natOfBytes bs) ∧ t.d.cxl = s.d.cxl ∧
          (s.d.flag P.hostIf F.HI_HDM_CTL.DB_EN = true → ∃ l ∈ t.d.snoop, l.line = line ∧ (excl = true → l.excl = true)) ∧
          t.d.near = s.d.near ∧ t.d.hostMem = s.d.hostMem ∧ t.d.spad = s.d.spad)) ∧
      (∀ e c e', s.d.sfEnter line excl = (true, e) → e.nearRead s.now (line * 64) (line * 64) 64 0 = (.fail c, e') →
        Yields (.hdmRead addr 0 excl) s (fun t =>
          t.d.rdata = 0 ∧ t.d.cxl = s.d.cxl ++ [.poison (line * 64)] ∧ t.d.near = s.d.near ∧ t.d.hostMem = s.d.hostMem ∧
          t.d.rd P.hostIf F.HI_POISON_CNT.COUNT = (s.d.rd P.hostIf F.HI_POISON_CNT.COUNT + 1) % 2 ^ 32)) ∧
      (∀ l rest, s.d.flag P.hostIf F.HI_HDM_CTL.DB_EN = true → s.d.snoop.find? (fun y => y.line == line) = none →
        s.d.sfSet line = l :: rest → 16 ≤ (s.d.sfSet line).length → l.asked = false → Yields (.hdmRead addr 0 excl) s (fun t =>
          t.d.rdata = s.d.rdata ∧ t.d.cxl = s.d.cxl ++ [.bisnpInv l.line] ∧ t.d.near = s.d.near ∧
          t.d.rd P.hostIf F.HI_BISNP_CNT.COUNT = (s.d.rd P.hostIf F.HI_BISNP_CNT.COUNT + 1) % 2 ^ 48))) ∧
    (∀ line data k off, s.d.hdmLine addr.toNat = some line → s.d.stackBusy (line * 64) = false → addr.toNat % 64 + data.length ≤ 64 →
      data ≠ [] → s.d.cachedIn (addr.toNat / 512) = none → s.d.nearPlace addr.toNat = some (k, off) →
      (s.d.poisoned addr.toNat = false → Yields (.hdmWrite addr data false) s (fun t =>
        t.d.near = (s.d.putStack addr.toNat data).near ∧ t.d.poison = s.d.poison ∧ t.d.regs = s.d.regs ∧ t.d.outbox = s.d.outbox ∧
        t.d.hostMem = s.d.hostMem)) ∧
      Yields (.hdmWrite addr data true) s (fun t =>
        t.d.near = (s.d.putStack addr.toNat data).near ∧ t.d.poisoned addr.toNat = true ∧ t.d.regs = s.d.regs ∧
        t.d.hostMem = s.d.hostMem)) ∧
    (∀ line l, s.d.snoop.find? (fun y => y.line == line && y.asked) = some l →
      (l.inv = true → Yields (.bisnpResponse line) s (fun t =>
        t.d.snoop = s.d.snoop.filter (fun y => y.line != line) ∧ t.d.regs = s.d.regs ∧ t.d.near = s.d.near)) ∧
      (l.inv = false → Yields (.bisnpResponse line) s (fun t =>
        (∀ y ∈ t.d.snoop, y.line = line → y.excl = false ∧ y.asked = false) ∧ t.d.snoop.length = s.d.snoop.length ∧
        t.d.regs = s.d.regs ∧ t.d.near = s.d.near))) ∧
    Yields (.hostSnoop addr) s (fun t => t.d.cxl = s.d.cxl ++ [.miss addr.toNat] ∧ { t.d with cxl := s.d.cxl } = s.d) ∧
    Yields (.uioRequest addr) s (fun t => t.d.cxl = s.d.cxl ++ [.unsupported addr.toNat] ∧ { t.d with cxl := s.d.cxl } = s.d)

/-- R954, R970, R973 to R975, R1081: PERST_N low for 100 µs resets the device and leaves its log, shorter than 1 µs has no effect; a link
that goes down is reported, and comes up again; a failed IDE stream is insecure; an AER error is reported; the decoder commits. -/
def Obligations.LinksAndResets : Prop :=
  ∀ (s : State),
    (∀ us, 100 ≤ us → s.d.power = .up → Yields (.perstN us) s (fun t =>
      t.d.rd P.power F.PW_RESET_CAUSE.CAUSE = 1 ∧ t.d.flag P.tollhouse F.FC_LOG_STAT.WARM = true ∧
      t.d.flag P.boot F.BT_STAT.READY = false ∧ t.d.bootNo = s.d.bootNo ∧ t.d.log = s.d.log ∧ t.d.rings = [] ∧ t.d.reqs = [] ∧
      t.d.snoop = [] ∧ t.d.hostMem = s.d.hostMem ∧ t.d.flash = s.d.flash)) ∧
    Yields (.perstN 0) s (fun t => t.d = s.d) ∧
    (∀ l, l ≤ 1 →
      (s.d.cxlUp l = true → (∀ r ∈ s.d.reqs, r.held = true ∨ (r.tier ≠ 2 ∧ r.tier ≠ 3)) → Yields (.cxlLinkDown l) s (fun t =>
        t.d.cxlUp l = false ∧ t.d.rd P.hostIf (widthFld l) = 0 ∧ t.d.flag P.hostIf F.HI_ERR_LAST.VALID = true ∧
        (s.d.flag P.hostIf F.HI_ERR_LAST.VALID = false → t.d.rd P.hostIf F.HI_ERR_LAST.CAUSE = 1 ∧ t.d.rd P.hostIf F.HI_ERR_LAST.LINK = l) ∧
        t.d.outbox = s.d.outbox ++ [⟨P.hostIf, K.HI_ERR, Cls.DEFERRED, 0, s.now % 2 ^ 32, 1 + 8 * l, none⟩] ∧
        OtherPages s.d t.d P.hostIf ∧ t.d.reqs = s.d.reqs)) ∧
      (s.d.cxlUp l = false → Yields (.cxlLinkDown l) s (fun t => t.d = s.d)) ∧
      (s.d.booted = true → l = 0 ∨ s.d.rd P.hostIf F.HI_LINK_STAT.MODE = 1 → Yields (.cxlLinkUp l) s (fun t =>
        t.d.cxlUp l = true ∧ bitAt (t.d.rd P.clocks F.CK_PHY_LOCK1.CXL) l = true ∧ t.d.reqs = s.d.reqs ∧ t.d.rings = s.d.rings)) ∧
      (s.d.cxlUp l = true → s.d.flag P.hostIf F.HI_LINK_STAT.IDE_CM = true → Yields (.ideFail l) s (fun t =>
        t.d.flag P.hostIf F.HI_LINK_STAT.IDE_CM = false ∧ t.d.flag P.hostIf F.HI_LINK_STAT.IDE_IO = false ∧ l ∈ t.d.ideBad ∧
        t.d.outbox = s.d.outbox ++ [⟨P.hostIf, K.HI_ERR, Cls.DEFERRED, 0, s.now % 2 ^ 32, 2 + 8 * l, none⟩] ∧ t.d.reqs = s.d.reqs)) ∧
      Yields (.aerUncorr l) s (fun t =>
        t.d.outbox = s.d.outbox ++ [⟨P.hostIf, K.HI_ERR, Cls.DEFERRED, 0, s.now % 2 ^ 32, 3 + 8 * l, none⟩] ∧
        t.d.flag P.hostIf F.HI_ERR_LAST.VALID = true ∧ OtherPages s.d t.d P.hostIf)) ∧
    (∀ c, Yields (.hdmDecoderCommit c) s (fun t => t.d.flag P.hostIf F.HI_HDM_CTL.COMMITTED = c ∧ OtherPages s.d t.d P.hostIf))

/-- R1006 to R1013, R1072, R1073, R6: a way that does not reach the device (a link down, a foreign address) answers nothing; VERSION,
CAPABILITIES and ALGORITHMS come in that order and one out of order is an unexpected request; a request of no feature of R1007 is
unsupported and a slot but 0 invalid; sessions are limited; measurements are signed with the alias key, with zeros for the plan when none
is loaded; packets are read oldest first; the sensors take their values. The request and error codes are SPDM's (log entry 64). -/
def Obligations.AttestationAndTelemetry : Prop :=
  ∀ (s : State) (via : MgmtVia) (tr : Nat) (err : Nat → Nat → SpdmAns), tr = via.transport →
    err = (fun code data => ⟨tr, 0x7F, bytesOfNat 1 code ++ bytesOfNat 1 data⟩) →
    (∀ c, s.d.viaUp via = false →
      (∃ code slot, c = .spdmRequest via code slot) ∨ (∃ i slot, c = .getMeasurements via i slot) ∨ c = .mctpPacketRead via →
      Yields c s (fun t => t.d = s.d)) ∧
    (s.d.viaUp via = true →
      (∀ slot, Yields (.spdmRequest via 0x84 slot) s (fun t => t.d.spdmAt tr = { agreed := 1, sessions := 0 } ∧
        t.d.mg.spdmOut = s.d.mg.spdmOut ++ [⟨tr, 0x04, []⟩] ∧ t.d.regs = s.d.regs)) ∧
      (∀ slot, (s.d.spdmAt tr).agreed = 1 → Yields (.spdmRequest via 0xE1 slot) s (fun t => (t.d.spdmAt tr).agreed = 2 ∧
        t.d.mg.spdmOut = s.d.mg.spdmOut ++ [⟨tr, 0x61, []⟩])) ∧
      (∀ slot, (s.d.spdmAt tr).agreed = 2 → Yields (.spdmRequest via 0xE3 slot) s (fun t => (t.d.spdmAt tr).agreed = 3 ∧
        t.d.mg.spdmOut = s.d.mg.spdmOut ++ [⟨tr, 0x63, []⟩])) ∧
      (∀ code slot, spdmKnown code = false → Yields (.spdmRequest via code slot) s (fun t =>
        t.d.mg.spdm = s.d.mg.spdm ∧ t.d.mg.spdmOut = s.d.mg.spdmOut ++ [err 7 code] ∧ t.d.regs = s.d.regs)) ∧
      (∀ code slot, spdmKnown code = true → code ≠ 0x84 → code ≠ 0xE1 → code ≠ 0xE3 → (s.d.spdmAt tr).agreed < 3 →
        Yields (.spdmRequest via code slot) s (fun t =>
          t.d.mg.spdm = s.d.mg.spdm ∧ t.d.mg.spdmOut = s.d.mg.spdmOut ++ [err 4 0] ∧ t.d.regs = s.d.regs)) ∧
      (∀ code slot, code = 0x82 ∨ code = 0x83 ∨ code = 0xE4 → slot ≠ 0 → 3 ≤ (s.d.spdmAt tr).agreed →
        Yields (.spdmRequest via code slot) s (fun t =>
          t.d.mg.spdm = s.d.mg.spdm ∧ t.d.mg.spdmOut = s.d.mg.spdmOut ++ [err 1 0] ∧ t.d.regs = s.d.regs)) ∧
      (3 ≤ (s.d.spdmAt tr).agreed → Yields (.spdmRequest via 0xE4 0) s (fun t =>
        (t.d.spdmAt tr).sessions = min ((s.d.spdmAt tr).sessions + 1) (max (sessionMax tr) (s.d.spdmAt tr).sessions) ∧
        t.d.mg.spdmOut = s.d.mg.spdmOut ++ [if (s.d.spdmAt tr).sessions < sessionMax tr then ⟨tr, 0x64, []⟩ else err 0x0A 0])) ∧
      (∀ i body, 3 ≤ (s.d.spdmAt tr).agreed → i ≤ 7 ∨ i = 0xFF →
        body = (if i = 0 then [7] else if i = 0xFF then (List.range 7).flatMap (fun j => s.d.measurement (j + 1)) else s.d.measurement i) →
        Yields (.getMeasurements via i 0) s (fun t =>
          t.d.mg.spdmOut = s.d.mg.spdmOut ++ [⟨tr, 0x60, body ++ Config.ecdsaSign s.d.dice.aliasKey body⟩] ∧
          (i = 6 → s.d.plan = none → body = List.replicate 48 0) ∧ { t.d with mg.spdmOut := s.d.mg.spdmOut } = s.d)) ∧
      (∀ i slot, 3 ≤ (s.d.spdmAt tr).agreed → slot ≠ 0 ∨ (7 < i ∧ i ≠ 0xFF) → Yields (.getMeasurements via i slot) s (fun t =>
        t.d.mg.spdmOut = s.d.mg.spdmOut ++ [err 1 0] ∧ { t.d with mg.spdmOut := s.d.mg.spdmOut } = s.d)) ∧
      (∀ i slot, (s.d.spdmAt tr).agreed < 3 → Yields (.getMeasurements via i slot) s (fun t =>
        t.d.mg.spdmOut = s.d.mg.spdmOut ++ [err 4 0] ∧ { t.d with mg.spdmOut := s.d.mg.spdmOut } = s.d)) ∧
      (∀ w rest, s.d.mg.mctp = w :: rest → Yields (.mctpPacketRead via) s (fun t =>
        t.d.mg.mctp = rest ∧ t.d.rdata = w.setWidth 512 ∧ t.d.regs = s.d.regs))) ∧
    (s.d.mg.mctp = [] → Yields (.mctpPacketRead via) s (fun t => t.d = s.d)) ∧
    (s.d.booted = true → Yields .pldmSensorUpdate s (fun t =>
      (∃ w, t.d.mg.pldm = [w, s.d.rd P.assayer F.AS_TEMP.MARGIN, s.d.rd P.assayer F.AS_RISK.RISK, s.d.heldSlots, s.d.present.length,
        s.d.ust P.root]) ∧ t.d.regs = s.d.regs)) ∧
    (s.d.booted = false → Yields .pldmSensorUpdate s (fun t => t.d = s.d))

/-! ### Clocks, power and temperature (14) -/

/-- R1027, R1029, R1045 to R1049: loss of lock falls back to the reference with a FATAL message; a PHY whose PLL unlocks is counted and
retrains or goes down; rails rise to a power-on reset and fall with nothing volatile left; an undervoltage of a rail but VDD_MGMT
resets the device; a droop is counted, and reported at most once in 10 µs.
R1027: under FALLBACK the clocks CCLK and BCLK stand still, and a command of a unit that they drive has no effect (which commands
those are is the model's choice, log entry 103).
R1030 to R1036, R1050 to R1054: the governor slows at once when the power is over the cap, speeds up after eight quiet periods with
the voltage first, and follows FIX; each change is logged with its reason; readings are stored; a margin below the warning limits the
clock with one message; a sensor at its trip stops the device but for Tollhouse; the limit ends after one second of margin. -/
def Obligations.ClocksPowerAndHeat : Prop :=
  (∀ (s : State),
    (s.d.flag P.clocks F.CK_STAT.FALLBACK = false → s.d.power = .up → Yields .ckUnlock s (fun t =>
      t.d.flag P.clocks F.CK_STAT.FALLBACK = true ∧ t.d.flag P.clocks F.CK_STAT.VCO_LOCK = false ∧
      t.d.outbox = s.d.outbox ++ [⟨P.clocks, K.CK_UNLOCK, Cls.FATAL, 0, s.now % 2 ^ 32, 0, none⟩] ∧ OtherPages s.d t.d P.clocks)) ∧
    (s.d.flag P.clocks F.CK_STAT.FALLBACK = true ∨ s.d.power ≠ .up → Yields .ckUnlock s (fun t => t.d = s.d)) ∧
    (∀ n, n < 32 → Yields (.phyPllUnlock 0 n) s (fun t =>
      n ∈ t.d.retraining ∧ bitAt (t.d.rd P.clocks F.CK_PHY_LOCK0.G7) n = false ∧
      t.d.rd P.clocks F.CK_UNLOCK_CNT.COUNT = (s.d.rd P.clocks F.CK_UNLOCK_CNT.COUNT + 1) % 2 ^ 32 ∧ OtherPages s.d t.d P.clocks)) ∧
    (∀ n, n < 24 → Yields (.phyPllUnlock 1 n) s (fun t =>
      bitAt (t.d.rd P.clocks F.CK_PHY_LOCK1.KY) n = false ∧ (s.d.link n = Link.UP → t.d.link n = Link.RETRAIN) ∧
      (s.d.link n ≠ Link.UP → t.d.link n = s.d.link n) ∧ t.d.rings = s.d.rings)) ∧
    (∀ n, n < 2 → (∀ r ∈ s.d.reqs, r.held = true ∨ (r.tier ≠ 2 ∧ r.tier ≠ 3)) → Yields (.phyPllUnlock 2 n) s (fun t =>
      bitAt (t.d.rd P.clocks F.CK_PHY_LOCK1.CXL) n = false ∧ t.d.cxlUp n = false ∧ t.d.rings = s.d.rings)) ∧
    (s.d.power = .off → Yields .powerUp s (fun t => t.d.power = .rising ∧ t.d.regs = s.d.regs)) ∧
    (s.d.power = .rising → Yields .powerUpComplete s (fun t =>
      t.d.power = .up ∧ t.d.log = [] ∧ t.d.rings = [] ∧ t.d.flash = s.d.flash ∧ t.d.hostMem = s.d.hostMem ∧ t.d.bootNo = s.d.bootNo)) ∧
    (s.d.power ≠ .rising → Yields .powerUpComplete s (fun t => t.d = s.d)) ∧
    (s.d.power ≠ .off → Yields .inputUndervoltage s (fun t =>
      t.d.power = .off ∧ t.d.log = [] ∧ t.d.rings = [] ∧ t.d.outbox = [] ∧ t.d.flash = s.d.flash ∧ t.d.hostMem = s.d.hostMem)) ∧
    (∀ rail, 2 ≤ rail → rail ≤ 8 → s.d.power = .up → Yields (.railUv rail) s (fun t =>
      t.d.rd P.power F.PW_RESET_CAUSE.CAUSE = 3 ∧ t.d.log = s.d.log ∧ t.d.rings = [] ∧ t.d.hostMem = s.d.hostMem)) ∧
    Yields (.railUv 1) s (fun t => t.d = s.d) ∧
    (∀ span, span < 8 →
      (Tbl.get noNat s.d.droopAt span = 0 → s.d.held (P.span span) < 8 → Yields (.pwDroop span) s (fun t =>
        t.d.rd P.power F.PW_DROOP_CNT.COUNT = (s.d.rd P.power F.PW_DROOP_CNT.COUNT + 1) % 2 ^ 32 ∧
        t.d.outbox = s.d.outbox ++ [⟨P.span span, K.PW_DROOP, Cls.CORRECTED, 0, s.now % 2 ^ 32, 0, none⟩] ∧ OtherPages s.d t.d P.power)) ∧
      (Tbl.get noNat s.d.droopAt span ≠ 0 → s.now + 1 < Tbl.get noNat s.d.droopAt span + 10000 → Yields (.pwDroop span) s (fun t =>
        t.d.rd P.power F.PW_DROOP_CNT.COUNT = (s.d.rd P.power F.PW_DROOP_CNT.COUNT + 1) % 2 ^ 32 ∧ t.d.outbox = s.d.outbox ∧
        OtherPages s.d t.d P.power)))) ∧
  (∀ (s : State) (c : Instr), onCclk c = true → s.d.flag P.clocks F.CK_STAT.FALLBACK = true → Yields c s (fun t => t.d = s.d)) ∧
  (∀ (s : State),
    (∀ w c lo hi cap, s.d.power = .up → s.d.gov.ramp = none → s.d.flag P.power F.PW_GOV_STAT.THERMAL = false →
      c = s.d.rd P.power F.PW_GOV_STAT.DIV → lo = s.d.rd P.power F.PW_GOV_CTL.DIV_MIN → hi = s.d.rd P.power F.PW_GOV_CTL.DIV_MAX →
      cap = s.d.rd P.power F.PW_CAP.WATTS → w < 4096 → lo ≤ c → c ≤ hi → hi < 4 →
      (s.d.rd P.power F.PW_GOV_CTL.FIX = 0 → cap < w → c < hi → Yields (.governorPeriod w) s (fun t =>
        t.d.rd P.power F.PW_GOV_STAT.DIV = c + 1 ∧ t.d.rd P.clocks F.CK_STAT.DIV = c + 1 ∧ t.d.flag P.power F.PW_GOV_STAT.RAMPING = true ∧
        t.d.rdi P.power (s.d.rd P.power F.PW_GOV_LOG_SEL.TOTAL % 16) F.PW_GOV_LOG_DATA.OLD = c ∧
        t.d.rdi P.power (s.d.rd P.power F.PW_GOV_LOG_SEL.TOTAL % 16) F.PW_GOV_LOG_DATA.NEW = c + 1 ∧
        t.d.rdi P.power (s.d.rd P.power F.PW_GOV_LOG_SEL.TOTAL % 16) F.PW_GOV_LOG_DATA.REASON = 0 ∧
        t.d.rd P.power F.PW_GOV_STAT.LAST_W = w ∧ t.d.gov.quiet = 0)) ∧
      (s.d.rd P.power F.PW_GOV_CTL.FIX = 0 → cap < w → c = hi → Yields (.governorPeriod w) s (fun t =>
        t.d.rd P.power F.PW_GOV_STAT.DIV = c ∧ t.d.flag P.power F.PW_GOV_STAT.CAP_UNMET = true ∧ t.d.outbox = s.d.outbox)) ∧
      (s.d.rd P.power F.PW_GOV_CTL.FIX = 0 → w * govFactor c * 16 < cap * 15 * 100 → w ≤ cap → lo < c →
        (s.d.gov.quiet < 7 → Yields (.governorPeriod w) s (fun t =>
          t.d.rd P.power F.PW_GOV_STAT.DIV = c ∧ t.d.gov.quiet = s.d.gov.quiet + 1 ∧ t.d.gov.ramp = none ∧ t.d.outbox = s.d.outbox)) ∧
        (7 ≤ s.d.gov.quiet → Yields (.governorPeriod w) s (fun t =>
          t.d.rd P.power F.PW_GOV_STAT.DIV = c ∧ t.d.gov.ramp = some (c - 1) ∧ t.d.gov.quiet = 0 ∧
          t.d.flag P.power F.PW_GOV_STAT.RAMPING = true))) ∧
      (∀ fix, s.d.rd P.power F.PW_GOV_CTL.FIX = fix + 1 → lo ≤ fix → fix ≤ hi → c < fix → Yields (.governorPeriod w) s (fun t =>
        t.d.rd P.power F.PW_GOV_STAT.DIV = fix ∧
        t.d.rdi P.power (s.d.rd P.power F.PW_GOV_LOG_SEL.TOTAL % 16) F.PW_GOV_LOG_DATA.REASON = 2))) ∧
    (∀ c, s.d.gov.ramp = some c → Yields .voltageRampDone s (fun t =>
      t.d.rd P.power F.PW_GOV_STAT.DIV = c % 4 ∧ t.d.rd P.clocks F.CK_STAT.DIV = c % 4 ∧ t.d.gov.ramp = none ∧
      t.d.rd P.power F.PW_GOV_STAT.RAMPING = bit s.d.gov.lowering ∧ t.d.outbox = s.d.outbox)) ∧
    (s.d.gov.ramp = none → Yields .voltageRampDone s (fun t => t.d = s.d)) ∧
    Yields .voltageLowerDone s (fun t => t.d.gov = { s.d.gov with lowering := false } ∧
      t.d.rd P.power F.PW_GOV_STAT.RAMPING = bit s.d.gov.ramp.isSome ∧
      t.d.rd P.power F.PW_GOV_STAT.DIV = s.d.rd P.power F.PW_GOV_STAT.DIV ∧ OtherPages s.d t.d P.power) ∧
    (∀ temps, s.d.power = .up →
      ((∀ x ∈ s.d.readings temps, x.2 < s.d.tripOf x.1) → Yields (.sensorRead temps) s (fun t =>
        t.d.power = .up ∧
        (∀ i, i < temps.length → s.d.sensorThere i = true →
          t.d.rdi P.power i F.PW_TH_DATA.TEMP = min (temps.getD i 0) 255 ∧ t.d.rdi P.power i F.PW_TH_DATA.VALID = 1) ∧
        (∀ m i, s.d.minMargin (s.d.readings temps) = some (m, i) →
          t.d.rd P.power F.PW_TH_MIN.MARGIN = m % 256 ∧ t.d.rd P.power F.PW_TH_MIN.SENSOR = i % 128 ∧
          (m < s.d.gov.warn → s.d.gov.warned = false → t.d.gov.warned = true ∧
            (s.d.gov.thEn = true → t.d.flag P.power F.PW_GOV_STAT.THERMAL = true) ∧
            t.d.outbox = s.d.outbox ++ [⟨P.power, K.TH_WARN, Cls.DEFERRED, 0, s.now % 2 ^ 32, 0, none⟩]) ∧
          (s.d.gov.warn ≤ m ∨ s.d.gov.warned = true → t.d.outbox = s.d.outbox)) ∧
        t.d.rings = s.d.rings ∧ t.d.spad = s.d.spad)) ∧
      ((∃ x ∈ s.d.readings temps, s.d.tripOf x.1 ≤ x.2) → Yields (.sensorRead temps) s (fun t =>
        t.d.power = .tripped ∧ t.d.thermTrip = true ∧ t.d.log = s.d.log ∧ t.d.rings = [] ∧ t.d.hostMem = s.d.hostMem ∧
        (⟨P.power, K.TH_TRIP, Cls.FATAL, 0, s.now % 2 ^ 32, 0, none⟩ : Msg) ∈ t.d.outbox))) ∧
    (∀ t0, s.d.gov.above = some t0 → s.d.gov.warned = true →
      (t0 + 1000000000 ≤ s.now → Yields .thermalClear s (fun t =>
        t.d.gov.warned = false ∧ t.d.flag P.power F.PW_GOV_STAT.THERMAL = false ∧ OtherPages s.d t.d P.power)) ∧
      (s.now < t0 + 1000000000 → Yields .thermalClear s (fun t => t.d = s.d))))

/-! ### The viaduct (10) and the register pages (02) -/

/-- R97 to R101, R817 to R824: the group page of a member: the root applies a write to its own root page, a non-member ignores it; a
forwarded write is applied when it comes from who may send it; contributions and aggregates are kept with their arrival, and one
from elsewhere is a strike or is dropped in quarantine; each period the root makes the aggregate, and no earlier. -/
def Obligations.Viaduct : Prop :=
  ∀ (s : State),
    (∀ v : Word, s.d.hostUp = true → s.d.vgMember = true →
      Yields (.groupPageWrite 0x38 v) s (fun t => t.d.rd P.group F.UNIT_SCRATCH.SCRATCH = v.toNat ∧ OtherPages s.d t.d P.group ∧
        t.d.wire = s.d.wire) ∧
      (s.d.vgRank = 0 → Yields (.groupPageWrite 0x28 v) s (fun t =>
        t.d.rd P.root F.UNIT_ERR_EN.ILLEGAL_WRITE = bitsOf v.toNat 0 1 ∧ t.d.rd P.root F.UNIT_ERR_EN.BLOCK_ERR = bitsOf v.toNat 16 32)) ∧
      (0 < s.d.vgRank → Yields (.groupPageWrite 0x28 v) s (fun t =>
        t.d.rd P.root F.UNIT_ERR_EN.ILLEGAL_WRITE = s.d.rd P.root F.UNIT_ERR_EN.ILLEGAL_WRITE))) ∧
    (∀ off v, s.d.hostUp = true → s.d.vgMember = false → accessOk off 8 = true → Yields (.groupPageWrite off v) s (fun t => t.d = s.d)) ∧
    (∀ off v, s.d.hostUp = false → Yields (.groupPageWrite off v) s (fun t => t.d = s.d)) ∧
    (∀ src (v : Word) e, e = s.d.vgTake Op.VGW src →
      ((e.vgRank = 0 ∧ e.vgMember = true ∧ e.vgList.contains src = true ∧ e.quarantined src = false) ∨
        (0 < e.vgRank ∧ e.fromParent src = true) → Yields (.vgw src 0x28 v) s (fun t =>
        t.d.rd P.root F.UNIT_ERR_EN.ILLEGAL_WRITE = bitsOf v.toNat 0 1)) ∧
      (e.vgMember = false → e.quarantined src = true → Yields (.vgw src 0x28 v) s (fun t =>
        t.d.rd P.kyino F.KY_QUAR_DROP_CNT.COUNT = (e.rd P.kyino F.KY_QUAR_DROP_CNT.COUNT + 1) % 2 ^ 32 ∧
        t.d.rd P.root F.UNIT_ERR_EN.ILLEGAL_WRITE = e.rd P.root F.UNIT_ERR_EN.ILLEGAL_WRITE))) ∧
    (∀ src ws c e, e = s.d.vgTake Op.VGC src → e.vgMember = true → e.quarantined src = false →
      (vgChildren e.vgCount e.vgRank).find? (fun c => e.vgList[c]? == some src) = some c → Yields (.vgc src ws) s (fun t =>
        Tbl.get noVgc t.d.vgcs c = some (s.now, ws) ∧ (∀ j, j ≠ c → Tbl.get noVgc t.d.vgcs j = Tbl.get noVgc e.vgcs j) ∧
        t.d.vga = e.vga ∧ t.d.regs = e.regs)) ∧
    (∀ src ws e, e = s.d.vgTake Op.VGA src → e.fromParent src = true → Yields (.vga src ws) s (fun t =>
      t.d.vga = some (s.now, ws) ∧ t.d.vgcs = e.vgcs)) ∧
    (s.d.vgMember = true → s.d.vgAt + s.d.rd P.kyino F.KY_VG_CTL.PERIOD_US * 1000 ≤ s.now → Yields .vgcPeriod s (fun t =>
      t.d.vgAt = s.now ∧ t.d.vgcs = s.d.vgcs ∧ (s.d.vgRank = 0 → t.d.vga = some (s.now, (s.d.vgSum s.now).words)) ∧
      (0 < s.d.vgRank → t.d.vga = s.d.vga))) ∧
    (s.d.vgMember = false ∨ s.now < s.d.vgAt + s.d.rd P.kyino F.KY_VG_CTL.PERIOD_US * 1000 → Yields .vgcPeriod s (fun t => t.d = s.d))

/-- R49, R57 to R66, R68, R500, R1014, R1015: register accesses: UNIT_ID reads as the unit's and an empty page as zero; UNIT_SCRATCH
stores; a write of UNIT_CTL is its command (a reset by it succeeds); an access of a bad size or alignment sets ACCESS_SIZE and is not made; a unit held in
reset takes no write (log entry 58); a page that a source does not reach reads zero and takes no write; a read over the
management path waits for the bus owner, and a message that does not reach the device, comes over DOE or has another vendor ID has no
effect. -/
def Obligations.RegisterPages : Prop :=
  ∀ (s : State) (p : Nat),
    (∀ src, s.d.srcUp src p false = true → p ≠ P.group →
      ((kindOf p).isSome = true → Yields (.registerRead src p 0 8) s (fun t =>
        t.d.rdata = BitVec.ofNat 512 (unitId p) ∧ t.d.outbox = s.d.outbox ∧ t.d.spad = s.d.spad)) ∧
      (∀ off size, kindOf p = none → accessOk off size = true → widthFits src size = true →
        Yields (.registerRead src p off size) s (fun t => t.d.rdata = 0 ∧ t.d.regs = s.d.regs ∧ t.d.outbox = s.d.outbox))) ∧
    (∀ src off size, s.d.srcUp src p false = false → Yields (.registerRead src p off size) s (fun t =>
      t.d.rdata = 0 ∧ { t.d with rdata := s.d.rdata } = s.d)) ∧
    (∀ src off size v, s.d.srcUp src p true = false → Yields (.registerWrite src p off size v) s (fun t => t.d = s.d)) ∧
    (∀ src, s.d.srcUp src p true = true → (kindOf p).isSome = true → p ≠ P.group →
      (s.d.heldInReset p = false → ∀ v : Word, Yields (.registerWrite src p 0x38 8 v) s (fun t =>
        t.d.rd p F.UNIT_SCRATCH.SCRATCH = v.toNat ∧ OtherPages s.d t.d p ∧ t.d.outbox = s.d.outbox ∧ t.d.spad = s.d.spad)) ∧
      (s.d.heldInReset p = false →
        exec (.registerWrite src p 0x10 8 1) s = exec (.unitEnable p) s ∧ exec (.registerWrite src p 0x10 8 0) s = exec (.unitDisable p) s ∧
        exec (.registerWrite src p 0x10 8 2) s = exec (.blockReset p true) s ∧ exec (.registerWrite src p 0x10 8 4) s = exec (.fence p) s ∧
        exec (.registerWrite src p 0x10 8 8) s = exec (.release p) s) ∧
      (s.d.heldInReset p = true → ∀ off size v, accessOk off size = true → widthFits src size = true →
        Yields (.registerWrite src p off size v) s (fun t => t.d = s.d)) ∧
      (∀ off size v, accessOk off size = false → widthFits src size = true → Yields (.registerWrite src p off size v) s (fun t =>
        t.d.flag p F.UNIT_ERR.ACCESS_SIZE = true ∧ t.d.rd p F.UNIT_SCRATCH.SCRATCH = s.d.rd p F.UNIT_SCRATCH.SCRATCH ∧
        t.d.spad = s.d.spad))) ∧
    (∀ via off v, s.d.viaUp via = true → via ≠ .doe → kindOf p = none → accessOk off 8 = true →
      Yields (.mctpRegisterAccess false p off v via) s (fun t =>
        t.d.mg.mctp = s.d.mg.mctp ++ [0] ∧ t.d.regs = s.d.regs)) ∧
    (∀ via off v, s.d.viaUp via = true → via ≠ .doe → mgmtWrites p = true → (kindOf p).isSome = true → s.d.heldInReset p = false →
      off = 0x38 → Yields (.mctpRegisterAccess true p off v via) s (fun t =>
        t.d.rd p F.UNIT_SCRATCH.SCRATCH = v.toNat ∧ OtherPages s.d t.d p ∧ t.d.mg = s.d.mg)) ∧
    (∀ via vendor off v, mgmtWrites p = false → Yields (.mctpRegisterAccess true p off v via vendor) s (fun t => t.d = s.d)) ∧
    (∀ via vendor w off v, s.d.viaUp via = false ∨ via = .doe ∨ vendor ≠ Config.vendorId.toNat →
      Yields (.mctpRegisterAccess w p off v via vendor) s (fun t => t.d = s.d))

/-! ### The block as a whole -/

/-- A step takes the command at the front of the queue and answers what `exec` answers on the rest of it; with no command waiting, one
clock cycle passes (the model's choice, log entry 1): the units that were OFF for one cycle start (R93). With no
fill in progress, what belongs to one MCLK cycle is over (R14, R15, R94, R131; a stall that ends counts in the new one), no ring, memory or log changes, and two entries of the
amax/scale table roll where a roll is on (R219); with CCLK and BCLK stopped no register changes but those of the units that start. -/
def Obligations.StepRunsCommand : Prop :=
  (∀ (s : State) (c : Instr) (rest : List Instr), step { s with pending := c :: rest } = exec c { s with pending := rest }) ∧
  (∀ (s : State), s.pending = [] → ∃ t, step s = .next t ∧ t.pending = [] ∧ s.now ≤ t.now ∧ t.frac < 270000 ∧
    (∀ p, s.d.cyc.restartNext = [p] → s.d.ust p = U.OFF → s.d.flag p F.UNIT_CTL.ENABLE = true → s.d.parentOn p = true →
      s.d.heldOff p = false → t.d.ust p = U.STARTING) ∧
    (s.d.fills = [] → (s.d.stalls = [] → t.d.cyc = {}) ∧ t.d.rings = s.d.rings ∧ t.d.spad = s.d.spad ∧ t.d.near = s.d.near ∧ t.d.log = s.d.log ∧
      (∀ e last, s.d.clocked = true → s.d.roll = some (e, last) → e + 1 < last → t.d.roll = some (e + 2, last))) ∧
    (s.d.clocked = false → t.d.cclk = s.d.cclk ∧ t.d.watch = s.d.watch ∧ t.d.amax = s.d.amax ∧
      ∀ p, p ∉ s.d.cyc.restartNext → p ≠ P.root → ∀ (f : Fld), t.d.rd p f = s.d.rd p f))

/-- R43, R78, R200, R850, R976, R988: the block right after reset: no command waits, PHASE reads BOOT, no unit is ON and boot has not run;
every entry of the amax/scale table has scale 1.0 and history 0; the rings and the log are empty; and its memories are canonical. -/
def Obligations.ResetState : Prop :=
  State.reset.pending = [] ∧ State.reset.d.fcPhase = 0 ∧ State.reset.d.flag P.boot F.BT_STAT.READY = false ∧
  State.reset.d.unbooted = true ∧ State.reset.d.rd P.boot F.BT_MAX_ATTEMPTS.COUNT = 3 ∧ State.reset.d.plan = none ∧
  (∀ p, State.reset.d.ust p = U.OFF) ∧
  (∀ e, e < 4096 → State.reset.d.amaxWord e 0 = 0x3F8000003F800000 ∧ State.reset.d.amaxWord e 1 = 0) ∧
  (∀ k, State.reset.d.ring k = {}) ∧ (∀ k, (State.reset.d.slot k).state = 0) ∧
  Memory.wf State.reset.d = true

/-- Every command leaves the queue as it finds it, and every command has its effect: none ends in a fault or a refusal.
Only a command of time synchronisation steps device time or changes its slew; every other command leaves both (R786 to R789). -/
def Obligations.CommandsComplete : Prop :=
  (∀ (c : Instr) (s : State), ∃ t, exec c s = .next t ∧ t.pending = s.pending) ∧
  (∀ (c : Instr) (s t : State), exec c s = .next t → (∀ p src t4, c ≠ .tdrsp p src t4) →
    t.now = s.now ∧ t.frac = s.frac ∧ t.slew = s.slew)

/-- R789: "Device time never decreases." Whatever a step does, device time after it is no earlier than before. -/
def Obligations.TimeNeverDecreases : Prop :=
  ∀ (s t : State), step s = .next t → s.now ≤ t.now

/-- Every step keeps the memories in canonical form: addresses strictly rising, and no entry equal to what an unlisted address reads as. -/
def Obligations.MemoriesStayCanonical : Prop :=
  ∀ (s t : State), Memory.wf s.d = true → step s = .next t → Memory.wf t.d = true
end

