-- ==== Sys2Proof/Laws/Tbl.lean ====
section
/-!
SUPPORT. Sys2Proof/Laws/Tbl.lean: what the table operations do, said once: a read after a write, the frame
of a write, and that every operation keeps the canonical form.
-/

namespace Sys2Proof.Machine

variable {α : Type}

theorem Tbl.get_insert_same (dflt : Nat → α) (t : Tbl α) (k : Nat) (v : α) :
    Tbl.get dflt (Tbl.insert t k v) k = v := by
  induction t with
  | nil => simp [Tbl.insert, Tbl.get]
  | cons c rest ih =>
    obtain ⟨k', v'⟩ := c
    simp only [Tbl.insert]
    split
    · simp [Tbl.get]
    · split
      · simp [Tbl.get]
      · rename_i h; simp [Tbl.get, h, ih]

theorem Tbl.get_insert_other (dflt : Nat → α) (t : Tbl α) {k j : Nat} (v : α) (h : j ≠ k) :
    Tbl.get dflt (Tbl.insert t k v) j = Tbl.get dflt t j := by
  induction t with
  | nil => simp [Tbl.insert, Tbl.get, h]
  | cons c rest ih =>
    obtain ⟨k', v'⟩ := c
    simp only [Tbl.insert]
    split
    · simp [Tbl.get, h]
    · split
      · rename_i h1; subst h1; simp [Tbl.get, h]
      · simp only [Tbl.get, ih]

theorem Tbl.get_erase_same (dflt : Nat → α) (t : Tbl α) (k : Nat) :
    Tbl.get dflt (Tbl.erase t k) k = dflt k := by
  induction t with
  | nil => rfl
  | cons c rest ih =>
    obtain ⟨k', v'⟩ := c
    simp only [Tbl.erase]
    split
    · exact ih
    · rename_i h; simp only [Tbl.get, ih]; split
      · rename_i e; exact absurd e.symm h
      · rfl

theorem Tbl.get_erase_other (dflt : Nat → α) (t : Tbl α) {k j : Nat} (h : j ≠ k) :
    Tbl.get dflt (Tbl.erase t k) j = Tbl.get dflt t j := by
  induction t with
  | nil => rfl
  | cons c rest ih =>
    obtain ⟨k', v'⟩ := c
    simp only [Tbl.erase]
    split
    · rename_i e; subst e; simp [Tbl.get, h, ih]
    · simp only [Tbl.get, ih]

@[simp] theorem Tbl.get_set_same [DecidableEq α] (dflt : Nat → α) (t : Tbl α) (k : Nat) (v : α) :
    Tbl.get dflt (Tbl.set dflt t k v) k = v := by
  unfold Tbl.set; split
  · rename_i h; rw [Tbl.get_erase_same, h]
  · exact Tbl.get_insert_same dflt t k v

theorem Tbl.get_set_other [DecidableEq α] (dflt : Nat → α) (t : Tbl α) {k j : Nat} (v : α) (h : j ≠ k) :
    Tbl.get dflt (Tbl.set dflt t k v) j = Tbl.get dflt t j := by
  unfold Tbl.set; split
  · exact Tbl.get_erase_other dflt t h
  · exact Tbl.get_insert_other dflt t v h

theorem Tbl.get_set [DecidableEq α] (dflt : Nat → α) (t : Tbl α) (k j : Nat) (v : α) :
    Tbl.get dflt (Tbl.set dflt t k v) j = if j = k then v else Tbl.get dflt t j := by
  split
  · rename_i h; subst h; simp
  · rename_i h; exact Tbl.get_set_other dflt t v h

theorem Tbl.erase_keys_gt (t : Tbl α) (k n : Nat) (h : t.all (fun c => decide (n < c.1)) = true) :
    (Tbl.erase t k).all (fun c => decide (n < c.1)) = true := by
  induction t with
  | nil => rfl
  | cons c rest ih =>
    obtain ⟨k', v'⟩ := c
    simp only [List.all_cons, Bool.and_eq_true] at h
    simp only [Tbl.erase]
    split
    · exact ih h.2
    · simp only [List.all_cons, Bool.and_eq_true]; exact ⟨h.1, ih h.2⟩

theorem Tbl.insert_keys_gt (t : Tbl α) (k n : Nat) (v : α) (hk : n < k)
    (h : t.all (fun c => decide (n < c.1)) = true) :
    (Tbl.insert t k v).all (fun c => decide (n < c.1)) = true := by
  induction t with
  | nil => simp [Tbl.insert, hk]
  | cons c rest ih =>
    obtain ⟨k', v'⟩ := c
    simp only [List.all_cons, Bool.and_eq_true] at h
    simp only [Tbl.insert]
    split
    · simp [hk, h.1]; simpa using h.2
    · split
      · simp [hk]; simpa using h.2
      · simp only [List.all_cons, Bool.and_eq_true]; exact ⟨h.1, ih h.2⟩

theorem Tbl.wf_erase [DecidableEq α] (dflt : Nat → α) (t : Tbl α) (k : Nat) (h : Tbl.wf dflt t = true) :
    Tbl.wf dflt (Tbl.erase t k) = true := by
  induction t with
  | nil => rfl
  | cons c rest ih =>
    obtain ⟨k', v'⟩ := c
    simp only [Tbl.wf, Bool.and_eq_true] at h
    simp only [Tbl.erase]
    split
    · exact ih h.2
    · simp only [Tbl.wf, Bool.and_eq_true]
      exact ⟨⟨h.1.1, Tbl.erase_keys_gt rest k k' h.1.2⟩, ih h.2⟩

theorem Tbl.wf_insert [DecidableEq α] (dflt : Nat → α) (t : Tbl α) (k : Nat) (v : α) (hv : v ≠ dflt k)
    (h : Tbl.wf dflt t = true) : Tbl.wf dflt (Tbl.insert t k v) = true := by
  induction t with
  | nil => simp [Tbl.insert, Tbl.wf, hv]
  | cons c rest ih =>
    obtain ⟨k', v'⟩ := c
    simp only [Tbl.wf, Bool.and_eq_true] at h
    simp only [Tbl.insert]
    split
    · rename_i hlt
      simp only [Tbl.wf, Bool.and_eq_true, List.all_cons]
      refine ⟨⟨by simpa using hv, by simpa using hlt, ?_⟩, h⟩
      have := h.1.2
      simp only [List.all_eq_true] at *
      intro c hc; have := this c hc; simp at *; omega
    · split
      · rename_i he; subst he
        simp only [Tbl.wf, Bool.and_eq_true]
        exact ⟨⟨by simpa using hv, h.1.2⟩, h.2⟩
      · rename_i h1 h2
        simp only [Tbl.wf, Bool.and_eq_true]
        exact ⟨⟨h.1.1, Tbl.insert_keys_gt rest k k' v (by omega) h.1.2⟩, ih h.2⟩

/-- A write keeps the canonical form. -/
theorem Tbl.wf_set [DecidableEq α] (dflt : Nat → α) (t : Tbl α) (k : Nat) (v : α) (h : Tbl.wf dflt t = true) :
    Tbl.wf dflt (Tbl.set dflt t k v) = true := by
  unfold Tbl.set; split
  · exact Tbl.wf_erase dflt t k h
  · rename_i hv; exact Tbl.wf_insert dflt t k v hv h

/-- A run of writes keeps the canonical form. -/
theorem Tbl.wf_setAll [DecidableEq α] (dflt : Nat → α) (vs : List α) (t : Tbl α) (k : Nat)
    (h : Tbl.wf dflt t = true) : Tbl.wf dflt (Tbl.setAll dflt t k vs) = true := by
  induction vs generalizing t k with
  | nil => exact h
  | cons v vs ih => exact ih _ _ (Tbl.wf_set dflt t k v h)

end Sys2Proof.Machine
end

