-- ==== Sys2Proof/Laws/State.lean ====
section
/-!
SUPPORT. Sys2Proof/Laws/State.lean: what an update of the state leaves alone, field by field, so that no proof unfolds a
record update: the effect of a command (`upd`), a register write (`wri`), a message (`send`) and the stores by unit.
-/

namespace Sys2Proof.Machine

/-! ### The state around the block -/

@[simp] theorem upd_def (s : State) (f : Dev → Dev) : upd s f = .next { s with d := f s.d } := rfl

/-! ### Register writes -/

@[simp] theorem Dev.wr_eq_wri (d : Dev) (p : Nat) (f : Fld) (v : Nat) : d.wr p f v = d.wri p 0 f v := rfl
@[simp] theorem Dev.rd_eq_rdi (d : Dev) (p : Nat) (f : Fld) : d.rd p f = d.rdi p 0 f := rfl
@[simp] theorem Dev.wri_marks (d : Dev) (p i v : Nat) (g : Fld) : (d.wri p i g v).marks = d.marks := rfl
@[simp] theorem Dev.wri_noService (d : Dev) (p i v : Nat) (g : Fld) : (d.wri p i g v).noService = d.noService := rfl
@[simp] theorem Dev.wri_resetTiles (d : Dev) (p i v : Nat) (g : Fld) : (d.wri p i g v).resetTiles = d.resetTiles := rfl
@[simp] theorem Dev.wri_rings (d : Dev) (p i v : Nat) (g : Fld) : (d.wri p i g v).rings = d.rings := rfl
@[simp] theorem Dev.wri_kill (d : Dev) (p i v : Nat) (g : Fld) : (d.wri p i g v).kill = d.kill := rfl
@[simp] theorem Dev.wri_amax (d : Dev) (p i v : Nat) (g : Fld) : (d.wri p i g v).amax = d.amax := rfl
@[simp] theorem Dev.wri_roll (d : Dev) (p i v : Nat) (g : Fld) : (d.wri p i g v).roll = d.roll := rfl
@[simp] theorem Dev.wri_mes (d : Dev) (p i v : Nat) (g : Fld) : (d.wri p i g v).mes = d.mes := rfl
@[simp] theorem Dev.wri_sfs (d : Dev) (p i v : Nat) (g : Fld) : (d.wri p i g v).sfs = d.sfs := rfl
@[simp] theorem Dev.wri_plan (d : Dev) (p i v : Nat) (g : Fld) : (d.wri p i g v).plan = d.plan := rfl
@[simp] theorem Dev.wri_circs (d : Dev) (p i v : Nat) (g : Fld) : (d.wri p i g v).circs = d.circs := rfl
@[simp] theorem Dev.wri_tgs (d : Dev) (p i v : Nat) (g : Fld) : (d.wri p i g v).tgs = d.tgs := rfl
@[simp] theorem Dev.wri_descs (d : Dev) (p i v : Nat) (g : Fld) : (d.wri p i g v).descs = d.descs := rfl
@[simp] theorem Dev.wri_ioDrains (d : Dev) (p i v : Nat) (g : Fld) : (d.wri p i g v).ioDrains = d.ioDrains := rfl
@[simp] theorem Dev.wri_load (d : Dev) (p i v : Nat) (g : Fld) : (d.wri p i g v).load = d.load := rfl
@[simp] theorem Dev.wri_staleSeen (d : Dev) (p i v : Nat) (g : Fld) : (d.wri p i g v).staleSeen = d.staleSeen := rfl
@[simp] theorem Dev.wri_watch (d : Dev) (p i v : Nat) (g : Fld) : (d.wri p i g v).watch = d.watch := rfl
@[simp] theorem Dev.wri_spad (d : Dev) (p i v : Nat) (g : Fld) : (d.wri p i g v).spad = d.spad := rfl
@[simp] theorem Dev.wri_spTags (d : Dev) (p i v : Nat) (g : Fld) : (d.wri p i g v).spTags = d.spTags := rfl
@[simp] theorem Dev.wri_spTagBase (d : Dev) (p i v : Nat) (g : Fld) : (d.wri p i g v).spTagBase = d.spTagBase := rfl
@[simp] theorem Dev.wri_spReqs (d : Dev) (p i v : Nat) (g : Fld) : (d.wri p i g v).spReqs = d.spReqs := rfl
@[simp] theorem Dev.wri_spFix (d : Dev) (p i v : Nat) (g : Fld) : (d.wri p i g v).spFix = d.spFix := rfl
@[simp] theorem Dev.wri_spLast (d : Dev) (p i v : Nat) (g : Fld) : (d.wri p i g v).spLast = d.spLast := rfl
@[simp] theorem Dev.wri_apQ (d : Dev) (p i v : Nat) (g : Fld) : (d.wri p i g v).apQ = d.apQ := rfl
@[simp] theorem Dev.wri_winWrites (d : Dev) (p i v : Nat) (g : Fld) : (d.wri p i g v).winWrites = d.winWrites := rfl
@[simp] theorem Dev.wri_caches (d : Dev) (p i v : Nat) (g : Fld) : (d.wri p i g v).caches = d.caches := rfl
@[simp] theorem Dev.wri_plru (d : Dev) (p i v : Nat) (g : Fld) : (d.wri p i g v).plru = d.plru := rfl
@[simp] theorem Dev.wri_near (d : Dev) (p i v : Nat) (g : Fld) : (d.wri p i g v).near = d.near := rfl
@[simp] theorem Dev.wri_nearGen (d : Dev) (p i v : Nat) (g : Fld) : (d.wri p i g v).nearGen = d.nearGen := rfl
@[simp] theorem Dev.wri_poison (d : Dev) (p i v : Nat) (g : Fld) : (d.wri p i g v).poison = d.poison := rfl
@[simp] theorem Dev.wri_hostMem (d : Dev) (p i v : Nat) (g : Fld) : (d.wri p i g v).hostMem = d.hostMem := rfl
@[simp] theorem Dev.wri_fabric (d : Dev) (p i v : Nat) (g : Fld) : (d.wri p i g v).fabric = d.fabric := rfl
@[simp] theorem Dev.wri_outbox (d : Dev) (p i v : Nat) (g : Fld) : (d.wri p i g v).outbox = d.outbox := rfl
@[simp] theorem Dev.wri_log (d : Dev) (p i v : Nat) (g : Fld) : (d.wri p i g v).log = d.log := rfl
@[simp] theorem Dev.wri_graces (d : Dev) (p i v : Nat) (g : Fld) : (d.wri p i g v).graces = d.graces := rfl
@[simp] theorem Dev.wri_ladders (d : Dev) (p i v : Nat) (g : Fld) : (d.wri p i g v).ladders = d.ladders := rfl
@[simp] theorem Dev.wri_logBuf (d : Dev) (p i v : Nat) (g : Fld) : (d.wri p i g v).logBuf = d.logBuf := rfl
@[simp] theorem Dev.wri_reactWritten (d : Dev) (p i v : Nat) (g : Fld) : (d.wri p i g v).reactWritten = d.reactWritten := rfl
@[simp] theorem Dev.wri_msix (d : Dev) (p i v : Nat) (g : Fld) : (d.wri p i g v).msix = d.msix := rfl
@[simp] theorem Dev.wri_firstTraps (d : Dev) (p i v : Nat) (g : Fld) : (d.wri p i g v).firstTraps = d.firstTraps := rfl
@[simp] theorem Dev.wri_runs (d : Dev) (p i v : Nat) (g : Fld) : (d.wri p i g v).runs = d.runs := rfl
@[simp] theorem Dev.wri_readers (d : Dev) (p i v : Nat) (g : Fld) : (d.wri p i g v).readers = d.readers := rfl
@[simp] theorem Dev.wri_fills (d : Dev) (p i v : Nat) (g : Fld) : (d.wri p i g v).fills = d.fills := rfl
@[simp] theorem Dev.wri_reqs (d : Dev) (p i v : Nat) (g : Fld) : (d.wri p i g v).reqs = d.reqs := rfl
@[simp] theorem Dev.wri_nextReq (d : Dev) (p i v : Nat) (g : Fld) : (d.wri p i g v).nextReq = d.nextReq := rfl
@[simp] theorem Dev.wri_stalls (d : Dev) (p i v : Nat) (g : Fld) : (d.wri p i g v).stalls = d.stalls := rfl
@[simp] theorem Dev.wri_tcache (d : Dev) (p i v : Nat) (g : Fld) : (d.wri p i g v).tcache = d.tcache := rfl
@[simp] theorem Dev.wri_invPage (d : Dev) (p i v : Nat) (g : Fld) : (d.wri p i g v).invPage = d.invPage := rfl
@[simp] theorem Dev.wri_retires (d : Dev) (p i v : Nat) (g : Fld) : (d.wri p i g v).retires = d.retires := rfl
@[simp] theorem Dev.wri_migrations (d : Dev) (p i v : Nat) (g : Fld) : (d.wri p i g v).migrations = d.migrations := rfl
@[simp] theorem Dev.wri_ceCounts (d : Dev) (p i v : Nat) (g : Fld) : (d.wri p i g v).ceCounts = d.ceCounts := rfl
@[simp] theorem Dev.wri_ceTold (d : Dev) (p i v : Nat) (g : Fld) : (d.wri p i g v).ceTold = d.ceTold := rfl
@[simp] theorem Dev.wri_retWindow (d : Dev) (p i v : Nat) (g : Fld) : (d.wri p i g v).retWindow = d.retWindow := rfl
@[simp] theorem Dev.wri_sparesOut (d : Dev) (p i v : Nat) (g : Fld) : (d.wri p i g v).sparesOut = d.sparesOut := rfl
@[simp] theorem Dev.wri_patrolAt (d : Dev) (p i v : Nat) (g : Fld) : (d.wri p i g v).patrolAt = d.patrolAt := rfl
@[simp] theorem Dev.wri_patrolRows (d : Dev) (p i v : Nat) (g : Fld) : (d.wri p i g v).patrolRows = d.patrolRows := rfl
@[simp] theorem Dev.wri_rowMeta (d : Dev) (p i v : Nat) (g : Fld) : (d.wri p i g v).rowMeta = d.rowMeta := rfl
@[simp] theorem Dev.wri_flashRetired (d : Dev) (p i v : Nat) (g : Fld) : (d.wri p i g v).flashRetired = d.flashRetired := rfl
@[simp] theorem Dev.wri_retraining (d : Dev) (p i v : Nat) (g : Fld) : (d.wri p i g v).retraining = d.retraining := rfl
@[simp] theorem Dev.wri_probeFailed (d : Dev) (p i v : Nat) (g : Fld) : (d.wri p i g v).probeFailed = d.probeFailed := rfl
@[simp] theorem Dev.wri_expDown (d : Dev) (p i v : Nat) (g : Fld) : (d.wri p i g v).expDown = d.expDown := rfl
@[simp] theorem Dev.wri_carters (d : Dev) (p i v : Nat) (g : Fld) : (d.wri p i g v).carters = d.carters := rfl
@[simp] theorem Dev.wri_nmScrub (d : Dev) (p i v : Nat) (g : Fld) : (d.wri p i g v).nmScrub = d.nmScrub := rfl
@[simp] theorem Dev.wri_copies (d : Dev) (p i v : Nat) (g : Fld) : (d.wri p i g v).copies = d.copies := rfl
@[simp] theorem Dev.wri_decomps (d : Dev) (p i v : Nat) (g : Fld) : (d.wri p i g v).decomps = d.decomps := rfl
@[simp] theorem Dev.wri_needRestart (d : Dev) (p i v : Nat) (g : Fld) : (d.wri p i g v).needRestart = d.needRestart := rfl
@[simp] theorem Dev.wri_restarted (d : Dev) (p i v : Nat) (g : Fld) : (d.wri p i g v).restarted = d.restarted := rfl
@[simp] theorem Dev.wri_clerks (d : Dev) (p i v : Nat) (g : Fld) : (d.wri p i g v).clerks = d.clerks := rfl
@[simp] theorem Dev.wri_subs (d : Dev) (p i v : Nat) (g : Fld) : (d.wri p i g v).subs = d.subs := rfl
@[simp] theorem Dev.wri_ports (d : Dev) (p i v : Nat) (g : Fld) : (d.wri p i g v).ports = d.ports := rfl
@[simp] theorem Dev.wri_wire (d : Dev) (p i v : Nat) (g : Fld) : (d.wri p i g v).wire = d.wire := rfl
@[simp] theorem Dev.wri_kyLocal (d : Dev) (p i v : Nat) (g : Fld) : (d.wri p i g v).kyLocal = d.kyLocal := rfl
@[simp] theorem Dev.wri_conns (d : Dev) (p i v : Nat) (g : Fld) : (d.wri p i g v).conns = d.conns := rfl
@[simp] theorem Dev.wri_e2eRx (d : Dev) (p i v : Nat) (g : Fld) : (d.wri p i g v).e2eRx = d.e2eRx := rfl
@[simp] theorem Dev.wri_buckets (d : Dev) (p i v : Nat) (g : Fld) : (d.wri p i g v).buckets = d.buckets := rfl
@[simp] theorem Dev.wri_hopSeen (d : Dev) (p i v : Nat) (g : Fld) : (d.wri p i g v).hopSeen = d.hopSeen := rfl
@[simp] theorem Dev.wri_tsyncAt (d : Dev) (p i v : Nat) (g : Fld) : (d.wri p i g v).tsyncAt = d.tsyncAt := rfl
@[simp] theorem Dev.wri_tsyncSent (d : Dev) (p i v : Nat) (g : Fld) : (d.wri p i g v).tsyncSent = d.tsyncSent := rfl
@[simp] theorem Dev.wri_exchange (d : Dev) (p i v : Nat) (g : Fld) : (d.wri p i g v).exchange = d.exchange := rfl
@[simp] theorem Dev.wri_colls (d : Dev) (p i v : Nat) (g : Fld) : (d.wri p i g v).colls = d.colls := rfl
@[simp] theorem Dev.wri_nextPutTag (d : Dev) (p i v : Nat) (g : Fld) : (d.wri p i g v).nextPutTag = d.nextPutTag := rfl
@[simp] theorem Dev.wri_vgcs (d : Dev) (p i v : Nat) (g : Fld) : (d.wri p i g v).vgcs = d.vgcs := rfl
@[simp] theorem Dev.wri_vga (d : Dev) (p i v : Nat) (g : Fld) : (d.wri p i g v).vga = d.vga := rfl
@[simp] theorem Dev.wri_vgAt (d : Dev) (p i v : Nat) (g : Fld) : (d.wri p i g v).vgAt = d.vgAt := rfl
@[simp] theorem Dev.wri_boundaries (d : Dev) (p i v : Nat) (g : Fld) : (d.wri p i g v).boundaries = d.boundaries := rfl
@[simp] theorem Dev.wri_capGap (d : Dev) (p i v : Nat) (g : Fld) : (d.wri p i g v).capGap = d.capGap := rfl
@[simp] theorem Dev.wri_between (d : Dev) (p i v : Nat) (g : Fld) : (d.wri p i g v).between = d.between := rfl
@[simp] theorem Dev.wri_substs (d : Dev) (p i v : Nat) (g : Fld) : (d.wri p i g v).substs = d.substs := rfl
@[simp] theorem Dev.wri_slices (d : Dev) (p i v : Nat) (g : Fld) : (d.wri p i g v).slices = d.slices := rfl
@[simp] theorem Dev.wri_biDone (d : Dev) (p i v : Nat) (g : Fld) : (d.wri p i g v).biDone = d.biDone := rfl
@[simp] theorem Dev.wri_biSince (d : Dev) (p i v : Nat) (g : Fld) : (d.wri p i g v).biSince = d.biSince := rfl
@[simp] theorem Dev.wri_biTold (d : Dev) (p i v : Nat) (g : Fld) : (d.wri p i g v).biTold = d.biTold := rfl
@[simp] theorem Dev.wri_bistWin (d : Dev) (p i v : Nat) (g : Fld) : (d.wri p i g v).bistWin = d.bistWin := rfl
@[simp] theorem Dev.wri_lastSlices (d : Dev) (p i v : Nat) (g : Fld) : (d.wri p i g v).lastSlices = d.lastSlices := rfl
@[simp] theorem Dev.wri_repairs (d : Dev) (p i v : Nat) (g : Fld) : (d.wri p i g v).repairs = d.repairs := rfl
@[simp] theorem Dev.wri_repairDiscards (d : Dev) (p i v : Nat) (g : Fld) : (d.wri p i g v).repairDiscards = d.repairDiscards := rfl
@[simp] theorem Dev.wri_assay (d : Dev) (p i v : Nat) (g : Fld) : (d.wri p i g v).assay = d.assay := rfl
@[simp] theorem Dev.wri_snaps (d : Dev) (p i v : Nat) (g : Fld) : (d.wri p i g v).snaps = d.snaps := rfl
@[simp] theorem Dev.wri_restoring (d : Dev) (p i v : Nat) (g : Fld) : (d.wri p i g v).restoring = d.restoring := rfl
@[simp] theorem Dev.wri_pr (d : Dev) (p i v : Nat) (g : Fld) : (d.wri p i g v).pr = d.pr := rfl
@[simp] theorem Dev.wri_cxl (d : Dev) (p i v : Nat) (g : Fld) : (d.wri p i g v).cxl = d.cxl := rfl
@[simp] theorem Dev.wri_snoop (d : Dev) (p i v : Nat) (g : Fld) : (d.wri p i g v).snoop = d.snoop := rfl
@[simp] theorem Dev.wri_hdmSize (d : Dev) (p i v : Nat) (g : Fld) : (d.wri p i g v).hdmSize = d.hdmSize := rfl
@[simp] theorem Dev.wri_msixTbl (d : Dev) (p i v : Nat) (g : Fld) : (d.wri p i g v).msixTbl = d.msixTbl := rfl
@[simp] theorem Dev.wri_msixPend (d : Dev) (p i v : Nat) (g : Fld) : (d.wri p i g v).msixPend = d.msixPend := rfl
@[simp] theorem Dev.wri_ideBad (d : Dev) (p i v : Nat) (g : Fld) : (d.wri p i g v).ideBad = d.ideBad := rfl
@[simp] theorem Dev.wri_bt (d : Dev) (p i v : Nat) (g : Fld) : (d.wri p i g v).bt = d.bt := rfl
@[simp] theorem Dev.wri_dice (d : Dev) (p i v : Nat) (g : Fld) : (d.wri p i g v).dice = d.dice := rfl
@[simp] theorem Dev.wri_flash (d : Dev) (p i v : Nat) (g : Fld) : (d.wri p i g v).flash = d.flash := rfl
@[simp] theorem Dev.wri_updated (d : Dev) (p i v : Nat) (g : Fld) : (d.wri p i g v).updated = d.updated := rfl
@[simp] theorem Dev.wri_planDigest (d : Dev) (p i v : Nat) (g : Fld) : (d.wri p i g v).planDigest = d.planDigest := rfl
@[simp] theorem Dev.wri_mg (d : Dev) (p i v : Nat) (g : Fld) : (d.wri p i g v).mg = d.mg := rfl
@[simp] theorem Dev.wri_power (d : Dev) (p i v : Nat) (g : Fld) : (d.wri p i g v).power = d.power := rfl
@[simp] theorem Dev.wri_gov (d : Dev) (p i v : Nat) (g : Fld) : (d.wri p i g v).gov = d.gov := rfl
@[simp] theorem Dev.wri_droopAt (d : Dev) (p i v : Nat) (g : Fld) : (d.wri p i g v).droopAt = d.droopAt := rfl
@[simp] theorem Dev.wri_thermTrip (d : Dev) (p i v : Nat) (g : Fld) : (d.wri p i g v).thermTrip = d.thermTrip := rfl
@[simp] theorem Dev.wri_pulseUntil (d : Dev) (p i v : Nat) (g : Fld) : (d.wri p i g v).pulseUntil = d.pulseUntil := rfl
@[simp] theorem Dev.wri_busyAt (d : Dev) (p i v : Nat) (g : Fld) : (d.wri p i g v).busyAt = d.busyAt := rfl
@[simp] theorem Dev.wri_rdata (d : Dev) (p i v : Nat) (g : Fld) : (d.wri p i g v).rdata = d.rdata := rfl
@[simp] theorem Dev.wri_cclk (d : Dev) (p i v : Nat) (g : Fld) : (d.wri p i g v).cclk = d.cclk := rfl
@[simp] theorem Dev.wri_env (d : Dev) (p i v : Nat) (g : Fld) : (d.wri p i g v).env = d.env := rfl
@[simp] theorem Dev.wri_fresh (d : Dev) (p i v : Nat) (g : Fld) : (d.wri p i g v).fresh = d.fresh := rfl
@[simp] theorem Dev.wri_cyc (d : Dev) (p i v : Nat) (g : Fld) : (d.wri p i g v).cyc = d.cyc := rfl

/-! ### Messages: only the queue of messages, the count of dropped ones and its record of the cycle change (R833, R15) -/

@[simp] theorem Dev.send_marks (d : Dev) (t p k c a x : Nat) : (d.send t p k c a x).marks = d.marks := by unfold Dev.send Dev.count; split <;> rfl
@[simp] theorem Dev.send_noService (d : Dev) (t p k c a x : Nat) : (d.send t p k c a x).noService = d.noService := by unfold Dev.send Dev.count; split <;> rfl
@[simp] theorem Dev.send_resetTiles (d : Dev) (t p k c a x : Nat) : (d.send t p k c a x).resetTiles = d.resetTiles := by unfold Dev.send Dev.count; split <;> rfl
@[simp] theorem Dev.send_rings (d : Dev) (t p k c a x : Nat) : (d.send t p k c a x).rings = d.rings := by unfold Dev.send Dev.count; split <;> rfl
@[simp] theorem Dev.send_kill (d : Dev) (t p k c a x : Nat) : (d.send t p k c a x).kill = d.kill := by unfold Dev.send Dev.count; split <;> rfl
@[simp] theorem Dev.send_amax (d : Dev) (t p k c a x : Nat) : (d.send t p k c a x).amax = d.amax := by unfold Dev.send Dev.count; split <;> rfl
@[simp] theorem Dev.send_roll (d : Dev) (t p k c a x : Nat) : (d.send t p k c a x).roll = d.roll := by unfold Dev.send Dev.count; split <;> rfl
@[simp] theorem Dev.send_mes (d : Dev) (t p k c a x : Nat) : (d.send t p k c a x).mes = d.mes := by unfold Dev.send Dev.count; split <;> rfl
@[simp] theorem Dev.send_sfs (d : Dev) (t p k c a x : Nat) : (d.send t p k c a x).sfs = d.sfs := by unfold Dev.send Dev.count; split <;> rfl
@[simp] theorem Dev.send_plan (d : Dev) (t p k c a x : Nat) : (d.send t p k c a x).plan = d.plan := by unfold Dev.send Dev.count; split <;> rfl
@[simp] theorem Dev.send_circs (d : Dev) (t p k c a x : Nat) : (d.send t p k c a x).circs = d.circs := by unfold Dev.send Dev.count; split <;> rfl
@[simp] theorem Dev.send_tgs (d : Dev) (t p k c a x : Nat) : (d.send t p k c a x).tgs = d.tgs := by unfold Dev.send Dev.count; split <;> rfl
@[simp] theorem Dev.send_descs (d : Dev) (t p k c a x : Nat) : (d.send t p k c a x).descs = d.descs := by unfold Dev.send Dev.count; split <;> rfl
@[simp] theorem Dev.send_ioDrains (d : Dev) (t p k c a x : Nat) : (d.send t p k c a x).ioDrains = d.ioDrains := by unfold Dev.send Dev.count; split <;> rfl
@[simp] theorem Dev.send_load (d : Dev) (t p k c a x : Nat) : (d.send t p k c a x).load = d.load := by unfold Dev.send Dev.count; split <;> rfl
@[simp] theorem Dev.send_staleSeen (d : Dev) (t p k c a x : Nat) : (d.send t p k c a x).staleSeen = d.staleSeen := by unfold Dev.send Dev.count; split <;> rfl
@[simp] theorem Dev.send_watch (d : Dev) (t p k c a x : Nat) : (d.send t p k c a x).watch = d.watch := by unfold Dev.send Dev.count; split <;> rfl
@[simp] theorem Dev.send_spad (d : Dev) (t p k c a x : Nat) : (d.send t p k c a x).spad = d.spad := by unfold Dev.send Dev.count; split <;> rfl
@[simp] theorem Dev.send_spTags (d : Dev) (t p k c a x : Nat) : (d.send t p k c a x).spTags = d.spTags := by unfold Dev.send Dev.count; split <;> rfl
@[simp] theorem Dev.send_spTagBase (d : Dev) (t p k c a x : Nat) : (d.send t p k c a x).spTagBase = d.spTagBase := by unfold Dev.send Dev.count; split <;> rfl
@[simp] theorem Dev.send_spReqs (d : Dev) (t p k c a x : Nat) : (d.send t p k c a x).spReqs = d.spReqs := by unfold Dev.send Dev.count; split <;> rfl
@[simp] theorem Dev.send_spFix (d : Dev) (t p k c a x : Nat) : (d.send t p k c a x).spFix = d.spFix := by unfold Dev.send Dev.count; split <;> rfl
@[simp] theorem Dev.send_spLast (d : Dev) (t p k c a x : Nat) : (d.send t p k c a x).spLast = d.spLast := by unfold Dev.send Dev.count; split <;> rfl
@[simp] theorem Dev.send_apQ (d : Dev) (t p k c a x : Nat) : (d.send t p k c a x).apQ = d.apQ := by unfold Dev.send Dev.count; split <;> rfl
@[simp] theorem Dev.send_winWrites (d : Dev) (t p k c a x : Nat) : (d.send t p k c a x).winWrites = d.winWrites := by unfold Dev.send Dev.count; split <;> rfl
@[simp] theorem Dev.send_caches (d : Dev) (t p k c a x : Nat) : (d.send t p k c a x).caches = d.caches := by unfold Dev.send Dev.count; split <;> rfl
@[simp] theorem Dev.send_plru (d : Dev) (t p k c a x : Nat) : (d.send t p k c a x).plru = d.plru := by unfold Dev.send Dev.count; split <;> rfl
@[simp] theorem Dev.send_near (d : Dev) (t p k c a x : Nat) : (d.send t p k c a x).near = d.near := by unfold Dev.send Dev.count; split <;> rfl
@[simp] theorem Dev.send_nearGen (d : Dev) (t p k c a x : Nat) : (d.send t p k c a x).nearGen = d.nearGen := by unfold Dev.send Dev.count; split <;> rfl
@[simp] theorem Dev.send_poison (d : Dev) (t p k c a x : Nat) : (d.send t p k c a x).poison = d.poison := by unfold Dev.send Dev.count; split <;> rfl
@[simp] theorem Dev.send_hostMem (d : Dev) (t p k c a x : Nat) : (d.send t p k c a x).hostMem = d.hostMem := by unfold Dev.send Dev.count; split <;> rfl
@[simp] theorem Dev.send_fabric (d : Dev) (t p k c a x : Nat) : (d.send t p k c a x).fabric = d.fabric := by unfold Dev.send Dev.count; split <;> rfl
@[simp] theorem Dev.send_log (d : Dev) (t p k c a x : Nat) : (d.send t p k c a x).log = d.log := by unfold Dev.send Dev.count; split <;> rfl
@[simp] theorem Dev.send_graces (d : Dev) (t p k c a x : Nat) : (d.send t p k c a x).graces = d.graces := by unfold Dev.send Dev.count; split <;> rfl
@[simp] theorem Dev.send_ladders (d : Dev) (t p k c a x : Nat) : (d.send t p k c a x).ladders = d.ladders := by unfold Dev.send Dev.count; split <;> rfl
@[simp] theorem Dev.send_logBuf (d : Dev) (t p k c a x : Nat) : (d.send t p k c a x).logBuf = d.logBuf := by unfold Dev.send Dev.count; split <;> rfl
@[simp] theorem Dev.send_reactWritten (d : Dev) (t p k c a x : Nat) : (d.send t p k c a x).reactWritten = d.reactWritten := by unfold Dev.send Dev.count; split <;> rfl
@[simp] theorem Dev.send_msix (d : Dev) (t p k c a x : Nat) : (d.send t p k c a x).msix = d.msix := by unfold Dev.send Dev.count; split <;> rfl
@[simp] theorem Dev.send_firstTraps (d : Dev) (t p k c a x : Nat) : (d.send t p k c a x).firstTraps = d.firstTraps := by unfold Dev.send Dev.count; split <;> rfl
@[simp] theorem Dev.send_runs (d : Dev) (t p k c a x : Nat) : (d.send t p k c a x).runs = d.runs := by unfold Dev.send Dev.count; split <;> rfl
@[simp] theorem Dev.send_readers (d : Dev) (t p k c a x : Nat) : (d.send t p k c a x).readers = d.readers := by unfold Dev.send Dev.count; split <;> rfl
@[simp] theorem Dev.send_fills (d : Dev) (t p k c a x : Nat) : (d.send t p k c a x).fills = d.fills := by unfold Dev.send Dev.count; split <;> rfl
@[simp] theorem Dev.send_reqs (d : Dev) (t p k c a x : Nat) : (d.send t p k c a x).reqs = d.reqs := by unfold Dev.send Dev.count; split <;> rfl
@[simp] theorem Dev.send_nextReq (d : Dev) (t p k c a x : Nat) : (d.send t p k c a x).nextReq = d.nextReq := by unfold Dev.send Dev.count; split <;> rfl
@[simp] theorem Dev.send_stalls (d : Dev) (t p k c a x : Nat) : (d.send t p k c a x).stalls = d.stalls := by unfold Dev.send Dev.count; split <;> rfl
@[simp] theorem Dev.send_tcache (d : Dev) (t p k c a x : Nat) : (d.send t p k c a x).tcache = d.tcache := by unfold Dev.send Dev.count; split <;> rfl
@[simp] theorem Dev.send_invPage (d : Dev) (t p k c a x : Nat) : (d.send t p k c a x).invPage = d.invPage := by unfold Dev.send Dev.count; split <;> rfl
@[simp] theorem Dev.send_retires (d : Dev) (t p k c a x : Nat) : (d.send t p k c a x).retires = d.retires := by unfold Dev.send Dev.count; split <;> rfl
@[simp] theorem Dev.send_migrations (d : Dev) (t p k c a x : Nat) : (d.send t p k c a x).migrations = d.migrations := by unfold Dev.send Dev.count; split <;> rfl
@[simp] theorem Dev.send_ceCounts (d : Dev) (t p k c a x : Nat) : (d.send t p k c a x).ceCounts = d.ceCounts := by unfold Dev.send Dev.count; split <;> rfl
@[simp] theorem Dev.send_ceTold (d : Dev) (t p k c a x : Nat) : (d.send t p k c a x).ceTold = d.ceTold := by unfold Dev.send Dev.count; split <;> rfl
@[simp] theorem Dev.send_retWindow (d : Dev) (t p k c a x : Nat) : (d.send t p k c a x).retWindow = d.retWindow := by unfold Dev.send Dev.count; split <;> rfl
@[simp] theorem Dev.send_sparesOut (d : Dev) (t p k c a x : Nat) : (d.send t p k c a x).sparesOut = d.sparesOut := by unfold Dev.send Dev.count; split <;> rfl
@[simp] theorem Dev.send_patrolAt (d : Dev) (t p k c a x : Nat) : (d.send t p k c a x).patrolAt = d.patrolAt := by unfold Dev.send Dev.count; split <;> rfl
@[simp] theorem Dev.send_patrolRows (d : Dev) (t p k c a x : Nat) : (d.send t p k c a x).patrolRows = d.patrolRows := by unfold Dev.send Dev.count; split <;> rfl
@[simp] theorem Dev.send_rowMeta (d : Dev) (t p k c a x : Nat) : (d.send t p k c a x).rowMeta = d.rowMeta := by unfold Dev.send Dev.count; split <;> rfl
@[simp] theorem Dev.send_flashRetired (d : Dev) (t p k c a x : Nat) : (d.send t p k c a x).flashRetired = d.flashRetired := by unfold Dev.send Dev.count; split <;> rfl
@[simp] theorem Dev.send_retraining (d : Dev) (t p k c a x : Nat) : (d.send t p k c a x).retraining = d.retraining := by unfold Dev.send Dev.count; split <;> rfl
@[simp] theorem Dev.send_probeFailed (d : Dev) (t p k c a x : Nat) : (d.send t p k c a x).probeFailed = d.probeFailed := by unfold Dev.send Dev.count; split <;> rfl
@[simp] theorem Dev.send_expDown (d : Dev) (t p k c a x : Nat) : (d.send t p k c a x).expDown = d.expDown := by unfold Dev.send Dev.count; split <;> rfl
@[simp] theorem Dev.send_carters (d : Dev) (t p k c a x : Nat) : (d.send t p k c a x).carters = d.carters := by unfold Dev.send Dev.count; split <;> rfl
@[simp] theorem Dev.send_nmScrub (d : Dev) (t p k c a x : Nat) : (d.send t p k c a x).nmScrub = d.nmScrub := by unfold Dev.send Dev.count; split <;> rfl
@[simp] theorem Dev.send_copies (d : Dev) (t p k c a x : Nat) : (d.send t p k c a x).copies = d.copies := by unfold Dev.send Dev.count; split <;> rfl
@[simp] theorem Dev.send_decomps (d : Dev) (t p k c a x : Nat) : (d.send t p k c a x).decomps = d.decomps := by unfold Dev.send Dev.count; split <;> rfl
@[simp] theorem Dev.send_needRestart (d : Dev) (t p k c a x : Nat) : (d.send t p k c a x).needRestart = d.needRestart := by unfold Dev.send Dev.count; split <;> rfl
@[simp] theorem Dev.send_restarted (d : Dev) (t p k c a x : Nat) : (d.send t p k c a x).restarted = d.restarted := by unfold Dev.send Dev.count; split <;> rfl
@[simp] theorem Dev.send_clerks (d : Dev) (t p k c a x : Nat) : (d.send t p k c a x).clerks = d.clerks := by unfold Dev.send Dev.count; split <;> rfl
@[simp] theorem Dev.send_subs (d : Dev) (t p k c a x : Nat) : (d.send t p k c a x).subs = d.subs := by unfold Dev.send Dev.count; split <;> rfl
@[simp] theorem Dev.send_ports (d : Dev) (t p k c a x : Nat) : (d.send t p k c a x).ports = d.ports := by unfold Dev.send Dev.count; split <;> rfl
@[simp] theorem Dev.send_wire (d : Dev) (t p k c a x : Nat) : (d.send t p k c a x).wire = d.wire := by unfold Dev.send Dev.count; split <;> rfl
@[simp] theorem Dev.send_kyLocal (d : Dev) (t p k c a x : Nat) : (d.send t p k c a x).kyLocal = d.kyLocal := by unfold Dev.send Dev.count; split <;> rfl
@[simp] theorem Dev.send_conns (d : Dev) (t p k c a x : Nat) : (d.send t p k c a x).conns = d.conns := by unfold Dev.send Dev.count; split <;> rfl
@[simp] theorem Dev.send_e2eRx (d : Dev) (t p k c a x : Nat) : (d.send t p k c a x).e2eRx = d.e2eRx := by unfold Dev.send Dev.count; split <;> rfl
@[simp] theorem Dev.send_buckets (d : Dev) (t p k c a x : Nat) : (d.send t p k c a x).buckets = d.buckets := by unfold Dev.send Dev.count; split <;> rfl
@[simp] theorem Dev.send_hopSeen (d : Dev) (t p k c a x : Nat) : (d.send t p k c a x).hopSeen = d.hopSeen := by unfold Dev.send Dev.count; split <;> rfl
@[simp] theorem Dev.send_tsyncAt (d : Dev) (t p k c a x : Nat) : (d.send t p k c a x).tsyncAt = d.tsyncAt := by unfold Dev.send Dev.count; split <;> rfl
@[simp] theorem Dev.send_tsyncSent (d : Dev) (t p k c a x : Nat) : (d.send t p k c a x).tsyncSent = d.tsyncSent := by unfold Dev.send Dev.count; split <;> rfl
@[simp] theorem Dev.send_exchange (d : Dev) (t p k c a x : Nat) : (d.send t p k c a x).exchange = d.exchange := by unfold Dev.send Dev.count; split <;> rfl
@[simp] theorem Dev.send_colls (d : Dev) (t p k c a x : Nat) : (d.send t p k c a x).colls = d.colls := by unfold Dev.send Dev.count; split <;> rfl
@[simp] theorem Dev.send_nextPutTag (d : Dev) (t p k c a x : Nat) : (d.send t p k c a x).nextPutTag = d.nextPutTag := by unfold Dev.send Dev.count; split <;> rfl
@[simp] theorem Dev.send_vgcs (d : Dev) (t p k c a x : Nat) : (d.send t p k c a x).vgcs = d.vgcs := by unfold Dev.send Dev.count; split <;> rfl
@[simp] theorem Dev.send_vga (d : Dev) (t p k c a x : Nat) : (d.send t p k c a x).vga = d.vga := by unfold Dev.send Dev.count; split <;> rfl
@[simp] theorem Dev.send_vgAt (d : Dev) (t p k c a x : Nat) : (d.send t p k c a x).vgAt = d.vgAt := by unfold Dev.send Dev.count; split <;> rfl
@[simp] theorem Dev.send_boundaries (d : Dev) (t p k c a x : Nat) : (d.send t p k c a x).boundaries = d.boundaries := by unfold Dev.send Dev.count; split <;> rfl
@[simp] theorem Dev.send_capGap (d : Dev) (t p k c a x : Nat) : (d.send t p k c a x).capGap = d.capGap := by unfold Dev.send Dev.count; split <;> rfl
@[simp] theorem Dev.send_between (d : Dev) (t p k c a x : Nat) : (d.send t p k c a x).between = d.between := by unfold Dev.send Dev.count; split <;> rfl
@[simp] theorem Dev.send_substs (d : Dev) (t p k c a x : Nat) : (d.send t p k c a x).substs = d.substs := by unfold Dev.send Dev.count; split <;> rfl
@[simp] theorem Dev.send_slices (d : Dev) (t p k c a x : Nat) : (d.send t p k c a x).slices = d.slices := by unfold Dev.send Dev.count; split <;> rfl
@[simp] theorem Dev.send_biDone (d : Dev) (t p k c a x : Nat) : (d.send t p k c a x).biDone = d.biDone := by unfold Dev.send Dev.count; split <;> rfl
@[simp] theorem Dev.send_biSince (d : Dev) (t p k c a x : Nat) : (d.send t p k c a x).biSince = d.biSince := by unfold Dev.send Dev.count; split <;> rfl
@[simp] theorem Dev.send_biTold (d : Dev) (t p k c a x : Nat) : (d.send t p k c a x).biTold = d.biTold := by unfold Dev.send Dev.count; split <;> rfl
@[simp] theorem Dev.send_bistWin (d : Dev) (t p k c a x : Nat) : (d.send t p k c a x).bistWin = d.bistWin := by unfold Dev.send Dev.count; split <;> rfl
@[simp] theorem Dev.send_lastSlices (d : Dev) (t p k c a x : Nat) : (d.send t p k c a x).lastSlices = d.lastSlices := by unfold Dev.send Dev.count; split <;> rfl
@[simp] theorem Dev.send_repairs (d : Dev) (t p k c a x : Nat) : (d.send t p k c a x).repairs = d.repairs := by unfold Dev.send Dev.count; split <;> rfl
@[simp] theorem Dev.send_repairDiscards (d : Dev) (t p k c a x : Nat) : (d.send t p k c a x).repairDiscards = d.repairDiscards := by unfold Dev.send Dev.count; split <;> rfl
@[simp] theorem Dev.send_assay (d : Dev) (t p k c a x : Nat) : (d.send t p k c a x).assay = d.assay := by unfold Dev.send Dev.count; split <;> rfl
@[simp] theorem Dev.send_snaps (d : Dev) (t p k c a x : Nat) : (d.send t p k c a x).snaps = d.snaps := by unfold Dev.send Dev.count; split <;> rfl
@[simp] theorem Dev.send_restoring (d : Dev) (t p k c a x : Nat) : (d.send t p k c a x).restoring = d.restoring := by unfold Dev.send Dev.count; split <;> rfl
@[simp] theorem Dev.send_pr (d : Dev) (t p k c a x : Nat) : (d.send t p k c a x).pr = d.pr := by unfold Dev.send Dev.count; split <;> rfl
@[simp] theorem Dev.send_cxl (d : Dev) (t p k c a x : Nat) : (d.send t p k c a x).cxl = d.cxl := by unfold Dev.send Dev.count; split <;> rfl
@[simp] theorem Dev.send_snoop (d : Dev) (t p k c a x : Nat) : (d.send t p k c a x).snoop = d.snoop := by unfold Dev.send Dev.count; split <;> rfl
@[simp] theorem Dev.send_hdmSize (d : Dev) (t p k c a x : Nat) : (d.send t p k c a x).hdmSize = d.hdmSize := by unfold Dev.send Dev.count; split <;> rfl
@[simp] theorem Dev.send_msixTbl (d : Dev) (t p k c a x : Nat) : (d.send t p k c a x).msixTbl = d.msixTbl := by unfold Dev.send Dev.count; split <;> rfl
@[simp] theorem Dev.send_msixPend (d : Dev) (t p k c a x : Nat) : (d.send t p k c a x).msixPend = d.msixPend := by unfold Dev.send Dev.count; split <;> rfl
@[simp] theorem Dev.send_ideBad (d : Dev) (t p k c a x : Nat) : (d.send t p k c a x).ideBad = d.ideBad := by unfold Dev.send Dev.count; split <;> rfl
@[simp] theorem Dev.send_bt (d : Dev) (t p k c a x : Nat) : (d.send t p k c a x).bt = d.bt := by unfold Dev.send Dev.count; split <;> rfl
@[simp] theorem Dev.send_dice (d : Dev) (t p k c a x : Nat) : (d.send t p k c a x).dice = d.dice := by unfold Dev.send Dev.count; split <;> rfl
@[simp] theorem Dev.send_flash (d : Dev) (t p k c a x : Nat) : (d.send t p k c a x).flash = d.flash := by unfold Dev.send Dev.count; split <;> rfl
@[simp] theorem Dev.send_updated (d : Dev) (t p k c a x : Nat) : (d.send t p k c a x).updated = d.updated := by unfold Dev.send Dev.count; split <;> rfl
@[simp] theorem Dev.send_planDigest (d : Dev) (t p k c a x : Nat) : (d.send t p k c a x).planDigest = d.planDigest := by unfold Dev.send Dev.count; split <;> rfl
@[simp] theorem Dev.send_mg (d : Dev) (t p k c a x : Nat) : (d.send t p k c a x).mg = d.mg := by unfold Dev.send Dev.count; split <;> rfl
@[simp] theorem Dev.send_power (d : Dev) (t p k c a x : Nat) : (d.send t p k c a x).power = d.power := by unfold Dev.send Dev.count; split <;> rfl
@[simp] theorem Dev.send_gov (d : Dev) (t p k c a x : Nat) : (d.send t p k c a x).gov = d.gov := by unfold Dev.send Dev.count; split <;> rfl
@[simp] theorem Dev.send_droopAt (d : Dev) (t p k c a x : Nat) : (d.send t p k c a x).droopAt = d.droopAt := by unfold Dev.send Dev.count; split <;> rfl
@[simp] theorem Dev.send_thermTrip (d : Dev) (t p k c a x : Nat) : (d.send t p k c a x).thermTrip = d.thermTrip := by unfold Dev.send Dev.count; split <;> rfl
@[simp] theorem Dev.send_pulseUntil (d : Dev) (t p k c a x : Nat) : (d.send t p k c a x).pulseUntil = d.pulseUntil := by unfold Dev.send Dev.count; split <;> rfl
@[simp] theorem Dev.send_busyAt (d : Dev) (t p k c a x : Nat) : (d.send t p k c a x).busyAt = d.busyAt := by unfold Dev.send Dev.count; split <;> rfl
@[simp] theorem Dev.send_rdata (d : Dev) (t p k c a x : Nat) : (d.send t p k c a x).rdata = d.rdata := by unfold Dev.send Dev.count; split <;> rfl
@[simp] theorem Dev.send_cclk (d : Dev) (t p k c a x : Nat) : (d.send t p k c a x).cclk = d.cclk := by unfold Dev.send Dev.count; split <;> rfl
@[simp] theorem Dev.send_env (d : Dev) (t p k c a x : Nat) : (d.send t p k c a x).env = d.env := by unfold Dev.send Dev.count; split <;> rfl
@[simp] theorem Dev.send_fresh (d : Dev) (t p k c a x : Nat) : (d.send t p k c a x).fresh = d.fresh := by unfold Dev.send Dev.count; split <;> rfl
@[simp] theorem Dev.send_cyc_newBits (d : Dev) (t p k c a x : Nat) : (d.send t p k c a x).cyc.newBits = d.cyc.newBits := by unfold Dev.send Dev.count; split <;> rfl
@[simp] theorem Dev.send_cyc_restartNext (d : Dev) (t p k c a x : Nat) : (d.send t p k c a x).cyc.restartNext = d.cyc.restartNext := by unfold Dev.send Dev.count; split <;> rfl
@[simp] theorem Dev.send_cyc_enabledNow (d : Dev) (t p k c a x : Nat) : (d.send t p k c a x).cyc.enabledNow = d.cyc.enabledNow := by unfold Dev.send Dev.count; split <;> rfl
@[simp] theorem Dev.send_cyc_belled (d : Dev) (t p k c a x : Nat) : (d.send t p k c a x).cyc.belled = d.cyc.belled := by unfold Dev.send Dev.count; split <;> rfl
@[simp] theorem Dev.send_cyc_begun (d : Dev) (t p k c a x : Nat) : (d.send t p k c a x).cyc.begun = d.cyc.begun := by unfold Dev.send Dev.count; split <;> rfl
@[simp] theorem Dev.send_cyc_boundary (d : Dev) (t p k c a x : Nat) : (d.send t p k c a x).cyc.boundary = d.cyc.boundary := by unfold Dev.send Dev.count; split <;> rfl
@[simp] theorem Dev.send_cyc_tollPath (d : Dev) (t p k c a x : Nat) : (d.send t p k c a x).cyc.tollPath = d.cyc.tollPath := by unfold Dev.send Dev.count; split <;> rfl

/-! ### Stores by unit: the registers stay -/

@[simp] theorem Dev.putMe_regs (d : Dev) (p : Nat) (x : MeSt) : (d.putMe p x).regs = d.regs := rfl
@[simp] theorem Dev.putMe_rdi (d : Dev) (p : Nat) (x : MeSt) (q i : Nat) (g : Fld) : (d.putMe p x).rdi q i g = d.rdi q i g := rfl
@[simp] theorem Dev.putSf_regs (d : Dev) (p : Nat) (x : SfSt) : (d.putSf p x).regs = d.regs := rfl
@[simp] theorem Dev.putSf_rdi (d : Dev) (p : Nat) (x : SfSt) (q i : Nat) (g : Fld) : (d.putSf p x).rdi q i g = d.rdi q i g := rfl
@[simp] theorem Dev.putClerk_regs (d : Dev) (p : Nat) (x : ClerkSt) : (d.putClerk p x).regs = d.regs := rfl
@[simp] theorem Dev.putClerk_rdi (d : Dev) (p : Nat) (x : ClerkSt) (q i : Nat) (g : Fld) : (d.putClerk p x).rdi q i g = d.rdi q i g := rfl
@[simp] theorem Dev.putRing_regs (d : Dev) (p : Nat) (x : Ring) : (d.putRing p x).regs = d.regs := rfl
@[simp] theorem Dev.putRing_rdi (d : Dev) (p : Nat) (x : Ring) (q i : Nat) (g : Fld) : (d.putRing p x).rdi q i g = d.rdi q i g := rfl
@[simp] theorem Dev.putCirc_regs (d : Dev) (p : Nat) (x : CircSt) : (d.putCirc p x).regs = d.regs := rfl
@[simp] theorem Dev.putCirc_rdi (d : Dev) (p : Nat) (x : CircSt) (q i : Nat) (g : Fld) : (d.putCirc p x).rdi q i g = d.rdi q i g := rfl
@[simp] theorem Dev.putTg_regs (d : Dev) (p : Nat) (x : TgSt) : (d.putTg p x).regs = d.regs := rfl
@[simp] theorem Dev.putTg_rdi (d : Dev) (p : Nat) (x : TgSt) (q i : Nat) (g : Fld) : (d.putTg p x).rdi q i g = d.rdi q i g := rfl
@[simp] theorem Dev.putDesc_regs (d : Dev) (p : Nat) (x : DescSt) : (d.putDesc p x).regs = d.regs := rfl
@[simp] theorem Dev.putDesc_rdi (d : Dev) (p : Nat) (x : DescSt) (q i : Nat) (g : Fld) : (d.putDesc p x).rdi q i g = d.rdi q i g := rfl
@[simp] theorem Dev.putSlot_regs (d : Dev) (p : Nat) (x : LogSlot) : (d.putSlot p x).regs = d.regs := rfl
@[simp] theorem Dev.putSlot_rdi (d : Dev) (p : Nat) (x : LogSlot) (q i : Nat) (g : Fld) : (d.putSlot p x).rdi q i g = d.rdi q i g := rfl
@[simp] theorem Dev.putCache_regs (d : Dev) (p : Nat) (x : List Sector) : (d.putCache p x).regs = d.regs := rfl
@[simp] theorem Dev.putCache_rdi (d : Dev) (p : Nat) (x : List Sector) (q i : Nat) (g : Fld) : (d.putCache p x).rdi q i g = d.rdi q i g := rfl

/-! ### What is stored is read back -/

@[simp] theorem Dev.me_putMe (d : Dev) (p : Nat) (x : MeSt) : (d.putMe p x).me p = x := by simp [Dev.me, Dev.putMe]
theorem Dev.me_putMe_other (d : Dev) {p q : Nat} (x : MeSt) (h : q ≠ p) : (d.putMe p x).me q = d.me q := by simp [Dev.me, Dev.putMe, Tbl.get_set_other, h]
@[simp] theorem Dev.me_wri (d : Dev) (p i v q : Nat) (f : Fld) : (d.wri p i f v).me q = d.me q := rfl
@[simp] theorem Dev.me_send (d : Dev) (t p k c a x q : Nat) : (d.send t p k c a x).me q = d.me q := by simp [Dev.me]
@[simp] theorem Dev.sf_putSf (d : Dev) (p : Nat) (x : SfSt) : (d.putSf p x).sf p = x := by simp [Dev.sf, Dev.putSf]
theorem Dev.sf_putSf_other (d : Dev) {p q : Nat} (x : SfSt) (h : q ≠ p) : (d.putSf p x).sf q = d.sf q := by simp [Dev.sf, Dev.putSf, Tbl.get_set_other, h]
@[simp] theorem Dev.sf_wri (d : Dev) (p i v q : Nat) (f : Fld) : (d.wri p i f v).sf q = d.sf q := rfl
@[simp] theorem Dev.sf_send (d : Dev) (t p k c a x q : Nat) : (d.send t p k c a x).sf q = d.sf q := by simp [Dev.sf]
@[simp] theorem Dev.clerk_putClerk (d : Dev) (p : Nat) (x : ClerkSt) : (d.putClerk p x).clerk p = x := by simp [Dev.clerk, Dev.putClerk]
theorem Dev.clerk_putClerk_other (d : Dev) {p q : Nat} (x : ClerkSt) (h : q ≠ p) : (d.putClerk p x).clerk q = d.clerk q := by simp [Dev.clerk, Dev.putClerk, Tbl.get_set_other, h]
@[simp] theorem Dev.clerk_wri (d : Dev) (p i v q : Nat) (f : Fld) : (d.wri p i f v).clerk q = d.clerk q := rfl
@[simp] theorem Dev.clerk_send (d : Dev) (t p k c a x q : Nat) : (d.send t p k c a x).clerk q = d.clerk q := by simp [Dev.clerk]
@[simp] theorem Dev.ring_putRing (d : Dev) (p : Nat) (x : Ring) : (d.putRing p x).ring p = x := by simp [Dev.ring, Dev.putRing]
theorem Dev.ring_putRing_other (d : Dev) {p q : Nat} (x : Ring) (h : q ≠ p) : (d.putRing p x).ring q = d.ring q := by simp [Dev.ring, Dev.putRing, Tbl.get_set_other, h]
@[simp] theorem Dev.ring_wri (d : Dev) (p i v q : Nat) (f : Fld) : (d.wri p i f v).ring q = d.ring q := rfl
@[simp] theorem Dev.ring_send (d : Dev) (t p k c a x q : Nat) : (d.send t p k c a x).ring q = d.ring q := by simp [Dev.ring]
@[simp] theorem Dev.circ_putCirc (d : Dev) (p : Nat) (x : CircSt) : (d.putCirc p x).circ p = x := by simp [Dev.circ, Dev.putCirc]
theorem Dev.circ_putCirc_other (d : Dev) {p q : Nat} (x : CircSt) (h : q ≠ p) : (d.putCirc p x).circ q = d.circ q := by simp [Dev.circ, Dev.putCirc, Tbl.get_set_other, h]
@[simp] theorem Dev.circ_wri (d : Dev) (p i v q : Nat) (f : Fld) : (d.wri p i f v).circ q = d.circ q := rfl
@[simp] theorem Dev.circ_send (d : Dev) (t p k c a x q : Nat) : (d.send t p k c a x).circ q = d.circ q := by simp [Dev.circ]
@[simp] theorem Dev.tg_putTg (d : Dev) (p : Nat) (x : TgSt) : (d.putTg p x).tg p = x := by simp [Dev.tg, Dev.putTg]
theorem Dev.tg_putTg_other (d : Dev) {p q : Nat} (x : TgSt) (h : q ≠ p) : (d.putTg p x).tg q = d.tg q := by simp [Dev.tg, Dev.putTg, Tbl.get_set_other, h]
@[simp] theorem Dev.tg_wri (d : Dev) (p i v q : Nat) (f : Fld) : (d.wri p i f v).tg q = d.tg q := rfl
@[simp] theorem Dev.tg_send (d : Dev) (t p k c a x q : Nat) : (d.send t p k c a x).tg q = d.tg q := by simp [Dev.tg]
@[simp] theorem Dev.desc_putDesc (d : Dev) (p : Nat) (x : DescSt) : (d.putDesc p x).desc p = x := by simp [Dev.desc, Dev.putDesc]
theorem Dev.desc_putDesc_other (d : Dev) {p q : Nat} (x : DescSt) (h : q ≠ p) : (d.putDesc p x).desc q = d.desc q := by simp [Dev.desc, Dev.putDesc, Tbl.get_set_other, h]
@[simp] theorem Dev.desc_wri (d : Dev) (p i v q : Nat) (f : Fld) : (d.wri p i f v).desc q = d.desc q := rfl
@[simp] theorem Dev.desc_send (d : Dev) (t p k c a x q : Nat) : (d.send t p k c a x).desc q = d.desc q := by simp [Dev.desc]
@[simp] theorem Dev.slot_putSlot (d : Dev) (p : Nat) (x : LogSlot) : (d.putSlot p x).slot p = x := by simp [Dev.slot, Dev.putSlot]
theorem Dev.slot_putSlot_other (d : Dev) {p q : Nat} (x : LogSlot) (h : q ≠ p) : (d.putSlot p x).slot q = d.slot q := by simp [Dev.slot, Dev.putSlot, Tbl.get_set_other, h]
@[simp] theorem Dev.slot_wri (d : Dev) (p i v q : Nat) (f : Fld) : (d.wri p i f v).slot q = d.slot q := rfl
@[simp] theorem Dev.slot_send (d : Dev) (t p k c a x q : Nat) : (d.send t p k c a x).slot q = d.slot q := by simp [Dev.slot]
@[simp] theorem Dev.cache_putCache (d : Dev) (p : Nat) (x : List Sector) : (d.putCache p x).cache p = x := by simp [Dev.cache, Dev.putCache]
theorem Dev.cache_putCache_other (d : Dev) {p q : Nat} (x : List Sector) (h : q ≠ p) : (d.putCache p x).cache q = d.cache q := by simp [Dev.cache, Dev.putCache, Tbl.get_set_other, h]
@[simp] theorem Dev.cache_wri (d : Dev) (p i v q : Nat) (f : Fld) : (d.wri p i f v).cache q = d.cache q := rfl
@[simp] theorem Dev.cache_send (d : Dev) (t p k c a x q : Nat) : (d.send t p k c a x).cache q = d.cache q := by simp [Dev.cache]

end Sys2Proof.Machine
end

