-- ==== Sys2Proof/Laws/Regs.lean ====
section
/-!
SUPPORT. Sys2Proof/Laws/Regs.lean: a register read after a register write, and what messages and error bits do to registers.
-/

namespace Sys2Proof.Machine

/-! A proof about register values can go through the table: `rdi` reads it, `wri` sets it, and keys of other offsets differ. -/

theorem Dev.wri_regs (d : Dev) (p i v : Nat) (f : Fld) :
    (d.wri p i f v).regs = Tbl.set resetKey d.regs (fldKey p i f) (v % 2 ^ f.w) := rfl

theorem fldKey_offset (p i q j : Nat) (f g : Fld) (h : (g.off * 64 + g.lo) % 2 ^ 18 ≠ (f.off * 64 + f.lo) % 2 ^ 18) :
    (fldKey q j g = fldKey p i f) = False := by
  apply eq_false; unfold fldKey; omega

theorem Dev.rdi_wri (d : Dev) (p i v q j : Nat) (f g : Fld) :
    (d.wri p i f v).rdi q j g = if fldKey q j g = fldKey p i f then v % 2 ^ f.w else d.rdi q j g := by
  unfold Dev.rdi Dev.wri
  exact Tbl.get_set _ _ _ _ _

@[simp] theorem Dev.rdi_wri_same (d : Dev) (p i v : Nat) (f : Fld) : (d.wri p i f v).rdi p i f = v % 2 ^ f.w := by
  simp [Dev.rdi_wri]

theorem Dev.rdi_wri_other (d : Dev) (p i v q j : Nat) (f g : Fld) (h : fldKey q j g ≠ fldKey p i f) :
    (d.wri p i f v).rdi q j g = d.rdi q j g := by simp [Dev.rdi_wri, h]

/-- Another register or field of the same page. -/
theorem Dev.rdi_wri_field (d : Dev) (p v : Nat) (f g : Fld) (h : g.off * 64 + g.lo ≠ f.off * 64 + f.lo) :
    (d.wri p 0 f v).rdi p 0 g = d.rdi p 0 g := by
  apply Dev.rdi_wri_other; unfold fldKey; omega

/-- A register of another page. -/
theorem Dev.rdi_wri_page (d : Dev) (p i v q j : Nat) (f g : Fld) (h : q ≠ p) (hi : i < 2 ^ 20) (hj : j < 2 ^ 20)
    (hf : f.off * 64 + f.lo < 2 ^ 18) (hg : g.off * 64 + g.lo < 2 ^ 18) : (d.wri p i f v).rdi q j g = d.rdi q j g := by
  apply Dev.rdi_wri_other; unfold fldKey; omega

/-- A field of another offset or place, whatever the pages and indices. -/
theorem Dev.rdi_wri_offset (d : Dev) (p i v q j : Nat) (f g : Fld) (h : (g.off * 64 + g.lo) % 2 ^ 18 ≠ (f.off * 64 + f.lo) % 2 ^ 18) :
    (d.wri p i f v).rdi q j g = d.rdi q j g := by
  apply Dev.rdi_wri_other; unfold fldKey; omega

/-- Another index of a banked register. -/
theorem Dev.rdi_wri_index (d : Dev) (p i v j : Nat) (f : Fld) (h : j ≠ i) : (d.wri p i f v).rdi p j f = d.rdi p j f := by
  apply Dev.rdi_wri_other; unfold fldKey; omega

theorem Dev.rdi_send_offset (d : Dev) (t p k c a x q j : Nat) (g : Fld)
    (h : (g.off * 64 + g.lo) % 2 ^ 18 ≠ (F.FC_DROP_CNT.COUNT.off * 64 + F.FC_DROP_CNT.COUNT.lo) % 2 ^ 18) :
    (d.send t p k c a x).rdi q j g = d.rdi q j g := by
  unfold Dev.send Dev.count
  split
  · exact Dev.rdi_wri_offset _ _ _ _ _ _ _ _ h
  · rfl

/-- A message leaves every register but the count of dropped messages. -/
theorem Dev.rdi_send (d : Dev) (t p k c a x q j : Nat) (g : Fld) (h : fldKey q j g ≠ fldKey P.tollhouse 0 F.FC_DROP_CNT.COUNT) :
    (d.send t p k c a x).rdi q j g = d.rdi q j g := by
  unfold Dev.send Dev.count
  split
  · exact Dev.rdi_wri_other _ _ _ _ _ _ _ _ h
  · rfl

/-- A message of a unit that holds fewer than 8 joins the queue. -/
theorem Dev.send_outbox (d : Dev) (t p k c a x : Nat) (h : d.held p < 8) :
    (d.send t p k c a x).outbox = d.outbox ++ [⟨p, k, c, a % 2 ^ 48, t % 2 ^ 32, x % 2 ^ 19, none⟩] := by
  unfold Dev.send
  rw [if_neg (by omega)]

/-- A message of class DEFERRED, CONTAINED or FATAL always joins the queue. -/
theorem Dev.send_outbox_severe (d : Dev) (t p k c a x : Nat) (h : c = Cls.DEFERRED ∨ c = Cls.CONTAINED ∨ c = Cls.FATAL) :
    (d.send t p k c a x).outbox = d.outbox ++ [⟨p, k, c, a % 2 ^ 48, t % 2 ^ 32, x % 2 ^ 19, none⟩] := by
  unfold Dev.send
  rw [if_neg]
  rcases h with h | h | h <;> subst h <;> simp [Cls.DEFERRED, Cls.CONTAINED, Cls.FATAL, Cls.CORRECTED, Cls.INFO]

end Sys2Proof.Machine
end

