-- ==== Sys2Proof/Laws/Frames.lean ====
section
/-!
SUPPORT. Sys2Proof/Laws/Frames.lean: how the frame `OtherPages` is built up, write by write.
-/

namespace Sys2Proof.Machine

theorem otherPages_wri (d : Dev) (p i v : Nat) (f : Fld) (hi : i < 2 ^ 20) (hf : f.off * 64 + f.lo < 2 ^ 18) :
    OtherPages d (d.wri p i f v) p := by
  intro q j g hq hj hg hl
  exact Dev.rdi_wri_page _ _ _ _ _ _ _ _ hq hi hj hf (by omega)

theorem OtherPages.wri {a b : Dev} {p : Nat} (h : OtherPages a b p) (i v : Nat) (f : Fld) (hi : i < 2 ^ 20) (hf : f.off * 64 + f.lo < 2 ^ 18) : OtherPages a (b.wri p i f v) p :=
  fun q j g hq hj ho hl => (otherPages_wri b p i v f hi hf q j g hq hj ho hl).trans (h q j g hq hj ho hl)
theorem OtherPages.trans {a b c : Dev} {p : Nat} (h : OtherPages a b p) (k : OtherPages b c p) : OtherPages a c p :=
  fun q i f hq hi ho hl => (k q i f hq hi ho hl).trans (h q i f hq hi ho hl)
theorem OtherPages.rfl' {a : Dev} {p : Nat} : OtherPages a a p := fun _ _ _ _ _ _ _ => rfl
theorem OtherPages.of_regs {a b c : Dev} {p : Nat} (h : OtherPages a b p) (hr : c.regs = b.regs) : OtherPages a c p := by
  intro q i f hq hi ho hl; rw [← h q i f hq hi ho hl]; simp [Dev.rdi, hr]

end Sys2Proof.Machine
end

