-- ==== Sys2Proof/Laws/Memory.lean ====
section
/-!
SUPPORT. Sys2Proof/Laws/Memory.lean: every operation on a memory of the block keeps its canonical form, and the memories after
reset have it.
-/

namespace Sys2Proof.Machine

variable {α : Type}

theorem Tbl.wf_filter [DecidableEq α] (dflt : Nat → α) (keep : Nat × α → Bool) (t : Tbl α) (h : Tbl.wf dflt t = true) :
    Tbl.wf dflt (t.filter keep) = true := by
  induction t with
  | nil => rfl
  | cons c rest ih =>
    simp only [Tbl.wf, Bool.and_eq_true] at h
    rw [List.filter_cons]
    split
    · simp only [Tbl.wf, Bool.and_eq_true]
      refine ⟨⟨h.1.1, ?_⟩, ih h.2⟩
      have hr := h.1.2
      simp only [List.all_eq_true] at hr ⊢
      exact fun c hc => hr c (List.mem_filter.mp hc).1
    · exact ih h.2

/-- Writes in any order, at places and of values that a list gives. -/
theorem Tbl.wf_foldl_set {β : Type} [DecidableEq α] (dflt : Nat → α) (key : β → Nat) (val : β → α) (xs : List β) (t : Tbl α)
    (h : Tbl.wf dflt t = true) : Tbl.wf dflt (xs.foldl (fun m x => Tbl.set dflt m (key x) (val x)) t) = true := by
  induction xs generalizing t with
  | nil => exact h
  | cons x xs ih => exact ih _ (Tbl.wf_set dflt t _ _ h)

/-- A scratchpad row write. -/
theorem putRow_wf (d : Dev) (s a : Nat) (bs : List Byte) (h : Tbl.wf zeroByte d.spad = true) :
    Tbl.wf zeroByte (d.putRow s a bs).spad = true := Tbl.wf_setAll _ _ _ _ h

/-- A write of host memory. -/
theorem putHost_wf (d : Dev) (a : Nat) (bs : List Byte) (h : Tbl.wf zeroByte d.hostMem = true) :
    Tbl.wf zeroByte (d.putHost a bs).hostMem = true := Tbl.wf_setAll _ _ _ _ h

/-- A write of near-tier bytes; a byte without a place is left out. -/
theorem putStack_wf (d : Dev) (a : Nat) (bs : List Byte) (h : Tbl.wf (nearDflt d.nearGen) d.near = true) :
    Tbl.wf (nearDflt (d.putStack a bs).nearGen) (d.putStack a bs).near = true := by
  unfold Dev.putStack
  generalize List.range bs.length = is
  induction is generalizing d with
  | nil => exact h
  | cons i is ih =>
    rw [List.foldl_cons]
    apply ih
    cases d.nearPlace (a + i) with
    | none => exact h
    | some x => exact Tbl.wf_set _ _ _ _ h

/-- The move of a range of entries. -/
theorem moveKeys_wf [DecidableEq α] (dflt : Nat → α) (m : Tbl α) (lo hi to_ : Nat) (h : Tbl.wf dflt m = true) :
    Tbl.wf dflt (moveKeys dflt m lo hi to_) = true :=
  Tbl.wf_foldl_set dflt _ _ _ _ (Tbl.wf_filter dflt _ _ h)

/-- The move of a near-tier granule to a spare. -/
theorem moveGranule_wf (gen : Nat) (m : Tbl Byte) (lo to_ : Nat) (h : Tbl.wf (nearDflt gen) m = true) :
    Tbl.wf (nearDflt gen) (moveGranule gen m lo to_) = true := by
  unfold moveGranule
  split
  · exact moveKeys_wf _ _ _ _ _ h
  · exact Tbl.wf_foldl_set _ _ _ _ _ h

/-- The memories after reset list nothing. -/
theorem reset_memories : State.reset.d.spad = [] ∧ State.reset.d.near = [] ∧ State.reset.d.hostMem = [] ∧ State.reset.d.fabric = [] :=
  ⟨rfl, rfl, rfl, rfl⟩

end Sys2Proof.Machine
end

