-- ==== Sys2Proof/WellFormed.lean ====
section
/-!
DEFINITION. Sys2Proof/WellFormed.lean: which commands name things that the device has (R57 to R60, R102, R326, R445): a unit
of the right kind, a ring, a span, a port, a window. A meaning is total: a command that names nothing changes nothing or is
ignored as its rule says.
-/

namespace Sys2Proof

open Sys2Proof.Machine

/-- The path of a unit of one of the given kinds. -/
def wfKind (ks : List UKind) (p : Nat) : Bool := match kindOf p with
  | some k => ks.contains k
  | none => false
def wfUnit (p : Nat) : Bool := (kindOf p).isSome
def wfMe (p : Nat) : Bool := wfKind [.me, .spare] p
def wfSf (p : Nat) : Bool := wfKind [.sf] p
def wfTile (p : Nat) : Bool := wfKind [.me, .spare, .sf] p
def wfSp (p : Nat) : Bool := wfKind [.sp] p
def wfClerk (p : Nat) : Bool := wfKind [.clerk] p
def wfIo (p : Nat) : Bool := wfKind [.io] p
def wfRing (k : Nat) : Bool := decide (k ≤ 32)
def wfSpan (s : Nat) : Bool := decide (s < 8)
def wfPort (p : Nat) : Bool := decide (p < 24)
def wfWin (w : Nat) : Bool := decide (w < 1024)
def wfStack (s : Nat) : Bool := decide (s < 32)
def wfSrc : Src → Bool
  | .host => true
  | .clerk p => wfClerk p
  | .mgmt => true
/-- An access of at most 8 bytes within a page. -/
def wfAccess (off size : Nat) : Bool := decide (1 ≤ size) && decide (size ≤ 8) && decide (off + size ≤ 4096)
def wfRes : ReqOutcome → Bool
  | .ok => true
  | .failed c => decide (1 ≤ c) && decide (c < 16)
  | .late => true
def wfCtl (l : List ReqOutcome) : Bool := l.all wfRes
def wfAcc (l : List AccessErr) : Bool := l.all (fun e => wfRes e.res)
/-- Every field of a frame within its width (R736, R737). -/
def wfFrame (f : Frame) : Bool :=
  decide (f.payload.length ≤ 4096) && decide (f.vc < 4) && decide (f.dst < 2 ^ 17) && decide (f.src < 2 ^ 17) &&
  decide (f.op < 64) && decide (f.hops < 16) && decide (f.key < 2 ^ 32) && decide (f.win < 1024) && decide (f.strand < 32) &&
  decide (f.tag < 2 ^ 16) && decide (f.offset < 2 ^ 48) && decide (f.group < 64) && decide (f.reserved < 2 ^ 96)

/-- A sideband address has 7 bits (R1072). -/
def wfVia : MgmtVia → Bool
  | .address a => decide (a < 128)
  | _ => true

/-- Does a command name only what the device has? -/
def wellFormed : Instr → Bool
  | .registerWrite src p off size _ => wfSrc src && decide (p < 65536) && wfAccess off size
  | .registerRead src p off size => wfSrc src && decide (p < 65536) && wfAccess off size
  | .unitEnable p | .unitDisable p | .blockReset p _ | .fence p | .release p | .startSequenceDone p | .unitDrainComplete p
  | .unitDrainTimeout p | .trapClear p | .sliceStart p | .sliceDone p _ _ _ | .sliceBudgetExpiry p | .biOverdue p => wfUnit p
  | .groupPageWrite off _ => decide (off < 4096)
  | .vgw _ off _ => decide (off < 12288)
  | .vgc _ ws | .vga _ ws => decide (ws.length = 8)
  | .docketFetch k res _ => wfRing k && wfRes res
  | .doorbell k _ | .completionWrite k | .cplHeadWrite k _ | .restart k | .nop k | .barrier k | .runStep k => wfRing k
  | .docketBegin k ctl | .stream k ctl | .fetch k ctl | .offload k ctl => wfRing k && wfCtl ctl
  | .amaxRoll a b => decide (a < 4096) && decide (b < 4096)
  | .meGo p | .meStop p | .meProgRead p | .meProgWrite p _ => wfTile p
  | .mma p _ | .bankFull p _ | .shadowMove p | .drain p | .drainStart p _ | .drainComplete p | .mcfg p | .ldw p _ | .lda p => wfMe p
  | .wait p | .setb p | .loop p | .endl p | .endp p | .tileNop p => wfTile p
  | .sfop p | .sfcfg p | .sfPregWrite p _ => wfSf p
  | .hostSub s b e => wfSpan s && decide (b < 4) && decide (e < 4)
  | .hostRel s | .meSpare s | .trWatchdogWrite s _ _ | .scFlush s | .scInvalidate s | .scOpDone s | .fread s _ | .fadd s _ _
  | .fset s _ _ _ | .scRead s _ _ | .scWrite s _ _ | .leadAdapt s | .stallStart s _ _ _ | .caStall s _ _
  | .pwDroop s => wfSpan s
  | .grainStart io _ | .grainFlitMove io _ => wfIo io
  | .subDocketBegin s _ ctl => wfSpan s && wfCtl ctl
  | .descriptorWrite io res ctl => wfIo io && wfRes res && wfCtl ctl
  | .loadPlan res | .farReply _ res => wfRes res
  | .restore res ctl acc | .snapshotStage _ res ctl acc => wfRes res && wfCtl ctl && wfAcc acc
  | .rowRead p _ | .rowWrite p | .spEccWriteback p | .spCheckWrite p _ => wfSp p
  | .apertureRead off size _ | .apertureWrite off size _ _ => decide (off + size ≤ 2 ^ 31)
  | .windowWriteCounted w res ctl acc => wfWin w && wfRes res && wfCtl ctl && wfAcc acc
  | .fillBegin w ctl => wfWin w && wfCtl ctl
  | .fillCounted w => wfWin w
  | .clerkInstruction p acc ctl => wfClerk p && wfAcc acc && wfCtl ctl
  | .tzRld p | .tzRst p | .rowMoveDone p _ | .tzRfence p | .tzLfadd p | .tzLfread p | .tzLfset p
  | .tzCwait p | .cwaitTimeout p | .tzDpost p | .tzDpoll p | .tzEfence p | .tzDone p | .gcGo p | .gcStop p => wfClerk p
  | .nmRetire st bad => wfStack st && bad.all (fun i => decide (i < 16384))
  | .patrolScrub st _ _ | .migrationStart st | .nmRetGo _ st | .nmLinkRetrainDone st => wfStack st
  | .nearRead p _ n _ _ _ _ ctl => wfUnit p && decide (1 ≤ n) && decide (n ≤ 512) && wfCtl ctl
  | .nearWrite p _ data _ _ ctl => wfUnit p && decide (1 ≤ data.length) && decide (data.length ≤ 512) && wfCtl ctl
  | .expanderProbe e _ => decide (e < 16)
  | .trainingDone p | .trainingTimeout p | .trainingRetry p | .hello p _ | .ack p _ | .nak p _ | .credit p _ _
  | .creditReport p | .replayTimeout p | .kyRetrain p _ _ | .kyLaneSpare p _ _ _ | .retrainTimeout p | .kySlow p _
  | .slowClear p | .tsync p _ _ | .tdreq p _ | .tdrsp p _ _ => wfPort p
  | .frameReceive p seq crc f => wfPort p && wfFrame f && decide (seq < 2 ^ 32) && decide (crc < 2 ^ 32)
  | .wack f acc => wfFrame f && wfAcc acc
  | .put f | .cwrite f | .wref f | .cready f | .cabort f => wfFrame f
  | .hdmWrite a data _ => decide (1 ≤ data.length) && decide (a.toNat % 64 + data.length ≤ 64)
  | .cxlLinkDown l | .cxlLinkUp l | .ideFail l | .aerUncorr l => decide (l < 2)
  | .mctpRegisterAccess _ p off _ via vendor => wfVia via && via != .doe && decide (vendor < 65536) && decide (p < 65536) && decide (off < 4096)
  | .mctpPacketRead via => wfVia via && via != .doe
  | .spdmRequest via code slot => wfVia via && decide (128 ≤ code) && decide (code < 256) && decide (slot < 16) && code != 0xE0
  | .getMeasurements via i slot => wfVia via && decide (i < 256) && decide (slot < 16)
  | .windowOpen _ ctl | .nmScrub ctl => wfCtl ctl
  | .allReduce ctl acc | .reduceScatter ctl acc | .allGather ctl acc | .amaxMax ctl acc | .reducePut ctl acc | .snapshot ctl acc
  | .captureStart ctl acc | .captureEnd ctl acc => wfCtl ctl && wfAcc acc
  | .quiesceTimeout | .unseal | .kill | .amaxRead | .amaxCommit _ | .amaxRollDone | .vgcPeriod | .flitArrive _ | .creditReturn _
  | .trStall _ _ _ | .rowRequest _ _ | .windowClose _ | .ftPtInvAll | .ftPtInvPage _ | .invalidationDone
  | .nmTimeout _ | .retWindowStart | .nmCfgWrite _ | .farTimeout _ | .partStart _ | .dkStepWrite _ | .clear
  | .kyDevIdWrite _ | .selectiveAck _ _ _ _ | .selectiveAckSend _ _ | .e2eResend _ _ | .kyRtDataWrite _ | .tsyncPeriod
  | .chRemote _ _ | .tollhouseMessage _ | .fcAck _
  | .graceTimerExpiry _ | .ladderStepDone _ _ | .recurEnd _ | .errPulseEnd | .errPinCtlWrite _ | .fcPhaseWrite _
  | .fcReactWrite _ | .fcLogRead | .bistWindow | .bistWindowEnd | .biAutoOff | .assayerEval | .snapshotComplete | .snPair | .snUnpair | .snAutoOff | .hdmRead _ _ _ | .bisnpResponse _ | .hostSnoop _
  | .uioRequest _ | .boot _ | .bootStepTimeout _ | .clearLevels | .maintNext | .svnCommit | .revoke _ | .nextImage _
  | .btJrnlRead | .firmwareUpdate _ _ | .activateFirmware | .pldmSensorUpdate | .ckUnlock | .phyPllUnlock _ _ | .governorPeriod _ | .voltageRampDone | .powerUp | .powerUpComplete
  | .inputUndervoltage | .railUv _ | .sensorRead _ | .thermalClear | .perstN _ | .voltageLowerDone | .hdmDecoderCommit _ => true

end Sys2Proof
end

