-- ==== Sys2Proof/Tests/Slice0.lean ====
section
/-!
SUPPORT. Sys2Proof/Tests/Slice0.lean: small tests of the model, each on a state of one or two written fields: an ill-formed command
for every check of WellFormed, values worked by hand from the spec, and for every statement a state and operands for each of its
clauses that meet the clause's hypotheses.
-/

namespace Sys2Proof.Tests

open Sys2Proof Sys2Proof.Machine

-- one theorem after another: each waits for the one before it, and a waiting thread keeps its stack
set_option Elab.async false

/-- The reset state at device time `now` with a device in place of its own. -/
def at_ (now : Nat) (d : Dev) : State := { State.reset with now := now, d := d }
/-- A device on which the units of a list are ON. -/
def onAll (ps : List Nat) (d : Dev) : Dev := ps.foldl (fun d p => d.wr p F.UNIT_STAT.STATE U.ON) d
def d0 : Dev := {}
/-- An engine, a spare, an SF tile, a scratchpad tile and a clerk of span 0. -/
def meP : Nat := P.me 0 0 0
def sfP : Nat := P.sf 0 0 0
def spP : Nat := P.sp 0 0 0
def gcP : Nat := P.clerk 0 0 0
/-- An engine that is ON and RUNNING with one instruction at its PC. -/
def meRun (w : Nat) (m : MeSt) : Dev := ((onAll [meP] d0).wr meP F.ME_STAT.RUNNING 1).putMe meP { m with prog := Tbl.set noWord128 [] 0 (BitVec.ofNat 128 w) }
def sfRun (w : Nat) (m : SfSt) : Dev := ((onAll [sfP] d0).wr sfP F.SF_STAT.RUNNING 1).putSf sfP { m with prog := Tbl.set noWord128 [] 0 (BitVec.ofNat 128 w) }
/-- A plan with the circuits and windows of two lists. -/
def planOf (cs : List Circuit) (ws : List WinDecl) : Plan :=
  { id := 7, mask := 1, circuits := cs, mePrograms := [], sfPrograms := [], images := [], tollgates := [], descs := [], windows := ws }
def withPlan (cs : List Circuit) (ws : List WinDecl) (d : Dev) : Dev := { d with plan := some (planOf cs ws) }
/-- A circuit of span 0 from an out-port to an in-port. -/
def cir (n src sport dst dport kind : Nat) : Circuit := ⟨n, 0, posOf src, sport, posOf dst, dport, false, kind, 8, 1, none⟩

/-! ### Witnesses: states and operands that meet the hypotheses of each clause of a statement -/

def lg (v l : Nat) : Dev := (d0.wri (P.ledger 0) 3 F.LG_COUNTER.VALUE v).wri (P.ledger 0) 3 F.LG_COUNTER.LIMIT l
theorem witness_LedgerOperations : (lg 1 4).clocked = true ∧ (lg 4 4).clocked = true ∧
    (lg 1 4).lgValue 0 3 < (lg 1 4).lgLimit 0 3 ∧ (lg 4 4).lgLimit 0 3 ≤ (lg 4 4).lgValue 0 3 := by decide +kernel

def rdCirc : Circuit := cir 1 spP 0 meP 0 1
def rq : Dev := (withPlan [rdCirc] [] d0).putCirc 1 { requests := [5] }
def rdy : Dev := { onAll [spP] (withPlan [rdCirc] [] d0) with spReqs := Tbl.set noReqs [] spP [⟨1, 5⟩] }
def wrCirc : Circuit := cir 2 meP 0 spP 0 0
def grp4 : List Flit := List.replicate 3 ⟨0, false, 3, 9, 0, 0, List.replicate 128 1⟩ ++ [⟨0, true, 3, 9, 0, 0, List.replicate 128 1⟩]
def wrt : Dev := (onAll [spP] (withPlan [wrCirc] [] d0)).putCirc 2 { queue := grp4 }
/-- A Carter's request for the row of an ONCHIP page, of a fill. -/
def onchipReq : Req := { id := 0, path := P.carter 0, owner := .ring 0 0, kind := 0, tier := 4, taddr := 0, addr := 0, len := 512, write := false }
def onchipDev : Dev := { onAll [spP] d0 with reqs := [onchipReq] }
theorem witness_RowRequests :
    onchipDev.clocked = true ∧ onchipDev.apRead spP = none ∧ onchipDev.readyReads spP = [] ∧ onchipDev.carterRow spP false = some onchipReq ∧
    onchipReq.kind = 0 ∧ onchipDev.copies = [] ∧ rdy.carterRow spP false = none ∧ wrt.carterRow spP true = none ∧ wrt.winRow spP = none ∧
    rq.clocked = true ∧ rq.circuit 1 = some rdCirc ∧ (rq.circ 1).requests = [5] ∧
    (5 : BitVec 16).toNat / 2 ^ 14 = rq.epoch (posSpan rdCirc.srcPos) ∧
    (0x4005 : BitVec 16).toNat / 2 ^ 14 ≠ rq.epoch (posSpan rdCirc.srcPos) ∧
    rdy.clocked = true ∧ kindOf spP = some .sp ∧ rdy.readyReads spP = [(0, true, ⟨1, 5⟩)] ∧ rdy.apRead spP = none ∧
    rdy.circuit 1 = some rdCirc ∧
    wrt.clocked = true ∧ wrt.circuits.filter (fun c => c.dstPos == posOf spP && c.kind != 1) = [wrCirc] ∧ wrt.apWrite spP = none ∧
    wrCirc.dstPort < 8 ∧ (wrt.circ wrCirc.key).queue = grp4 ++ [] ∧
    grp4.length = 4 ∧ (grp4.flatMap (fun f => f.payload)).length = 512 ∧ writeGroup (tileNo spP) (grp4 ++ []) = some (4, true) := by
  decide +kernel

def fixed : Dev := { d0 with spFix := [spP * 2 ^ 14 + 3] }
def planned : Dev := withPlan [] [⟨0, 0, 0, 1⟩] d0
def booted : Dev := (onAll [spP] d0).wr P.boot F.BT_STAT.READY 1
/-- An aperture read that waits at the first tile, and a write whose merged row waits there. -/
def apWaits : Dev := { booted with apQ := [{ off := 8, size := 8 }] }
def apMerged : Dev := { booted with apQ := [{ off := 64, size := 1, data := some [0xA5], merged := some (List.replicate 512 0xA5) }] }
theorem witness_ScratchpadTiles :
    kindOf spP = some .sp ∧ fixed.clocked = true ∧ fixed.writeReady spP = false ∧
    fixed.spFix.find? (fun x => x / 2 ^ 14 == spP) = some (spP * 2 ^ 14 + 3) ∧ wrt.writeReady spP = true ∧ d0.planIn (spanOf spP) = false ∧
    d0.rd spP F.SP_CHECK.ENABLE = 0 ∧ (3 : Word).toNat % 2 = 1 ∧ planned.planIn (spanOf spP) = true ∧
    apertureOk 64 8 = true ∧ booted.apertureOpen (aperturePath 64) = true ∧ booted.apFree (aperturePath 64) = true ∧
    booted.writeReady (aperturePath 64) = false ∧
    apWaits.apertureOpen (aperturePath 64) = true ∧ apWaits.apFree (aperturePath 64) = false ∧
    apWaits.clocked = true ∧ apWaits.readClasses (aperturePath 64) = ([], [aperturePort]) ∧ apWaits.apRead (aperturePath 64) = some { off := 8, size := 8 } ∧
    apertureOk 8 8 = true ∧ aperturePath 8 = aperturePath 64 ∧
    apMerged.clocked = true ∧ apMerged.writeReqs (aperturePath 64) = [(aperturePort, false)] ∧ (apMerged.apWrite (aperturePath 64)).isSome = true ∧
    apertureOk 64 3 = false ∧ d0.apertureOpen (aperturePath 64) = false := by decide +kernel

def amIdx : Dev := d0.wr P.amax F.CH_AMAX_INDEX.INDEX 5
def amBusy : Dev := d0.wr P.amax F.CH_AMAX_ROLL.BUSY 1
def amRolls : Dev := { amBusy with roll := some (4094, 4095) }
theorem witness_AmaxTable : amIdx.rd P.amax F.CH_AMAX_INDEX.INDEX ≠ 0 ∧ d0.rd P.amax F.CH_AMAX_INDEX.INDEX = 0 ∧
    d0.flag P.amax F.CH_AMAX_ROLL.BUSY = false ∧ amBusy.flag P.amax F.CH_AMAX_ROLL.BUSY = true ∧
    fmtIsReserved (bitsOf (0xD * 2 ^ 32 : Word).toNat 32 4) = true ∧ fmtIsReserved (bitsOf (0xC * 2 ^ 32 : Word).toNat 32 4) = false ∧
    amRolls.roll = some (4094, 4095) ∧ amBusy.roll = none := by decide +kernel

/-- A trap record that the hardware wrote in this MCLK cycle. -/
def trapNew : Dev := d0.raiseBit meP F.TRAP0.VALID 0
theorem witness_TileControl :
    kindOf meP = some .me ∧ d0.flag meP F.ME_STAT.RUNNING = false ∧ (onAll [meP] d0).on meP = true ∧
    kindOf sfP = some .sf ∧ d0.flag sfP F.SF_STAT.RUNNING = false ∧ (onAll [sfP] d0).on sfP = true ∧
    isTile meP = true ∧ (meRun 0 {}).flag meP F.ME_STAT.RUNNING = true ∧ kindOf gcP = some .clerk ∧
    d0.newMask meP 0 F.TRAP0.VALID = 0 ∧ trapNew.newMask meP 0 F.TRAP0.VALID ≠ 0 := by decide +kernel

/-- A WAIT for window 1 to have been delivered once; the same guard on another instruction. -/
def guardBits : Nat := 1 * 2 ^ 5 + 1 * 2 ^ 7 + 1 * 2 ^ 17
def waitW : Nat := 6 + guardBits
def aDrain : Drain :=
  { instr := 0, pc := 0, dest := 0, sinvA := 0, sinvB := 0, scaleY := 0, rmode := 0, sat := false, nanCont := false, trapInf := false,
    part := none }
theorem witness_EngineControlInstructions :
    (meRun 3 {}).clocked = true ∧
    (meRun 3 {}).meReady meP 3 = true ∧ (meRun 7 {}).meReady meP 7 = true ∧ (meRun 8 {}).meReady meP 8 = true ∧
    (meRun 9 { loops := [(1, 2)] }).meReady meP 9 = true ∧ ((meRun 9 { loops := [(1, 2)] }).me meP).loops = [(1, 2)] ∧
    ((meRun 9 { loops := [(1, 1)] }).me meP).loops = [(1, 1)] ∧ (meRun 0 {}).meReady meP 0 = true ∧
    (meRun 0x1F {}).meReady meP 0x1F = true ∧ ((meRun 0x1F {}).me meP).drains = [] ∧ ((meRun 0x1F {}).me meP).part = none ∧
    (meRun 0x1F { drains := [aDrain] }).meReady meP 0x1F = true ∧ ((meRun 0x1F { drains := [aDrain] }).me meP).drains ≠ [] ∧
    (meRun 6 {}).meReady meP 6 = true ∧ (meRun 6 {}).guardOk ((meRun 6 {}).meInstr meP) = true ∧
    (meRun waitW {}).meReady meP 6 = true ∧ (meRun waitW {}).guardOk ((meRun waitW {}).meInstr meP) = false ∧
    (∀ op ∈ [1, 2, 4, 5], (meRun (op + guardBits) {}).meReady meP op = true ∧
      (meRun (op + guardBits) {}).guardOk ((meRun (op + guardBits) {}).meInstr meP) = false) ∧
    (sfRun 6 {}).sfReady sfP 6 = true ∧ (sfRun 6 {}).guardOk ((sfRun 6 {}).sfInstr sfP) = true ∧
    (sfRun waitW {}).sfReady sfP 6 = true ∧ (sfRun waitW {}).guardOk ((sfRun waitW {}).sfInstr sfP) = false := by decide +kernel

def sfOutC : Circuit := cir 3 sfP 0 spP 0 0
def sfHeld : Dev := (withPlan [sfOutC] [] (sfRun 0x1F {})).putCirc 3 { ready := [⟨0, true, 3, 0, 0, 0, []⟩] }
theorem witness_SfControl :
    (sfRun 8 {}).clocked = true ∧
    (sfRun 8 {}).sfReady sfP 8 = true ∧ (sfRun 9 { loops := [(1, 2)] }).sfReady sfP 9 = true ∧
    ((sfRun 9 { loops := [(1, 2)] }).sf sfP).loops = [(1, 2)] ∧ ((sfRun 9 { loops := [(1, 1)] }).sf sfP).loops = [(1, 1)] ∧
    (sfRun 0 {}).sfReady sfP 0 = true ∧ (sfRun 0x1F {}).sfReady sfP 0x1F = true ∧ (sfRun 0x1F {}).outsEmpty sfP = true ∧
    ((sfRun 0x1F {}).sf sfP).part = none ∧ sfHeld.sfReady sfP 0x1F = true ∧ sfHeld.outsEmpty sfP = false ∧
    (sfRun 2 {}).sfReady sfP 2 = true ∧ sfcfgPreg ((sfRun 2 {}).sfInstr sfP) < 28 ∧ kindOf sfP = some .sf ∧
    d0.rd sfP F.SF_PREG_SEL.PREG < 28 := by decide +kernel

/-- Read circuits from the first scratchpad tiles into in-ports of the engine, and its drain circuits to a tile and to the I/O tile. -/
def ioP : Nat := P.io 0 0
def opCircs : List Circuit := [cir 1 spP 0 meP 0 1, cir 2 spP 1 meP 1 1, cir 4 spP 2 meP 4 1, cir 5 meP 0 spP 0 0, cir 6 meP 1 ioP 0 0]
/-- The four flits of a row, of which three have arrived and the last stands on the links of circuit `k`. -/
def rowFlits (row : Nat) (b : Byte) : List Flit :=
  (List.range 4).map (fun j => ⟨0, decide (j = 3), 2, row, 0, BitVec.allOnes 128, List.replicate 128 b⟩)
def coming (k row : Nat) (d : Dev) : Dev :=
  d.putCirc k { depth := 8, credits := 4, queue := (rowFlits row 1).take 3, inFlight := (rowFlits row 1).drop 3 }
/-- The engine's instruction in its issue stage, changed. -/
def withOp (f : EngOp → EngOp) (d : Dev) : Dev := d.putMe meP { d.me meP with op := (d.me meP).op.map f }
def hasGot (got : List (RowKey × List Byte)) (o : EngOp) : EngOp := { o with fetch := { o.fetch with got := got } }
/-- The device after one command. -/
def after_ (t : Nat) (i : Instr) (d : Dev) : Dev := match exec i (at_ t d) with | .next u => u.d | _ => d

/-- An MMA of one row, one column and K = 1 over INT8 panels; one with ACC_IN; one on the cell registers (RES = 1). -/
def int8Cfg : W128 := BitVec.ofNat 128 (5 * 2 ^ 5 + 5 * 2 ^ 9)
def mmaRun : Dev := withPlan opCircs [] (meRun 1 { cfg := int8Cfg })
def accRun : Dev := meRun (1 + 2 ^ 111) { cfg := int8Cfg }
def accMore : Dev := (meRun (1 + 2 ^ 111) { cfg := int8Cfg, bankA := { m := 1, n := 1, isInt := true } }).wr meP (bankFld false) 1
def mmaFull : Dev := mmaRun.wr meP (bankFld false) 3
def longK : Dev := meRun (1 + 65535 * 2 ^ 51) { cfg := int8Cfg }
def badPair : Dev := meRun 1 { cfg := BitVec.ofNat 128 (5 * 2 ^ 5 + 2 * 2 ^ 9) }
def noCircs : Dev := meRun 1 { cfg := int8Cfg }
def mmaLast : Dev := coming 1 0 (withOp (hasGot [(⟨1, 0⟩, List.replicate 512 0)]) (after_ 0 (.mma meP 0) mmaRun))
def resLast : Dev := coming 1 0 (withOp (hasGot [(⟨1, 0⟩, List.replicate 512 0)])
  (after_ 0 (.mma meP 0) (withPlan opCircs [] (meRun (1 + 2 ^ 109) { cfg := int8Cfg }))))
theorem witness_MmaRows :
    mmaRun.clocked = true ∧ mmaRun.meReady meP 1 = true ∧ mmaRun.guardOk (mmaRun.meInstr meP) = true ∧ mmaRes (mmaRun.meInstr meP) = false ∧
    mmaRun.mmaCheck meP = .proceed ∧
    mmaAccIn (mmaRun.meInstr meP) = false ∧ mmaRun.rd meP (bankFld (mmaBank (mmaRun.meInstr meP))) = 0 ∧
    mmaK (mmaRun.meInstr meP) ≤ 128 * panelWidth (cfgFmtA (mmaRun.me meP).cfg) ∧
    fmtPairOk (cfgFmtA (mmaRun.me meP).cfg) (cfgFmtB (mmaRun.me meP).cfg) = true ∧
    mmaRun.mmaCircuits meP (mmaRun.mmaA meP (mmaRun.meInstr meP)) (mmaRun.mmaB meP (mmaRun.meInstr meP)) = true ∧
    (mmaRun.mmaA meP (mmaRun.meInstr meP)).rows ++ (mmaRun.mmaB meP (mmaRun.meInstr meP)).rows ≠ [] ∧
    mmaFull.clocked = true ∧ mmaFull.meReady meP 1 = true ∧ mmaFull.guardOk (mmaFull.meInstr meP) = true ∧ mmaFull.mmaCheck meP = .stall ∧
    accMore.clocked = true ∧ accMore.meReady meP 1 = true ∧ accMore.rd meP (bankFld (mmaBank (accMore.meInstr meP))) = 1 ∧
    (accMore.me meP).bankQueued (mmaBank (accMore.meInstr meP)) = false ∧ mmaAccIn (accMore.meInstr meP) = true ∧
    ((accMore.me meP).bank (mmaBank (accMore.meInstr meP))).m = mmaM (accMore.meInstr meP) ∧
    ((accMore.me meP).bank (mmaBank (accMore.meInstr meP))).n = mmaN (accMore.meInstr meP) ∧
    ((accMore.me meP).bank (mmaBank (accMore.meInstr meP))).isInt = fmtIsInt (cfgFmtA (accMore.me meP).cfg) ∧
    accRun.clocked = true ∧ accRun.meReady meP 1 = true ∧ accRun.guardOk (accRun.meInstr meP) = true ∧ mmaRes (accRun.meInstr meP) = false ∧
    accRun.rd meP (bankFld (mmaBank (accRun.meInstr meP))) = 0 ∧ mmaAccIn (accRun.meInstr meP) = true ∧
    longK.meReady meP 1 = true ∧ longK.mmaCheck meP = .proceed ∧
    128 * panelWidth (cfgFmtA (longK.me meP).cfg) < mmaK (longK.meInstr meP) ∧
    badPair.meReady meP 1 = true ∧ badPair.guardOk (badPair.meInstr meP) = true ∧ badPair.mmaCheck meP = .proceed ∧
    fmtPairOk (cfgFmtA (badPair.me meP).cfg) (cfgFmtB (badPair.me meP).cfg) = false ∧
    noCircs.meReady meP 1 = true ∧ noCircs.mmaCheck meP = .proceed ∧
    noCircs.mmaCircuits meP (noCircs.mmaA meP (noCircs.meInstr meP)) (noCircs.mmaB meP (noCircs.meInstr meP)) = false := by decide +kernel
/-- The last row of an MMA, on a bank and on the cell registers, is on its way. -/
theorem witness_MmaRows_last : ∀ d ∈ [mmaLast, resLast], d.clocked = true ∧ d.circuit 1 = some (cir 1 spP 0 meP 0 1) ∧
    (d.comingRow (cir 1 spP 0 meP 0 1)).isSome = true ∧ d.unitAt (posOf meP) = some meP ∧ isEngine meP = true ∧
    ((d.me meP).op.any (fun o => o.fetch.lacksOnly ⟨0, 0⟩ && opcodeOf o.instr == 1 && decide (o.bits ≤ 1))) = true := by decide +kernel
theorem witness_MmaRows_res : ((mmaLast.me meP).op.map (fun o => mmaRes o.instr)) = some false ∧
    ((resLast.me meP).op.map (fun o => mmaRes o.instr)) = some true := by decide +kernel

def filled : Dev := d0.wr meP (bankFld false) 1
def moving : Dev := d0.putMe meP { moving := true }
def drRun : Dev := (withPlan opCircs [] (meRun 2 {})).wr meP (bankFld false) 2
def drQueued : Dev := (withPlan opCircs [] (d0.putMe meP { drains := [aDrain] })).wr meP (bankFld false) 2
def shadowDrain : Drain := { aDrain with instr := BitVec.ofNat 128 (2 ^ 33) }
def drShadow : Dev := (withPlan opCircs [] (d0.putMe meP { drains := [shadowDrain] })).wr meP F.ME_STAT.SHADOW 1
def drReading : Dev := withPlan opCircs [] (d0.putMe meP { drains := [{ aDrain with reading := true }] })
def drSending : Dev := drReading.putCirc 5 { ready := [⟨0, true, 3, 0, 0, 0, []⟩] }
theorem witness_BanksAndDrains :
    filled.clocked = true ∧ filled.rd meP (bankFld false) = 1 ∧ (filled.me meP).opTargets false = false ∧
    moving.clocked = true ∧ (moving.me meP).moving = true ∧ moving.rd meP F.ME_STAT.SHADOW = 0 ∧
    drRun.clocked = true ∧ drRun.meReady meP 2 = true ∧ drRun.guardOk (drRun.meInstr meP) = true ∧ drSrc (drRun.meInstr meP) = false ∧
    drRun.rd meP (bankFld (drBank (drRun.meInstr meP))) = 2 ∧ (drRun.me meP).bankQueued (drBank (drRun.meInstr meP)) = false ∧
    drRun.drainCheck meP = .proceed ∧ (drRun.me meP).drains.length < 2 ∧
    drRun.drainCircuits meP (drRun.meInstr meP) (effAddr (drRun.baseReg meP (drDBase (drRun.meInstr meP))) (drDOff (drRun.meInstr meP)))
      ((drRun.me meP).bank (drBank (drRun.meInstr meP))).m = true ∧
    drQueued.clocked = true ∧ (drQueued.me meP).drains = [aDrain] ∧ aDrain.reading = false ∧ drSrc aDrain.instr = false ∧
    drQueued.rd meP (bankFld (drBank aDrain.instr)) = 2 ∧ (drQueued.drainCircuit meP aDrain.instr).isSome = true ∧
    (drShadow.me meP).drains = [shadowDrain] ∧ drSrc shadowDrain.instr = true ∧ drShadow.rd meP F.ME_STAT.SHADOW = 1 ∧
    kindOf meP = some .me ∧ drReading.clocked = true ∧ (drReading.me meP).drains = [{ aDrain with reading := true }] ∧
    (drReading.me meP).ending = false ∧ drReading.drainSent meP aDrain.instr = true ∧
    drSending.clocked = true ∧ (drSending.me meP).drains = [{ aDrain with reading := true }] ∧
    drSending.drainSent meP aDrain.instr = false := by decide +kernel

def ldwRun : Dev := withPlan opCircs [] (meRun 4 { cfg := int8Cfg })
def ldaRun : Dev := withPlan opCircs [] (meRun 5 {})
def ldaCells : Dev := withPlan opCircs [] (meRun (5 + 2 ^ 33) {})
def ldwLast : Dev := coming 2 0 (after_ 0 (.ldw meP 0) ldwRun)
def ldaLast : Dev := coming 4 0 (after_ 0 (.lda meP) ldaRun)
def ldaCellsLast : Dev := coming 4 0 (after_ 0 (.lda meP) ldaCells)
theorem witness_EngineLoads :
    ldwRun.clocked = true ∧ ldwRun.guardOk (ldwRun.meInstr meP) = true ∧ ldwRun.meReady meP 4 = true ∧
    ldwRun.readable meP ⟨1, effAddr (ldwRun.baseReg meP (ldwBBase (ldwRun.meInstr meP))) (ldwBOff (ldwRun.meInstr meP)),
      regionRows (cfgFmtB (ldwRun.me meP).cfg) (ldwN (ldwRun.meInstr meP) * panelWidth (cfgFmtB (ldwRun.me meP).cfg))⟩ = true ∧
    ldaRun.clocked = true ∧ ldaRun.meReady meP 5 = true ∧ ldaRun.guardOk (ldaRun.meInstr meP) = true ∧ ldaTgt (ldaRun.meInstr meP) = false ∧
    ldaRun.rd meP (bankFld (ldaBank (ldaRun.meInstr meP))) = 0 ∧ ldaRun.ldaCheck meP = .proceed ∧
    ldaRun.readable meP ⟨4, effAddr (ldaRun.baseReg meP (ldaSBase (ldaRun.meInstr meP))) (ldaSOff (ldaRun.meInstr meP)),
      ldaM (ldaRun.meInstr meP)⟩ = true ∧
    ldaCells.meReady meP 5 = true ∧ ldaTgt (ldaCells.meInstr meP) = true ∧ (ldaCells.me meP).moving = false ∧
    ldaCells.flag meP F.ME_STAT.CELLS_HELD = false ∧ ldaCells.ldaCheck meP = .proceed := by decide +kernel
/-- The last row of an LDW and of an LDA is on its way. -/
theorem witness_EngineLoads_last : ∀ x ∈ [(ldwLast, 2, 1, 4), (ldaLast, 4, 4, 5), (ldaCellsLast, 4, 4, 5)],
    x.1.clocked = true ∧ (x.1.circuit x.2.1).map (fun c => (c.dstPort, x.1.unitAt c.dstPos, (x.1.comingRow c).isSome)) =
      some (x.2.2.1, some meP, true) ∧
    ((x.1.me meP).op.any (fun o => o.fetch.lacksOnly ⟨x.2.2.1, 0⟩ && opcodeOf o.instr == x.2.2.2 && decide (o.bits ≤ 1))) = true := by
  decide +kernel

/-- An SFOP of function 0 over one vector of FP32 from in-port 0, which a read circuit from the scratchpad tile feeds. -/
def sfopRun : Dev := (withPlan (sfOutC :: (List.range 16).map (fun i => cir (10 + i) (P.sp 0 (i / 4) (i % 4)) 0 sfP 0 1)) []
  (sfRun (1 + 4 * 2 ^ 47) {})).putCirc 10 { depth := 8, credits := 8 }
def sfopWait : Dev := sfRun (1 + guardBits) {}
def sfopLast : Dev := coming 10 0 (after_ 0 (.sfop sfP) sfopRun)
theorem witness_SfopExecutes :
    sfopRun.clocked = true ∧ sfopRun.sfReady sfP 1 = true ∧ sfFuncOk (sfFunc (sfopRun.sfInstr sfP)) = true ∧
    sfopRun.guardOk (sfopRun.sfInstr sfP) = true ∧
    sfopWait.clocked = true ∧ sfopWait.sfReady sfP 1 = true ∧ sfopWait.guardOk (sfopWait.sfInstr sfP) = false ∧
    sfopLast.clocked = true ∧ sfopLast.circuit 10 = some (cir 10 (P.sp 0 0 0) 0 sfP 0 1) ∧
    (sfopLast.comingRow (cir 10 (P.sp 0 0 0) 0 sfP 0 1)).isSome = true ∧ sfopLast.unitAt (posOf sfP) = some sfP ∧
    ((sfopLast.sf sfP).op.any (fun o => o.fetch.lacksOnly ⟨0, 0⟩ && o.fetch.want == [] &&
      (sfInputs o.instr).all (fun x => sfopLast.sfReads sfP x.1) && !isKernel (sfFunc o.instr) && sfFunc o.instr != 0x28 &&
      sfFmtI o.instr != 12 && sfOut o.instr == 0)) = true ∧
    sfopLast.circFrom (posOf sfP) 0 = some sfOutC ∧ sfOutC.key ≠ 10 := by decide +kernel

def flit0 : Flit := ⟨0, true, 0, 0, 0, BitVec.allOnes 128, []⟩
def flit1 : Flit := ⟨1, true, 0, 0, 0, BitVec.allOnes 128, []⟩
def push3 : Circuit := cir 3 meP 0 sfP 0 0
def onLink : Dev := (withPlan [push3] [] d0).putCirc 3 { depth := 8, credits := 6, inFlight := [flit0], back := 1 }
def onLinkOld : Dev := (withPlan [push3] [] d0).putCirc 3 { depth := 8, credits := 7, inFlight := [flit1] }
/-- A circuit through the joint switch, from span 0 to span 1. -/
def joint3 : Circuit := { cir 3 meP 0 (P.sf 1 0 0) 0 0 with joints := some (0, 1) }
def onJoint (f : Flit) : Dev := (withPlan [joint3] [] d0).putCirc 3 { depth := 8, credits := 7, inFlight := [f] }
theorem witness_FlitsAndCredits :
    onLink.clocked = true ∧ onLink.circuit 3 = some push3 ∧ (onLink.circ 3).inFlight = [flit0] ∧ posSpan push3.srcPos = posSpan push3.dstPos ∧
    onLink.unitAt push3.dstPos = some sfP ∧ (onLink.me sfP).op = none ∧ (onLink.sf sfP).op = none ∧ onLink.copies = [] ∧
    flit0.epoch = onLink.epoch (posSpan push3.dstPos) ∧ (onLinkOld.circ 3).inFlight = [flit1] ∧
    flit1.epoch ≠ onLinkOld.epoch (posSpan push3.dstPos) ∧ (onLink.circ 3).back ≠ 0 ∧ push3.kind ≠ 1 ∧ (onLinkOld.circ 3).back = 0 ∧
    (∀ f ∈ [flit0, flit1], (onJoint f).circuit joint3.key = some joint3 ∧ posSpan joint3.srcPos ≠ posSpan joint3.dstPos ∧
      (onJoint f).phase (posSpan joint3.dstPos) ≠ 3) ∧
    flit0.epoch = (onJoint flit0).epoch (posSpan joint3.srcPos) ∧ flit1.epoch ≠ (onJoint flit1).epoch (posSpan joint3.srcPos) := by
  decide +kernel

/-- An I/O tile of span 0 whose Tollgate 0 is a MERGE2 fed and drained by push circuits. -/
def tgIn : Circuit := cir 5 meP 0 ioP 16 0
def tgOut : Circuit := cir 6 ioP 16 meP 4 0
def gateDev : Dev := ((withPlan [tgIn, tgOut] [] d0).putCirc 5 { queue := [flit0] }).putTg (ioP * 16) { op := 1, grain := 1, tokens := [false] }
def gateMoving : Dev := ((withPlan [tgIn, tgOut] [] d0).putCirc 5 { queue := [flit0] }).putTg (ioP * 16)
  { op := 1, grain := 1, tokens := [false], moving := some (16, some 16, 1) }
/-- A drain of `n` vectors to the I/O tile, whose first vector of one flit has come. -/
def dioC : Circuit := cir 6 meP 1 ioP 0 0
def dioFlit : Flit := { flit0 with kind := 3, mask := 0xF, payload := List.replicate 128 0x11 }
def ioDrainOf (n : Nat) : IoDrain := { io := ioP, circ := dioC.key, desc := 2, count := n, part := none }
def ioDev (n : Nat) : Dev := (({ withPlan [dioC] [] d0 with ioDrains := [ioDrainOf n] }).putCirc dioC.key { depth := 8, credits := 7, queue := [dioFlit] }).putDesc
  (ioP * 256 + 2) { loaded := true, pitch := 64, addr := 4096, advance := 64 }
theorem witness_TollgatesAndStreams :
    gateDev.clocked = true ∧ kindOf ioP = some .io ∧ (gateDev.tg (ioP * 16 + 0)).op = 1 ∧ (gateDev.tg (ioP * 16 + 0)).stopped = false ∧
    (gateDev.tg (ioP * 16 + 0)).tokens = [false] ∧ (gateDev.tg (ioP * 16 + 0)).moving = none ∧
    gateDev.pushInto (posOf ioP) 16 = some tgIn ∧ (gateDev.circ tgIn.key).queue = [flit0] ∧
    gateDev.circFrom (posOf ioP) (16 + bit false) = some tgOut ∧ (gateDev.circ tgOut.key).ready.length < 4 ∧
    gateMoving.clocked = true ∧ (gateMoving.tg (ioP * 16 + 0)).moving = some (16, some 16, 1) ∧ gateMoving.pushInto (posOf ioP) 16 = some tgIn ∧
    (gateMoving.circ tgIn.key).queue = [flit0] ∧ gateMoving.circFrom (posOf ioP) 16 = some tgOut ∧
    (gateMoving.circ tgOut.key).ready.length < 4 ∧ tgOut.key ≠ tgIn.key ∧ gateMoving.pushInto (posOf ioP) 18 = none ∧
    (∀ n ∈ [1, 2], (ioDev n).ioDrains = [ioDrainOf n] ∧ (ioDrainOf n).io = ioP ∧ (ioDev n).circuit (ioDrainOf n).circ = some dioC ∧
      ((ioDev n).vectorAtHead (ioDrainOf n).circ).isSome = true ∧ ((ioDev n).desc (ioP * 256 + (ioDrainOf n).desc)).loaded = true) ∧
    (ioDrainOf 1).count ≤ (ioDrainOf 1).done + 1 ∧ (ioDrainOf 2).done + 1 < (ioDrainOf 2).count := by
  decide +kernel

def ldSt (ph : Nat) : LoadSt := { ring := 0, n := 0, phase := ph, image := some (planOf [] []) }
def loadAt (ph : Nat) : Dev := { d0 with load := some (ldSt ph) }
def loadBusy : Dev := { (withPlan [push3] [] (loadAt 2)).putCirc 3 { queue := [flit0] } with load := some (ldSt 2) }
def loadOld : Dev := withPlan [push3] [] (loadAt 1)
def stallC : Circuit := cir 9 meP 0 sfP 2 0
def stalled (n : Nat) : Dev := { (withPlan [stallC] [] d0).putCirc 9 { queue := [flit0] } with
  watch := { counts := Tbl.set noNat [] (portKey (posOf sfP) 2 false) n } }
theorem witness_PlanLoads :
    (∀ ph, ph < 6 → (loadAt ph).load = some (ldSt ph) ∧ (ldSt ph).phase = ph) ∧ (loadAt 0).streamingIn = false ∧
    (loadAt 1).plan.isNone = true ∧ loadOld.plan.isNone = false ∧ loadOld.load = some (ldSt 1) ∧
    loadBusy.quiesceOver 0 = false ∧ ({ loadAt 2 with cclk := 2 ^ 40 } : Dev).quiesceOver (ldSt 2).quiesceAt = true ∧
    loadBusy.load = some (ldSt 2) ∧ loadBusy.quiet allSpans = false ∧ (loadAt 2).quiet allSpans = true ∧
    push3 ∈ loadOld.circuits ∧ posSpan push3.srcPos < 8 ∧ posSpan push3.dstPos < 8 ∧
    (ldSt 4).image = some (planOf [] []) ∧ (loadAt 4).downBad (planOf [] []) = none ∧ (loadAt 5).epochBusy allSpans = false ∧
    posOf sfP < 1024 ∧ stallC.num < 4096 ∧ (stalled 0).waitingOn (posOf sfP) 2 false = some stallC ∧
    (stalled 0).watchCount (portKey (posOf sfP) 2 false) < (stalled 0).rd (P.trestle (posSpan (posOf sfP))) F.TR_WATCHDOG.LIMIT ∧
    (stalled 16777215).waitingOn (posOf sfP) 2 false = some stallC ∧
    (stalled 16777215).rd (P.trestle (posSpan (posOf sfP))) F.TR_WATCHDOG.LIMIT ≤ (stalled 16777215).watchCount (portKey (posOf sfP) 2 false) ∧
    (stalled 16777215).watch.told.contains (portKey (posOf sfP) 2 false) = false ∧ 2700 ≤ 2700 ∧ 2699 < 2700 ∧ 2 ^ 24 ≤ 2 ^ 24 ∧
    (∀ k ∈ (stalled 0).waitingPorts, (stalled 0).watchCount k ≤ 2700) := by decide +kernel

/-- Stack 0 is present, and host coherence of the near tier is off. -/
def oneStack : Dev := (d0.wr P.hostIf F.HI_HDM_CTL.DB_EN 0).wr (P.nmChannel 0) F.NM_CH_STAT.PRESENT 1
def sec0 : Sector := ⟨2, false, List.replicate 512 0, 0⟩
def cached : Dev := { oneStack with caches := Tbl.set (fun _ => []) [] 0 [sec0] }
def scBusy : Dev := d0.wr (P.spanCache 0) F.SC_CTL.BUSY 1
def ptBusy : Dev := d0.wr P.placement F.FT_PT_INV.BUSY 1
def ptBusyAll : Dev := ptBusy.wr P.placement F.FT_PT_INV.ALL 1
theorem witness_CachesAndTranslations :
    cached.clocked = true ∧ d0.clocked = true ∧ cached.flag P.hostIf F.HI_HDM_CTL.DB_EN = false ∧ 1024 < cached.stripedSize ∧
    cached.keyRetrains 1024 = false ∧ ({ ptBusy with invPage := some 7 } : Dev).invPage = some 7 ∧ ptBusy.invPage = none ∧
    (cached.cache 0).find? (fun x => x.addr == 1024 / 512) = some sec0 ∧ 1024 + [0xA5].length ≤ cached.stripedSize ∧
    1024 % 512 + 1 ≤ 512 ∧ (1024 + 511) % 512 + 1 ≤ 512 ∧ d0.flag (P.spanCache 7) F.SC_CTL.BUSY = false ∧
    scBusy.flag (P.spanCache 0) F.SC_CTL.BUSY = true ∧ d0.flag P.placement F.FT_PT_INV.BUSY = false ∧
    ptBusy.flag P.placement F.FT_PT_INV.BUSY = true ∧ ptBusy.flag P.placement F.FT_PT_INV.ALL = false ∧
    ptBusyAll.flag P.placement F.FT_PT_INV.BUSY = true ∧ ptBusyAll.flag P.placement F.FT_PT_INV.ALL = true := by decide +kernel

def win5 : Dev := (((d0.wr P.kyWindows F.KY_WIN_SEL.WIN 5).wri P.kyWindows 5 F.KY_WIN_BASE.BASE (2 ^ 19 - 1)).wri P.kyWindows 5
  F.KY_WIN_SIZE.BYTES 512)
def win5odd : Dev := win5.wri P.kyWindows 5 F.KY_WIN_SIZE.BYTES 100
def win5open : Dev := win5.wri P.kyWindows 5 F.KY_WIN_CTL.OPEN 1
theorem witness_WindowsOpenAndClose :
    win5.rd P.kyWindows F.KY_WIN_SEL.WIN = 5 ∧ win5.rdi P.kyWindows 5 F.KY_WIN_CTL.OPEN = 0 ∧ bitsOf (1 : Word).toNat 1 1 = 0 ∧
    win5.rdi P.kyWindows 5 F.KY_WIN_BASE.BASE + win5.rdi P.kyWindows 5 F.KY_WIN_SIZE.BYTES / 512 ≤ 2 ^ 19 ∧
    win5.rdi P.kyWindows 5 F.KY_WIN_BASE.BASE < 2 ^ 19 ∧ win5.rdi P.kyWindows 5 F.KY_WIN_SIZE.BYTES % 512 = 0 ∧
    win5odd.rd P.kyWindows F.KY_WIN_SEL.WIN = 5 ∧ win5odd.rdi P.kyWindows 5 F.KY_WIN_CTL.OPEN = 0 ∧
    win5odd.rdi P.kyWindows 5 F.KY_WIN_SIZE.BYTES % 512 ≠ 0 ∧
    win5open.rd P.kyWindows F.KY_WIN_SEL.WIN = 5 ∧ win5open.rdi P.kyWindows 5 F.KY_WIN_CTL.OPEN = 1 ∧
    bitsOf (2 : Word).toNat 1 1 ≠ win5open.rdi P.kyWindows 5 F.KY_WIN_CTL.TGT ∧
    bitsOf (0 : Word).toNat 1 1 = win5open.rdi P.kyWindows 5 F.KY_WIN_CTL.TGT ∧
    bitsOf (0 : Word).toNat 8 3 = win5open.rdi P.kyWindows 5 F.KY_WIN_CTL.SPAN := by decide +kernel

/-- One stack present, and a leaf of 1 GiB in the near tier at device address 0, whose entry stands in host memory. -/
def nearOne : Dev := (oneStack.wr P.hostIf F.HI_LINK_STAT.UP0 1).putHost 0 (bytesOfNat 8 (3 + 2 ^ 9))
def nearD1 : Dev := (nearOne.nearMay 4096 64 0 false).2
def nearD2 : Dev := (nearD1.translate (domOf P.snapshot) 4096 false false).2
def nearW1 : Dev := (nearOne.nearMay 4096 128 0 true).2
/-- What the translation leaves, written out. -/
def nearW2 : Dev :=
  { d0 with
    regs := [(1002754604535808, 1), (9077567998922754, 1), (9077567998923776, 0), (10063005295318016, 1)], hostMem := [(0, 3), (1, 2)],
    tcache := [⟨8, true, 0, 515⟩], cyc := { newCounts := [(10063005295318016, 1)] } }
theorem nearW2_place : ∀ i, i < 128 → nearW2.nearPlace (4096 + i) = some (0, 4096 + i) := by
  have hp : nearW2.present = [0] := by decide +kernel
  have hl : nearW2.localGranules = 0 := by decide +kernel
  have hg : nearW2.interleave = 4096 := by decide +kernel
  have hr : nearW2.remapOf 0 0 = none := by decide +kernel
  intro i hi
  have h0 : 4096 + i < 2 ^ 50 := by omega
  have h1 : (4096 + i) / 4096 = 1 := by omega
  have h2 : (4096 + i) % 4096 = i := by omega
  have h3 : (4096 + i) / MiB2 = 0 := by simp only [MiB2]; omega
  simp [Dev.nearPlace, Dev.nearPlace0, keyAddr, keyLoc, hp, hl, hg, if_pos h0, h1, h2, h3, hr, -Nat.reducePow]
theorem witness_NearAccesses :
    nearOne.clocked = true ∧ (kindOf P.snapshot).isSome = true ∧ 0x8000 ≤ P.snapshot ∧ nearD2.flag P.hostIf F.HI_HDM_CTL.DB_EN = false ∧
    nearD2.nearPlace 4096 = some (0, 4096) ∧ (∀ j, j < 8 → (nearD2.cache j).find? (fun x => x.addr == 4096 / 512) = none) ∧
    nearD2.poisoned 4096 = false ∧ (nearOne.nearMay 4096 64 0 false).1 = true ∧ nearD1.nearReq P.snapshot 4096 false = none ∧
    (nearD1.translate (domOf P.snapshot) 4096 false false).1 = .to 0 4096 0 (3 + 2 ^ 9) ∧
    nearW2.flag P.hostIf F.HI_HDM_CTL.DB_EN = false ∧ nearW2.nearPlace 4096 = some (0, 4096) ∧
    (∀ j, j < 8 → (nearW2.cache j).find? (fun x => x.addr == 4096 / 512) = none) ∧
    (nearOne.nearMay 4096 128 0 true).1 = true ∧ nearW1.nearReq P.snapshot 4096 true = none ∧
    nearW1.translate (domOf P.snapshot) 4096 true false = (.to 0 4096 0 (3 + 2 ^ 9), nearW2) := by decide +kernel

def nearReqA : Req := { id := 0, path := P.snapshot, owner := .nobody, kind := 6, tier := 0, addr := 4096, len := 64, write := false, abort := true }
def farReqA : Req := { nearReqA with tier := 2 }
def waits (r : Req) : Dev := { d0 with reqs := [r], nextReq := 1 }
def tenMs : Nat := 10000000
def lateReq : Req := { farReqA with timedOut := true }
/-- A far row of a STREAM's fill that has not begun. -/
def farRowReq : Req := { id := 0, path := P.carter 0, owner := .ring 0 0, kind := 0, tier := 2, addr := 0, len := 512, write := false }
def farFill : Fill := { owner := .ring 0 0, win := 0, restart := false, src := 0, rows := 1, asked := 1 }
def farFillDev : Dev := { withPlan [] [⟨0, 0, 0, 8⟩] (waits farRowReq) with fills := [farFill] }
theorem witness_RequestsEnd :
    (∀ b ∈ [true, false], (waits { nearReqA with abort := b }).reqs.find? (fun r => r.id == 0 && !r.held && !r.timedOut && decide (r.tier ≤ 1)) =
      some { nearReqA with abort := b } ∧ (waits { farReqA with abort := b }).farReq 0 = some { farReqA with abort := b }) ∧
    nearReqA.sent + 50000 ≤ tenMs ∧ 0x8000 ≤ nearReqA.path ∧ nearReqA.kind = 6 ∧ farReqA.timedOut = false ∧
    farReqA.reissues < (waits farReqA).rd P.farPath F.FT_CTL.REISSUE_MAX ∧
    (waits farReqA).rd P.farPath F.FT_CTL.REISSUE_MAX ≤ ({ farReqA with reissues := 255 } : Req).reissues ∧
    ((waits farReqA).wr P.hostIf F.HI_LINK_STAT.UP0 1).farDown farReqA.tier farReqA.taddr = false ∧
    farReqA.sent + (waits farReqA).farLimit ≤ tenMs * 1000 ∧ (waits farReqA).kill = none ∧ (waits farReqA).ideBad = [] ∧
    farFillDev.farReq 0 = some farRowReq ∧ 0 < farRowReq.sent + farFillDev.farLimit ∧ farRowReq.kind = 0 ∧ farRowReq.write = false ∧
    farFillDev.ideBad = [] ∧ farFillDev.copies = [] ∧ farFillDev.fills.find? (fun f => f.owner == farRowReq.owner) = some farFill ∧
    farFillDev.winDecl farFill.win = some ⟨0, 0, 0, 8⟩ ∧ farFill.writing = false ∧
    (waits nearReqA).farReq 0 = none ∧ 0 < (waits nearReqA).nextReq ∧ (waits lateReq).farReq 0 = some lateReq := by
  decide +kernel

def retWaits : Dev := { nearOne with retires := [⟨0, 7, 2⟩] }
def migrates : Dev := { nearOne with migrations := [⟨0, 7, 2, 0, 0⟩] }
def jobFree : Dev := d0.wr P.dkCtl F.DK_JOB_STAT.JOB_FREE 1
def jobUsed : Dev := d0.wr P.dkCtl F.DK_JOB_STAT.JOB_FREE 0
/-- A docket of one opcode at the head of a ring, with its ARGS. -/
def dkt (op : Nat) (args : List Byte) : Docket :=
  { n := 0, bytes := (bytesOfNat 4 9 ++ [BitVec.ofNat 8 op, 0, 0, 0] ++ List.replicate 8 0 ++ args ++ List.replicate 48 0).take 64,
    snap := [], stage := .fetched }
def onRing (k : Nat) (x : Docket) (d : Dev) : Dev := d.putRing k { tailN := 1, headN := 1, anns := [], q := [x] }
def scrubDk : Docket := dkt 12 []
def scrubDev : Dev := onRing deviceRing scrubDk nearOne
def scrubBusy : Dev := onRing 3 { dkt 2 [] with stage := .begun } scrubDev
def expDev : Dev := d0.wri P.farPath 2 F.FT_EXP_BASE.VALID 1
/-- A row that the interval has scrubbed. -/
def scrubbed : Dev := { nearOne with patrolRows := [5] }
theorem witness_NearUpkeep :
    nearOne.retraining = [] ∧ nearOne.patrolRows = [] ∧ 5 + 1 < stackRows ∧ scrubbed.patrolRows.contains (0 * 2 ^ 30 + 5) = true ∧
    scrubbed.patrolAt = 0 / (scrubbed.rd P.nearMgr F.NM_SCRUB_PERIOD.HOURS * 3600000000000) ∧ scrubbed.present.contains 0 = true ∧
    scrubbed.clocked = true ∧ scrubBusy.retraining = [] ∧
    nearOne.clocked = true ∧ retWaits.clocked = true ∧ nearOne.present.contains 0 = true ∧ stackRows ≥ 2 ∧
    retWaits.migrations.any (fun m => m.stack == 0) = false ∧ retWaits.retires.find? (fun r => r.stack == 0) = some ⟨0, 7, 2⟩ ∧
    (retWaits.freeSpares 0).head? = some 0 ∧ migrates.migrations.find? (fun m => m.stack == 0) = some ⟨0, 7, 2, 0, 0⟩ ∧
    (∀ i, i < 48 → (migrates.rdi (P.nmChannel 0) i F.NM_REMAP_DATA.VALID = 1 ↔ i < 0)) ∧
    nearOne.retireKnown 0 46015 = false ∧ d0.present.contains 0 = false ∧
    jobFree.flag P.dkCtl F.DK_JOB_STAT.JOB_FREE = true ∧ jobFree.plan = none ∧ jobFree.nmScrub = none ∧
    jobFree.flag P.hostIf F.HI_HDM_CTL.COMMITTED = false ∧ bitsOf (45952 * 2 ^ 16 : Word).toNat 16 16 ≤ 45952 ∧
    45952 < bitsOf (45953 * 2 ^ 16 : Word).toNat 16 16 ∧ bitsOf (45953 * 2 ^ 16 : Word).toNat 0 1 = jobFree.rd P.nearMgr F.NM_CFG.ILV ∧
    jobUsed.flag P.dkCtl F.DK_JOB_STAT.JOB_FREE = false ∧
    scrubDev.nextDocket deviceRing = some scrubDk ∧ scrubDk.opcode = 12 ∧ scrubDev.kill = none ∧ scrubDev.load = none ∧
    (∀ y ∈ (scrubDev.ring deviceRing).q, y.n = scrubDk.n → y = scrubDk) ∧ scrubDev.nmScrub = none ∧
    scrubDev.captureHeld = false ∧ bitAt (scrubDk.field 0x10 1) 0 = false ∧ reservedAt scrubDk nmScrubMask = [] ∧
    scrubDev.streamingIn = false ∧ scrubBusy.streamingIn = true ∧ scrubBusy.nextDocket deviceRing = some scrubDk ∧
    expDev.rdi P.farPath 2 F.FT_EXP_BASE.VALID = 1 := by decide +kernel

/-- A STREAM of one row into window 0, an OFFLOAD of one row and a FETCH with an odd address, as ARGS. -/
def winArgs (src bytes win : Nat) : List Byte := bytesOfNat 8 src ++ bytesOfNat 4 bytes ++ bytesOfNat 2 win
def winPlan : Dev := withPlan [] [⟨0, 0, 0, 8⟩] d0
def streamDk : Docket := dkt 3 (winArgs 0 512 0)
def fetchDk : Docket := dkt 5 (winArgs 0 512 0)
def offDk : Docket := dkt 4 (winArgs 0 512 0)
def oddDk : Docket := dkt 5 (winArgs 1 512 0)
def streamDev : Dev := onRing 0 streamDk winPlan
def fetchDev : Dev := onRing 0 fetchDk winPlan
def offDev : Dev := onRing 0 offDk winPlan
def oddDev : Dev := onRing 0 oddDk winPlan
/-- A copy of 512 B from device address 4096 to 8192, and an OFFLOAD of two rows of which a read circuit reaches the first. -/
def copyArgs (a b : Nat) : List Byte := bytesOfNat 8 a ++ bytesOfNat 4 512 ++ [0, 0, 2, 0] ++ bytesOfNat 8 b
def offCopyDk : Docket := dkt 4 (copyArgs 8192 4096)
def fetchCopyDk : Docket := dkt 5 (copyArgs 4096 8192)
def copyDev (x : Docket) : Dev := onRing 0 x nearOne
def rowsCirc : Circuit := cir 7 (spPath 0 0) 0 ioP 8 1
def offRows : Dev := onRing 0 (dkt 4 (winArgs 0 1024 0)) ((withPlan [rowsCirc] [] d0).putCirc 7 { depth := 8, credits := 8 })
theorem witness_CarterCommandsBegin :
    (∀ x ∈ [offCopyDk, fetchCopyDk], (copyDev x).nextDocket 0 = some x ∧ (copyDev x).kill = none ∧ (copyDev x).streamingHeld = false ∧
      refusal 0 x (argMask x) ((copyDev x).caBad x (some (ringSpan 0))) = none ∧ caKind x = true ∧ caBytes x = 512 ∧
      (copyDev x).onCompress 4096 = false ∧ (copyDev x).onCompress 8192 = false ∧
      (match ((copyDev x).translate (domOf (P.carter (caSpan x))) 4096 false true).1 with | .to tier _ _ _ => decide (tier ≤ 1) | _ => false) = true) ∧
    offCopyDk.field 0x20 8 = 4096 ∧ offCopyDk.field 0x10 8 = 8192 ∧ fetchCopyDk.field 0x10 8 = 4096 ∧
    offRows.nextDocket 0 = some (dkt 4 (winArgs 0 1024 0)) ∧ offRows.copies = [] ∧ (offRows.offloadCircuit 0 0).isSome = true ∧
    refusal 0 (dkt 4 (winArgs 0 1024 0)) (argMask (dkt 4 (winArgs 0 1024 0))) (offRows.caBad (dkt 4 (winArgs 0 1024 0)) (some (ringSpan 0))) = none ∧
    streamDev.nextDocket 0 = some streamDk ∧ streamDev.kill = none ∧ streamDev.streamingHeld = false ∧ streamDk.opcode = 3 ∧
    refusal 0 streamDk (argMask streamDk) (streamDev.caBad streamDk (some (ringSpan 0))) = none ∧
    streamDev.winDecl (caWin streamDk) = some ⟨0, 0, 0, 8⟩ ∧
    fetchDev.nextDocket 0 = some fetchDk ∧ fetchDk.opcode = 5 ∧ caKind fetchDk = false ∧
    refusal 0 fetchDk (argMask fetchDk) (fetchDev.caBad fetchDk (some (ringSpan 0))) = none ∧
    offDev.nextDocket 0 = some offDk ∧ offDk.opcode = 4 ∧ caKind offDk = false ∧
    refusal 0 offDk (argMask offDk) (offDev.caBad offDk (some (ringSpan 0))) = none ∧
    oddDev.nextDocket 0 = some oddDk ∧
    refusal 0 oddDk (argMask oddDk) (oddDev.caBad oddDk (some (ringSpan 0))) = some (St.BAD_ARGS, 0x10) := by decide +kernel

def fill0 : Fill := { owner := .ring 0 0, win := 0, restart := false, src := 0, rows := 1 }
def fillNew : Dev := { streamDev with fills := [fill0] }
def fillDone : Dev := { streamDev with fills := [{ fill0 with writing := true, came := 1 }] }
/-- The same fill of a window that an engine reads and has not let go. -/
def fillHeld : Dev := { fillNew with plan := some { planOf [] [⟨0, 0, 0, 8⟩] with mePrograms := [⟨posOf meP, 0, [32]⟩] } }
theorem witness_Fills :
    fillNew.clocked = true ∧ fillDone.fillOnWay 0 0 1 = false ∧ fillNew.winDecl 0 = some ⟨0, 0, 0, 8⟩ ∧ fillNew.fillOf 0 = some fill0 ∧ fill0.writing = false ∧
    fillNew.fillReady ⟨0, 0, 0, 8⟩ fill0 = true ∧ fillNew.isSealed 0 = false ∧
    fillHeld.winDecl 0 = some ⟨0, 0, 0, 8⟩ ∧ fillHeld.fillOf 0 = some fill0 ∧ fillHeld.fillReady ⟨0, 0, 0, 8⟩ fill0 = false ∧
    fillDone.fillOf 0 = some { fill0 with writing := true, came := 1 } ∧ (fillDone.docket 0 0).isSome = true ∧
    fillDone.ownerIdle fill0.owner = true ∧ fill0.rows ≤ ({ fill0 with writing := true, came := 1 } : Fill).came := by decide +kernel

def leadDev : Dev := (d0.wr (P.carter 0) F.CA_LEAD_FIX.ROWS 1000).wr (P.carter 0) F.CA_ADAPT_PERIOD.MICROS 50
def stallReq : Req := { nearReqA with path := sfP, tier := 3, held := false }
def stallDev : Dev := waits stallReq
def stalledDev : Dev := { stallDev with stalls := [⟨0, 2, 0, 4096, 0, false⟩] }
/-- A far fill at the lead's front, and a stalled request that has been reissued. -/
def leadFar : Dev := leadDev.putCarter 0 { leadDev.carter 0 with tier := 2 }
def stallAgain : Dev := waits { stallReq with reissues := 1 }
theorem witness_LeadAndStalls :
    stallDev.stallCause stallReq = none ∧ stallAgain.stallCause { stallReq with reissues := 1 } = some 4 ∧ (leadFar.carter 0).tier ≠ 0 ∧
    min ((leadFar.wr (P.carter 0) F.CA_LEAD_FIX.ROWS 9000).rd (P.carter 0) F.CA_LEAD_FIX.ROWS) 8192 = 8192 ∧ stallReq.addr < 2 ^ 64 ∧
    (leadDev.carter 0).since + leadDev.rd (P.carter 0) F.CA_ADAPT_PERIOD.MICROS * 1000 ≤ tenMs ∧
    leadDev.rd (P.carter 0) F.CA_LEAD_FIX.ROWS = 1000 ∧ leadDev.rd (P.carter 0) F.CA_LEAD.ROWS ≠ 1000 ∧
    0 < (leadDev.carter 0).since + leadDev.rd (P.carter 0) F.CA_ADAPT_PERIOD.MICROS * 1000 ∧
    stallDev.oldestReq 0 = some stallReq ∧ stallDev.stalls.any (fun x => x.span == 0) = false ∧ stallDev.stallHolds tenMs 0 = true ∧
    estTier stallReq.tier = 2 ∧
    stalledDev.stalls.find? (fun x => x.span == 0 && x.tier == 2 && x.cause == 0) = some ⟨0, 2, 0, 4096, 0, false⟩ ∧
    0 + stalledDev.rd (P.carter 0) F.CA_STALL_LIMIT.MICROS * 1000 ≤ tenMs * 1000 ∧ stalledDev.oldestReq 0 = some stallReq := by decide +kernel

/-- A clerk that is ON and RUNNING at pc 0 with one instruction word there. -/
def gcRun (w : Nat) (c : ClerkSt) : Dev := ((onAll [gcP] d0).wr gcP F.GC_STAT.RUNNING 1).putClerk gcP
  { c with itcm := Tbl.setAll zeroByte [] 0 (bytesOfNat 4 w) }
/-- A clerk whose x2 and x3 hold two values. -/
def xs (a b : Nat) : ClerkSt := ((({} : ClerkSt).wx 2 (BitVec.ofNat 64 a)).wx 3 (BitVec.ofNat 64 b))
/-- The words of ADDI x1, x0, 5; BEQ x0, x0, 8; SD x1, 0(x2); LD x1, 0(x2); MRET and ECALL. -/
def clerkWords : List Nat := [0x00500093, 0x00000463, 0x00113023, 0x00013083, 0x30200073, 0x00000073]
/-- A clerk whose x2 is a device address (R501), over one stack: LD of it, whose access answers, or is held under STALL. -/
def gcFar (stall : Bool) : Dev := { gcRun 0x00013083 (xs (0x10000000000 + 4096) 0) with
  regs := (((((onAll [gcP] d0).wr gcP F.GC_STAT.RUNNING 1).wr P.hostIf F.HI_HDM_CTL.DB_EN 0).wr (P.nmChannel 0) F.NM_CH_STAT.PRESENT 1).wr
    P.hostIf F.HI_LINK_STAT.UP0 1).regs
  hostMem := (nearOne.putHost 0 (bytesOfNat 8 (3 + 2 ^ 9 + (if stall then 0 else 2 ^ 8)))).hostMem }
def gcFarAcc (stall : Bool) (acc : List AccessErr) : Option (List Byte) × Dev :=
  { gcFar stall with env := { ctl := [], acc := acc } }.clerkAccess 0 gcP 4096 8 false (bytesOfNat 8 0)
theorem witness_ClerkInstructions_device :
    (∀ b ∈ [true, false], (gcFar b).clocked = true ∧ (gcFar b).clerkReady gcP = true ∧ (gcFar b).clerkHeld gcP = false ∧
      ((gcFar b).clerk gcP).fetch = some (0x00013083, 4)) ∧
    ((xs (0x10000000000 + 4096) 0).rx (rs1Of 0x00013083) + BitVec.ofNat 64 (immI 0x00013083)).toNat = 0x10000000000 + 4096 ∧
    inDevice (0x10000000000 + 4096) = true ∧ (0x10000000000 + 4096) % 8 = 0 ∧
    (gcFarAcc false []).1 = some (List.replicate 8 0) ∧ (gcFarAcc true [{ res := .failed C.NEAR_UE }]).1 = none ∧
    (gcFarAcc true [{ res := .failed C.NEAR_UE }]).2.clerkHeld gcP = true := by decide +kernel
theorem witness_ClerkInstructions :
    (gcRun 0 {}).clocked = true ∧
    (∀ w ∈ clerkWords, (gcRun w (xs 0x100000 0)).clerkReady gcP = true ∧ (gcRun w (xs 0x100000 0)).clerkHeld gcP = false ∧
      ((gcRun w (xs 0x100000 0)).clerk gcP).fetch = some (w, 4)) ∧
    0x00500093 % 128 = 0x13 ∧ funct3Of 0x00500093 = 0 ∧ 0x00000463 % 128 = 0x63 ∧ funct3Of 0x00000463 = 0 ∧
    0x00113023 % 128 = 0x23 ∧ funct3Of 0x00113023 = 3 ∧ 0x00013083 % 128 = 0x03 ∧ funct3Of 0x00013083 = 3 ∧
    ((xs 0x100000 0).rx (rs1Of 0x00113023) + BitVec.ofNat 64 (immS 0x00113023)).toNat = 0x100000 ∧
    ((xs 0x100000 0).rx (rs1Of 0x00013083) + BitVec.ofNat 64 (immI 0x00013083)).toNat = 0x100000 ∧
    inDtcm 0x100000 = true ∧ inDtcm 0x10FFF8 = true ∧
    ((gcRun 0x73 {}).wr gcP F.GC_CTL.TRAP_HALT 0).flag gcP F.GC_CTL.TRAP_HALT = false ∧
    ((gcRun 0x73 {}).wr gcP F.GC_CTL.TRAP_HALT 1).flag gcP F.GC_CTL.TRAP_HALT = true := by decide +kernel

/-- An Xtlz word: funct7, rs2, rs1, funct3, rd. -/
def tzW (f7 rs2 rs1 f3 rd : Nat) : Nat := f7 * 2 ^ 25 + rs2 * 2 ^ 20 + rs1 * 2 ^ 15 + f3 * 2 ^ 12 + rd * 2 ^ 7 + 0x0B
def lfRun : Dev := (gcRun (tzW 0 3 2 3 1) (xs 255 7)).wri (P.ledger 0) 255 F.LG_COUNTER.LIMIT 10
def lfFull : Dev := gcRun (tzW 0 3 2 3 1) (xs 0 7)
def lfZero : Dev := (gcRun (tzW 0 3 2 3 1) (xs 0 0)).wr gcP F.GC_CTL.TRAP_HALT 1
theorem witness_ClerkLedger :
    lfRun.clocked = true ∧ lfFull.clocked = true ∧ lfZero.clocked = true ∧ lfRun.tzAt gcP 3 = some (tzW 0 3 2 3 1) ∧ ((lfRun.clerk gcP).rx (rs1Of (tzW 0 3 2 3 1))).toNat % 256 = 255 ∧
    ((lfRun.clerk gcP).rx (rs2Of (tzW 0 3 2 3 1))).toNat % 2 ^ 16 = 7 ∧ lfRun.lgValue (spanOf gcP) 255 < lfRun.lgLimit (spanOf gcP) 255 ∧
    lfFull.tzAt gcP 3 = some (tzW 0 3 2 3 1) ∧ lfFull.lgLimit (spanOf gcP) 0 ≤ lfFull.lgValue (spanOf gcP) 0 ∧
    lfZero.tzAt gcP 3 = some (tzW 0 3 2 3 1) ∧ lfZero.flag gcP F.GC_CTL.TRAP_HALT = true ∧
    ((lfZero.clerk gcP).rx (rs2Of (tzW 0 3 2 3 1))).toNat % 2 ^ 16 = 0 ∧
    (gcRun (tzW 1 0 2 3 1) (xs 0 0)).tzAt gcP 4 = some (tzW 1 0 2 3 1) ∧
    (gcRun (tzW 2 3 2 3 0) (xs 0 0)).tzAt gcP 5 = some (tzW 2 3 2 3 0) := by decide +kernel

def tile0 : Nat := spPath 0 (tileOfRow 0)
def rldC : Circuit := cir 7 tile0 0 gcP 1 1
def rstC : Circuit := cir 8 gcP 1 tile0 0 0
def rldRun : Dev := withPlan [rldC, rstC] [] (gcRun (tzW 1 3 2 0 0) (xs 0 5))
def rstRun : Dev := withPlan [rldC, rstC] [] (gcRun (tzW 1 3 2 1 0) (xs 0 5))
def rldNone : Dev := (gcRun (tzW 1 3 2 0 0) (xs 0 5)).wr gcP F.GC_CTL.TRAP_HALT 1
def rstNone : Dev := (gcRun (tzW 1 3 2 1 0) (xs 0 5)).wr gcP F.GC_CTL.TRAP_HALT 1
def move0 : Move := { slot := 5, row := 0, port := 1, store := false, circ := rldC.key }
def rowFlit : Flit := ⟨0, false, 3, 0, 0, BitVec.allOnes 128, List.replicate 128 0xA5⟩
def rowIn : Dev := ((withPlan [rldC, rstC] [] d0).putClerk gcP { moves := [move0] }).putCirc rldC.key { queue := List.replicate 4 rowFlit }
theorem witness_ClerkRowMoves :
    rldRun.clocked = true ∧ rowIn.clocked = true ∧ rldRun.tzAt gcP 0 = some (tzW 1 3 2 0 0) ∧ rldRun.rldCircuit gcP (funct7Of (tzW 1 3 2 0 0)) 0 = some rldC ∧
    (rldRun.clerk gcP).mayMove 5 = true ∧ ((rldRun.clerk gcP).rx (rs2Of (tzW 1 3 2 0 0))).toNat % 16 = 5 ∧
    rstRun.tzAt gcP 1 = some (tzW 1 3 2 1 0) ∧ rstRun.rstCircuit gcP (funct7Of (tzW 1 3 2 1 0)) 0 = some rstC ∧
    (rstRun.clerk gcP).mayMove 5 = true ∧
    rldNone.tzAt gcP 0 = some (tzW 1 3 2 0 0) ∧ rldNone.rldCircuit gcP (funct7Of (tzW 1 3 2 0 0)) 0 = none ∧
    rldNone.flag gcP F.GC_CTL.TRAP_HALT = true ∧
    rstNone.tzAt gcP 1 = some (tzW 1 3 2 1 0) ∧ rstNone.rstCircuit gcP (funct7Of (tzW 1 3 2 1 0)) 0 = none ∧
    rstNone.flag gcP F.GC_CTL.TRAP_HALT = true ∧
    (rowIn.clerk gcP).moves = [move0] ∧ move0.sent = true ∧ rowIn.circuit move0.circ = some rldC ∧
    4 ≤ (rowIn.circ move0.circ).queue.length ∧ (((rowIn.circ move0.circ).queue.take 4).flatMap (·.payload)).length = 512 ∧
    (gcRun (tzW 0 2 0 2 0) {}).tzAt gcP 2 = some (tzW 0 2 0 2 0) ∧ ((gcRun (tzW 0 2 0 2 0) {}).clerk gcP).moves = [] ∧
    (gcRun (tzW 0 2 0 2 0) { moves := [move0] }).tzAt gcP 2 = some (tzW 0 2 0 2 0) ∧
    ((gcRun (tzW 0 2 0 2 0) { moves := [move0] }).clerk gcP).moves.any (fun m => bitAt (rs2Of (tzW 0 2 0 2 0)) m.port) = true ∧
    (gcRun (tzW 0 0 0 6 1) {}).tzAt gcP 9 = some (tzW 0 0 0 6 1) ∧ ((gcRun (tzW 0 0 0 6 1) {}).clerk gcP).moves = [] ∧
    (gcRun (tzW 0 0 0 6 1) { moves := [move0] }).tzAt gcP 9 = some (tzW 0 0 0 6 1) := by decide +kernel

/-- A wait for count 0 of counter 0 (kind 2), which is met, and for count 1 of window 0 (kind 1), which is not. -/
def cwRun (c : ClerkSt) : Dev := gcRun (tzW 0 3 2 4 1) c
def cwTimed : ClerkSt := { (xs 1 1).wcsr 0x7C0 100 with cwait := some (1, 0) }
def cwLate : Dev := { cwRun cwTimed with cclk := 1500 }
theorem witness_ClerkWaitsAndControl :
    (cwRun (xs 2 0)).clocked = true ∧ (cwLate.clerk gcP).cwaitAt + (cwLate.clerk gcP).rcsr 0x7C0 ≤ cwLate.cclk / 15 ∧
    (cwRun (xs 2 0)).tzAt gcP 6 = some (tzW 0 3 2 4 1) ∧ guardMet ((cwRun (xs 2 0)).guardCount 2 0) 0 = true ∧
    (cwRun (xs 1 1)).tzAt gcP 6 = some (tzW 0 3 2 4 1) ∧ guardMet ((cwRun (xs 1 1)).guardCount 1 0) 1 = false ∧
    cwLate.tzAt gcP 6 = some (tzW 0 3 2 4 1) ∧ (cwLate.clerk gcP).cwait = some (1, 0) ∧
    (cwLate.clerk gcP).rcsr 0x7C0 ≠ 0 ∧ guardMet (cwLate.guardCount 1 0) 1 = false ∧
    (gcRun (tzW 1 0 0 6 0) {}).tzAt gcP 10 = some (tzW 1 0 0 6 0) ∧ kindOf gcP = some .clerk ∧
    (onAll [gcP] d0).flag gcP F.GC_STAT.RUNNING = false ∧ (onAll [gcP] d0).on gcP = true ∧
    (gcRun 0 {}).flag gcP F.GC_STAT.RUNNING = true := by decide +kernel

def part0 : Part := ⟨32, 0, 9, 0⟩
def postRun (n : Nat) : Dev := { gcRun (tzW 0 0 2 5 1) { xs 0x100000 0 with part := some part0 } with
  subs := (List.range n).map (fun e => ⟨0, e, gcP, part0, List.replicate 64 0, .fetched⟩) }
def pollRun (st : DkStage) : Dev := { gcRun (tzW 1 0 2 5 1) (xs 0 0) with subs := [⟨0, 0, gcP, part0, List.replicate 64 0, st⟩] }
theorem witness_SubDockets :
    (postRun 0).clocked = true ∧ (pollRun .begun).clocked = true ∧ (postRun 0).tzAt gcP 7 = some (tzW 0 0 2 5 1) ∧ ((postRun 0).clerk gcP).part = some part0 ∧
    subBad { n := 0, bytes := Tbl.getN zeroByte ((postRun 0).clerk gcP).dtcm 0 64, snap := [], stage := .fetched } = false ∧
    (postRun 0).freeSub (spanOf gcP) = some 0 ∧ (postRun 16).freeSub (spanOf gcP) = none ∧
    (gcRun (tzW 0 0 2 5 1) {}).tzAt gcP 7 = some (tzW 0 0 2 5 1) ∧ ((gcRun (tzW 0 0 2 5 1) {}).clerk gcP).part = none ∧
    (postRun 1).subs.find? (fun b => b.span == 0 && b.entry == 0 && b.stage == .fetched) =
      some ⟨0, 0, gcP, part0, List.replicate 64 0, .fetched⟩ ∧
    (postRun 1).subHeld ⟨0, 0, gcP, part0, List.replicate 64 0, .fetched⟩ = false ∧
    (Sub.docket ⟨0, 0, gcP, part0, List.replicate 64 0, .fetched⟩).opcode = 0 ∧
    (pollRun (.ended 0 0)).tzAt gcP 8 = some (tzW 1 0 2 5 1) ∧
    (pollRun (.ended 0 0)).subs.find? (fun b => b.span == spanOf gcP && b.entry == 0 && b.clerk == gcP) =
      some ⟨0, 0, gcP, part0, List.replicate 64 0, .ended 0 0⟩ ∧
    (pollRun .begun).subs.find? (fun b => b.span == spanOf gcP && b.entry == 0 && b.clerk == gcP) =
      some ⟨0, 0, gcP, part0, List.replicate 64 0, .begun⟩ := by decide +kernel

/-- Ring 32 is ON with one docket announced, whose bytes in host memory are zero but for SEQ `q`. -/
def rung (q : Nat) : Dev := ((onAll [P.ring 32, P.hostIf] d0).putRing 32 { tailN := 1 }).putHost 0 (bytesOfNat 4 q)
def upHost (d : Dev) : Dev := ((d.wr P.hostIf F.HI_LINK_STAT.UP0 1).wr (P.ring 32) F.DK_RING_CFG.LOG2_SIZE 4).wr (P.ring 32) F.DK_CPL_CFG.LOG2_SIZE 4
def rung1 (q : Nat) : Dev := (upHost (rung q)).wr (P.ring 32) F.DK_RING_BASE.BASE 0
def stoppedRing : Dev := d0.wr (P.ring 32) F.DK_RING_STAT.STOPPED 1
theorem witness_DoorbellsAndFetches :
    (rung1 5).clocked = true ∧ (rung1 5).on (P.ring 32) = true ∧ (5 + 2 ^ 32 - 1) % 2 ^ 32 ≤ 0 + (rung1 5).ringSize 32 - 1 ∧
    0 + (rung1 5).ringSize 32 - 1 < (100 + 2 ^ 32 - 1) % 2 ^ 32 ∧
    (rung1 5).mayFetch 32 = true ∧ (rung1 5).cplFull 32 = false ∧ (rung1 5).noService = false ∧
    (((rung1 5).controlRead ((rung1 5).ringSlot 32 0).1 ((rung1 5).ringSlot 32 0).2 64 .ok).1.toOption) = some (bytesOfNat 4 5 ++ List.replicate 60 0) ∧
    ((rung1 5).wr (P.ring 32) F.DK_RING_CTL.EXPECT_SEQ 5).rd (P.ring 32) F.DK_RING_CTL.EXPECT_SEQ = 5 ∧
    (rung1 5).rd (P.ring 32) F.DK_RING_CTL.EXPECT_SEQ ≠ 5 ∧
    stoppedRing.flag (P.ring 32) F.DK_RING_STAT.STOPPED = true ∧ d0.flag (P.ring 32) F.DK_RING_STAT.STOPPED = false := by decide +kernel

def hostOne : Dev := upHost (onAll [P.ring 32, P.hostIf] d0)
def endedNop : Docket := { dkt 0 [] with stage := .ended St.OK 0 }
def badNop : Docket := { dkt 0 [] with stage := .ended St.BAD_SEQ 16 }
theorem witness_CompletionRecords :
    (onRing 32 endedNop hostOne).clocked = true ∧ ((onRing 32 endedNop hostOne).ring 32).q = [endedNop] ∧ endedNop.opcode ≠ 2 ∧ (onRing 32 endedNop hostOne).hostUp = true ∧
    (onRing 32 endedNop hostOne).cplFull 32 = false ∧ countsAsDone St.OK = true ∧
    endedNop.total = none ∧ ({ endedNop with total := some (3, 4) } : Docket).total = some (3, 4) ∧
    ((onRing 32 badNop hostOne).ring 32).q = [badNop] ∧ countsAsDone St.BAD_SEQ = false := by decide +kernel

def barDk : Docket := dkt 7 [1]
def barWait : Docket := { barDk with snap := [1] }
def killDk : Docket := dkt 10 []
def killAt (ph : Nat) (d : Dev) : Dev := { d with kill := some ⟨32, 0, ph, 0, 0⟩ }
/-- A KILL in a phase of the network. -/
def killNet (net : Nat) (d : Dev) : Dev := { d with kill := some ⟨32, 0, 2, net, 0⟩ }
theorem witness_DocketsAndKill :
    (∀ net, net < 6 → (killNet net d0).kill = some ⟨32, 0, 2, net, 0⟩) ∧ (killNet 2 d0).quiet allSpans = true ∧
    (killNet 2 loadBusy).quiet allSpans = false ∧ (killNet 2 loadBusy).quiesceOver 0 = false ∧
    ({ killNet 2 loadBusy with cclk := 2 ^ 40 } : Dev).quiesceOver 0 = true ∧ (killNet 5 d0).epochBusy allSpans = false ∧
    (onRing 0 (dkt 1 []) d0).opHeld (dkt 1 []) = false ∧ d0.clocked = true ∧
    (onRing 0 (dkt 0x0D []) d0).noService = false ∧ (onRing 0 (dkt 0x0D []) d0).nextDocket 0 = some (dkt 0x0D []) ∧
    0x0C < (dkt 0x0D []).opcode ∧ (onRing 0 (dkt 1 []) d0).nextDocket 0 = some (dkt 1 []) ∧ deviceOnly (dkt 1 []).opcode = true ∧
    (onRing 32 (dkt 0 []) d0).nextDocket 32 = some (dkt 0 []) ∧ (dkt 0 []).opcode = 0 ∧ reservedAt (dkt 0 []) (argMask (dkt 0 [])) = [] ∧
    (onRing 32 barDk d0).nextDocket 32 = some barDk ∧ barDk.opcode = 7 ∧ reservedAt barDk (argMask barDk) = [] ∧
    (onRing 32 barDk d0).barrierOf 32 = none ∧ (onRing 32 barDk d0).barrierMet barDk = true ∧
    (onRing 32 barWait d0).nextDocket 32 = some barWait ∧ (onRing 32 barWait d0).barrierMet barWait = false ∧
    (onRing 32 killDk d0).nextDocket deviceRing = some killDk ∧ killDk.opcode = 10 ∧ reservedAt killDk (argMask killDk) = [] ∧
    (killAt 3 (waits farReqA)).reqsOutstanding = true ∧ (killAt 3 d0).reqsOutstanding = false ∧
    ((killAt 5 (onRing 32 { killDk with stage := .begun } d0)).docket 32 0).isSome = true := by decide +kernel

/-- RUN_STEP of the current step over span 0, the same of no span, and a plan with a program for one unit of each kind. -/
def runArgs (mask : Nat) : List Byte := [0, 0, 0, 0, 0, 0, 0, BitVec.ofNat 8 mask, 0xFF, 0xFF, 0xFF, 0xFF]
def runDk : Docket := dkt 2 (runArgs 1)
def progPlan : Plan :=
  { planOf [] [] with
    mePrograms := [⟨posOf meP, 0, []⟩], sfPrograms := [⟨posOf sfP, 0, []⟩], images := [⟨posOf gcP, 0, true, [], []⟩] }
def runDev : Dev := onRing 32 runDk { onAll [meP, sfP, gcP] d0 with plan := some progPlan }
def runBadDev : Dev := onRing 32 (dkt 2 (runArgs 0)) { onAll [meP, sfP, gcP] d0 with plan := some progPlan }
def startDev : Dev := { onRing 32 { runDk with stage := .begun } runDev with runs := [⟨32, 0, [meP, sfP, gcP], [], none⟩] }
theorem witness_RunSteps :
    startDev.clocked = true ∧ runDev.cyc.begun = [] ∧ (onRing 32 runDk d0).nextDocket 32 = some runDk ∧ runDk.opcode = 2 ∧ (onRing 32 runDk d0).kill = none ∧
    (onRing 32 runDk d0).runHeld 32 runDk = false ∧ (onRing 32 runDk d0).plan = none ∧
    runBadDev.nextDocket 32 = some (dkt 2 (runArgs 0)) ∧ runBadDev.runHeld 32 (dkt 2 (runArgs 0)) = false ∧ runBadDev.plan ≠ none ∧
    badArgs (reservedAt (dkt 2 (runArgs 0)) (fun _ => 0) ++ runBadDev.runBad 32 (dkt 2 (runArgs 0))) = some (St.BAD_ARGS, 0x17) ∧
    runDev.nextDocket 32 = some runDk ∧ runDev.runHeld 32 runDk = false ∧ runDev.plan ≠ none ∧
    reservedAt runDk (fun _ => 0) ++ runDev.runBad 32 runDk = [] ∧ rsEndStep runDk = false ∧
    runDev.runUnits (rsMask runDk) ≠ [] ∧ runDev.run 32 0 = none ∧
    (∀ p ∈ [meP, sfP, gcP], startDev.nextRun p = some ⟨32, 0, [meP, sfP, gcP], [], none⟩ ∧ startDev.on p = true ∧
      startDev.slices.any (fun y => y.path == p) = false) ∧
    startDev.docket 32 0 = some { runDk with stage := .begun } ∧
    kindOf meP = some .me ∧ kindOf sfP = some .sf ∧ kindOf gcP = some .clerk := by decide +kernel

/-- A RUN_STEP with END_STEP whose work has ended. -/
def endDk : Docket := { dkt 2 [0, 0, 0, 0, 0, 0, 2, 1, 0xFF, 0xFF, 0xFF, 0xFF] with stage := .ended St.OK 0 }
def endDev : Dev := (onRing 32 endDk hostOne).wr P.dkCtl F.DK_VTOTAL.VALID 8
def countedDev : Dev := onRing 32 { dkt 6 (List.replicate 19 0 ++ [1]) with stage := .begun } d0
theorem witness_StepBoundaries :
    endDev.clocked = true ∧ (endDev.ring 32).q = [endDk] ∧ endDk.opcode = 2 ∧ rsEndStep endDk = true ∧ rsCount endDk = false ∧
    endDev.flag P.dkCtl F.DK_ACC.UPD_POISON = false ∧ endDev.rd P.dkCtl F.DK_VTOTAL.VALID ≠ 0 ∧ endDev.hostUp = true ∧
    endDev.cplFull 32 = false ∧ d0.runExecuting = false ∧ d0.countedExecuting = false ∧ startDev.runExecuting = true ∧
    countedDev.countedExecuting = true := by decide +kernel

/-- Port `p` with its unit ON, a link state and its own state. -/
def kyPort (p st : Nat) (x : PortSt) : Dev := ((onAll [P.kyPort p] d0).wr (P.kyPort p) F.KY_PORT_STAT.LINK st).putPort p x
def coll1 : Coll :=
  { owner := .ring 32 0, op := 0, dtype := 4, group := 1, counted := false, direct := false, addr := 0, count := 0, peer := 0,
    members := [0], strands := [{}] }
def busyColl : Dev := { d0 with colls := [coll1] }
theorem witness_KyinoLinkStates :
    (kyPort 23 Link.TRAINING {}).on (P.kyPort 23) = true ∧ (kyPort 23 Link.TRAINING {}).link 23 = Link.TRAINING ∧
    ((kyPort 23 Link.TRAINING {}).port 23).trained = false ∧
    0 ≤ ((kyPort 23 Link.TRAINING {}).port 23).since + 500000000 ∧ ((kyPort 23 Link.TRAINING {}).port 23).since + 500000000 < 500000001 ∧
    ((kyPort 0 Link.TRAINING { everUp := true }).port 0).since + 500000000 ≤ 500000000 ∧
    0 ≤ ((kyPort 0 Link.RETRAIN {}).port 0).since + 200000 ∧ ((kyPort 0 Link.RETRAIN {}).port 0).since + 200000 < 200001 ∧
    ((kyPort 0 Link.RETRAIN {}).wr (P.kyPort 0) F.KY_PORT_CTL.MODE 1).routedPort 0 = true ∧
    ((kyPort 0 Link.TRAINING { everUp := true }).port 0).everUp = true ∧
    (kyPort 0 Link.DOWN {}).link 0 = Link.DOWN ∧ (kyPort 0 Link.DOWN {}).on (P.kyPort 0) = true ∧
    ((kyPort 0 Link.DOWN {}).port 0).since + 1000000000 ≤ 1000000000 ∧
    ((kyPort 0 Link.TRAINING { trained := true }).port 0).trained = true ∧
    (kyPort 0 Link.RETRAIN {}).link 0 = Link.RETRAIN ∧ ((kyPort 0 Link.RETRAIN {}).port 0).replay = [] ∧
    ((kyPort 0 Link.RETRAIN {}).port 0).sendq = [] ∧ (kyPort 0 Link.RETRAIN {}).routedPort 0 = false ∧
    ((kyPort 0 Link.RETRAIN {}).port 0).attempts < (kyPort 0 Link.RETRAIN {}).rd (P.kyPort 0) F.KY_PORT_CTL.RETRAIN_MAX ∧
    (kyPort 0 Link.RETRAIN { attempts := 255 }).rd (P.kyPort 0) F.KY_PORT_CTL.RETRAIN_MAX ≤
      ((kyPort 0 Link.RETRAIN { attempts := 255 }).port 0).attempts ∧ d0.colls = [] ∧
    busyColl.colls ≠ [] := by decide +kernel

def putF : Frame := { op := Op.PUT, src := 5, vc := 2, payload := List.replicate 64 0 }
def held0 : HeldFrame := { seq := 3, f := putF }
def upPort (x : PortSt) : Dev := kyPort 2 Link.UP x
def slowPort : Dev := upPort { short := [none, some 0, none, none] }
/-- The same port while it reads SLOW; one that has starved and recovered, and one that has not recovered. -/
def slowAlready : Dev := slowPort.wr (P.kyPort 2) F.KY_PORT_STAT.SLOW 1
def wasSlow : Dev := upPort { starved := [false, true, false, false], lastShort := [0, 0, 0, 0] }
def stillSlow : Dev := upPort { starved := [false, true, false, false], short := [none, some 0, none, none] }
def routed2 : Dev := (upPort {}).wr (P.kyPort 2) F.KY_PORT_CTL.MODE 1
def routedFull : Dev := routed2.wri (P.kyPort 2) 2 F.KY_VC_DATA.OCC 4096
def conn5 : Dev := { upPort {} with conns := Tbl.set (fun _ => {}) [] (5 * 4 + 2) { held := [held0], port := 2 } }
def rx5 : Dev := { d0 with e2eRx := Tbl.set (fun _ => {}) [] (5 * 4 + 2) { since := 256, port := 2 } }
theorem witness_KyinoFrames :
    (upPort {}).link 2 = Link.UP ∧ (upPort {}).routedPort 2 = false ∧ putF.dst = (upPort {}).myId ∧ frameOk putF = true ∧
    (upPort {}).quarantined putF.src = false ∧ ((upPort {}).port 2).unacked + 1 < 64 ∧ 64 ≤ ((upPort { unacked := 63 }).port 2).unacked + 1 ∧
    (7 : Nat) ≠ ((upPort {}).port 2).rxSeq ∧ ((upPort { replay := [held0] }).port 2).replay = [held0] ∧ held0.seq = 3 ∧
    ((upPort { replay := [held0] }).port 2).replay.filter (fun h => seqAfter h.seq 2) = [held0] ∧
    held0.resends < (upPort { replay := [held0] }).rd (P.kyPort 2) F.KY_PORT_CTL.RETRY_LIMIT ∧
    ((upPort { replay := [held0] }).port 2).ackAt + 5000 ≤ 5000 ∧
    (upPort {}).rd (P.kyPort 2) F.KY_PORT_CTL.RETRY_LIMIT ≤ ({ held0 with resends := 255 } : HeldFrame).resends ∧
    ((upPort {}).port 2).seen.length = 4 ∧ (slowPort.port 2).short.getD 1 none = some 0 ∧
    slowPort.flag (P.kyPort 2) F.KY_PORT_STAT.SLOW = false ∧ 0 + slowPort.starveNs 2 ≤ 1000000000 ∧ 0 < 0 + slowPort.starveNs 2 ∧
    frameCrc false 7 putF ≠ frameCrc false 7 putF + 1 ∧ ((upPort { replay := [held0] }).port 2).sendq = [] ∧
    (slowAlready.port 2).short.getD 1 none = some 0 ∧ slowAlready.flag (P.kyPort 2) F.KY_PORT_STAT.SLOW = true ∧
    (∀ vc, vc < 4 → (wasSlow.port 2).starved.getD vc false = true →
      (wasSlow.port 2).short.getD vc none = none ∧ (wasSlow.port 2).lastShort.getD vc 0 + wasSlow.starveNs 2 ≤ 1000000000) ∧
    (stillSlow.port 2).starved.getD 1 false = true ∧ (stillSlow.port 2).short.getD 1 none ≠ none ∧
    routed2.occ 2 2 + frameCost putF ≤ vcDepth 2 ∧ vcDepth 2 < routedFull.occ 2 2 + frameCost putF ∧
    routedFull.link 2 = Link.UP ∧ routedFull.routedPort 2 = true ∧ (routedFull.e2e (5 * 4 + 2)).acc = [] ∧
    d0.rd P.kyino F.KY_RT_INDEX.INDEX < 2 ^ 17 ∧
    routed2.link 2 = Link.UP ∧ routed2.routedPort 2 = true ∧ putF.dst = routed2.myId ∧ frameVc putF = 2 ∧ routed2.quarantined 5 = false ∧
    (routed2.e2e (5 * 4 + 2)).acc = [] ∧ (routed2.e2e (5 * 4 + 2)).low < 2 ^ 32 ∧
    (conn5.conn (5 * 4 + 2)).held ≠ [] ∧ conn5.link (conn5.conn (5 * 4 + 2)).port = Link.UP ∧ (conn5.port (conn5.conn (5 * 4 + 2)).port).sendq = [] ∧ 256 ≤ (rx5.e2e (5 * 4 + 2)).since ∧
    (∀ h ∈ (conn5.conn (5 * 4 + 2)).held, h.resends < conn5.rd P.kyino F.KY_E2E.RETRY) ∧
    (conn5.conn (5 * 4 + 2)).at_ + conn5.rd P.kyino F.KY_E2E.RTO_US * 1000 ≤ 1000000000 := by decide +kernel

/-- An open window 0 on rows of span 0, a group 1 with this device as its one member, and a CWRITE to it. -/
def win0 : Dev := ((d0.wri P.kyWindows 0 F.KY_WIN_CTL.OPEN 1).wri P.kyWindows 0 F.KY_WIN_SIZE.BYTES 1024).wri P.kyWindows 0
  F.KY_WIN_CTL.SPAN 0
def put512 : Frame := { op := Op.PUT, src := 5, payload := List.replicate 512 0 }
def grp1 : Dev := ((win0.wr P.hostIf F.HI_LINK_STAT.UP0 1).wri P.countingHouse 1 F.CH_GRP_CFG.VALID 1).wri P.countingHouse 1 F.CH_GRP_CFG.MEMBERS 1
def cwriteF : Frame := { op := Op.CWRITE, group := 1, payload := List.replicate 512 0 }
def cwDev : Dev := { grp1 with colls := [coll1] }
def winW : WinWrite :=
  { win := 0, near := false, span := 0, base := 0, src := 5, strand := 0, tag := 0, offset := 0, data := List.replicate 512 0,
    op := Op.PUT }
def wackF : Frame := { op := Op.WACK, src := 5, win := 0, tag := 1, offset := 0 }
def putColl : Coll := { coll1 with op := 4, out := [(5, 0, 1, 0)] }
def putDev : Dev := { onRing 32 { dkt 6 [] with stage := .begun } d0 with colls := [putColl] }
/-- A write that waits: its span sealed; into the near tier, where its access has its effect, and where it fails. -/
def winSealed : Dev := ({ d0 with winWrites := [winW] } : Dev).setPhase [0] 1
def winNear : WinWrite := { winW with near := true, base := 4096, data := List.replicate 64 0 }
def winNearOk : Dev := { nearOne with winWrites := [winNear] }
def winNearBad : Dev := { nearOne with winWrites := [winNear], hostMem := (nearOne.putHost 0 (bytesOfNat 8 (3 + 2 ^ 8 + 2 ^ 9))).hostMem }
/-- A write of rows that waits behind a complete group at its tile's write port. -/
def winBusy : Dev := { wrt with winWrites := [winW] }
theorem witness_RemoteWrites :
    ({ d0 with winWrites := [winW] } : Dev).clocked = true ∧ winW.rowsDone = [] ∧ winW.data.length / 512 = 1 ∧ winW.rowsLeft = [0] ∧
    (({ d0 with winWrites := [winW] } : Dev).writeReqs (spPath 0 (tileOfRow (winW.rowAt 0)))).all (fun x => x.1 == windowPort) = true ∧
    winBusy.winWrites.find? (fun w => w.win == 0 && !w.held) = some winW ∧
    (winBusy.writeReqs (spPath 0 (tileOfRow (winW.rowAt 0)))).any (fun x => x.1 != windowPort) = true ∧
    winNearOk.rangeRetrains (winNear.base + winNear.offset) 64 = false ∧ winNearBad.rangeRetrains (winNear.base + winNear.offset) 64 = false ∧
    ({ d0 with winWrites := [winW] } : Dev).isSealed 0 = false ∧ winSealed.isSealed 0 = true ∧ winNear.data ≠ [] ∧
    (winNear.base + winNear.offset) % 512 + winNear.data.length ≤ 512 ∧
    (winNearOk.clean.access tenMs (P.io 0 0) .nobody (winNear.base + winNear.offset) 64 true winNear.data { res := .ok }).1.isSome = true ∧
    (winNearBad.clean.access tenMs (P.io 0 0) .nobody (winNear.base + winNear.offset) 64 true winNear.data { res := .failed C.NEAR_UE }).1 = none ∧
    (winNearBad.clean.access tenMs (P.io 0 0) .nobody (winNear.base + winNear.offset) 64 true winNear.data { res := .failed C.NEAR_UE }).2.reqs.length = 0 ∧
    putColl.stuck = false ∧ putColl.failure = none ∧
    frameOk put512 = true ∧ (win0.takeFrame (fun x => x == put512)).quarantined put512.src = false ∧
    (win0.takeFrame (fun x => x == put512)).writeRefusal tenMs false put512 = none ∧
    (d0.takeFrame (fun x => x == put512)).writeRefusal tenMs false put512 = some 1 ∧
    frameOk cwriteF = true ∧ (cwDev.takeFrame (fun x => x == cwriteF)).writeRefusal tenMs true cwriteF = none ∧
    (grp1.takeFrame (fun x => x == cwriteF)).writeRefusal tenMs true cwriteF = some 7 ∧
    ({ d0 with winWrites := [winW] } : Dev).winWrites.find? (fun w => w.win == 0 && !w.held) = some winW ∧ winW.near = false ∧
    winW.op = Op.PUT ∧ winW.data.length % 512 = 0 ∧
    (putDev.takeFrame (fun x => x == wackF)).quarantined wackF.src = false ∧ putDev.pr.pairTag ≠ some wackF.tag ∧
    putDev.snaps = [] ∧ putDev.colls.find? (fun c => c.out.contains (wackF.src, wackF.win, wackF.tag, wackF.offset)) = some putColl ∧ putColl.op = 4 ∧
    putDev.collBy putColl.owner = some putColl ∧ (putDev.docket 32 0).isSome = true ∧
    putColl.out = [(wackF.src, wackF.win, wackF.tag, wackF.offset)] := by decide +kernel

/-- REDUCE dockets of the five operations: OP, DTYPE, GROUP, FIRST and LAST. -/
def redDk (op dt g : Nat) : Docket := dkt 6 (List.replicate 8 0 ++ bytesOfNat 8 64 ++ [BitVec.ofNat 8 op, BitVec.ofNat 8 dt, BitVec.ofNat 8 g, 0,
  1, 0, 1, 0])
def redDev (op dt g : Nat) : Dev := onRing 32 (redDk op dt g) grp1
def countedAcc : Dev := (redDev 3 0 1).wr P.dkCtl F.DK_ACC.MB_COUNT 4
def amaxColl : Coll := { coll1 with op := 3, members := [0, 5], strands := [{ recvs := [⟨1, 0, 0, 1, true, 0⟩] }] }
def collDev (c : Coll) : Dev := { onRing 32 { redDk 3 0 1 with stage := .begun } ((onAll [P.kyPort 2] d0).wr (P.kyPort 2)
    F.KY_PORT_STAT.LINK Link.UP |>.setRt 5 (2 ^ 31 + 2 ^ 2)) with colls := [c] }
def stuckColl : Coll := { coll1 with members := [0, 5], stuck := true }
def creadyF : Frame := { op := Op.CREADY, src := 5, group := 1 }
def cabort0 : Frame := { op := Op.CABORT, src := 0, group := 1 }
/-- A REDUCE of 64 elements at device address 4096, and a PUT of 64 B there to this device itself, in a group of one over the near tier. -/
def nearGrp : Dev :=
  ((nearOne.wri P.countingHouse 1 F.CH_GRP_CFG.VALID 1).wri P.countingHouse 1 F.CH_GRP_CFG.MEMBERS 1).wri P.countingHouse 1 F.CH_GRP_LIST.BASE 1
def nearRed (op : Nat) : Docket := dkt 6 (bytesOfNat 8 4096 ++ bytesOfNat 8 64 ++ [BitVec.ofNat 8 op, 4, 1, 0, 0, 0, 0, 0])
def nearRedDev (op : Nat) : Dev := onRing 32 (nearRed op) nearGrp
theorem witness_Collectives :
    (∀ op, op < 3 → (nearRedDev op).nextDocket deviceRing = some (nearRed op) ∧ rdOp (nearRed op) = op ∧ (nearRedDev op).reduceHeld (nearRed op) = false ∧
      refusal deviceRing (nearRed op) (argMask (nearRed op)) ((nearRedDev op).clean.reduceBad (nearRed op)) = none ∧
      ((nearRedDev op).clean.members 1).1.toOption = some [(nearRedDev op).myId] ∧ rdGroup (nearRed op) = 1 ∧
      (nearRedDev op).grp 1 F.CH_GRP_CFG.RANK = 0 ∧ (nearRedDev op).colls = [] ∧ isCounted (nearRed op) = false ∧
      ((nearRedDev op).readBuffer tenMs (.ring 32 0) ((nearRed op).field 0x10 8) (bytesFor 4 64)).2.1 = false) ∧
    (nearRedDev 4).nextDocket deviceRing = some (nearRed 4) ∧ rdOp (nearRed 4) = 4 ∧ rdCount (nearRed 4) = 64 ∧
    refusal deviceRing (nearRed 4) (argMask (nearRed 4)) ((nearRedDev 4).clean.reduceBad (nearRed 4)) = none ∧
    (nearRed 4).field 0x24 4 = (nearRedDev 4).myId ∧
    (((nearRedDev 4).clean.beginDocket 32 0).members (rdGroup (nearRed 4))).1.toOption.isSome = true ∧
    ((((nearRedDev 4).clean.beginDocket 32 0).members (rdGroup (nearRed 4))).2.readBuffer tenMs (.ring 32 0) ((nearRed 4).field 0x10 8) 64).2.1 = false := by decide +kernel
theorem witness_Collectives_begin :
    (∀ op, op < 5 → (redDev op 4 1).nextDocket deviceRing = some (redDk op 4 1) ∧ (redDk op 4 1).opcode = 6 ∧ rdOp (redDk op 4 1) = op ∧
      (redDev op 4 1).kill = none ∧ (redDev op 4 1).reduceHeld (redDk op 4 1) = false ∧
      refusal deviceRing (redDk op 4 1) (argMask (redDk op 4 1)) ((redDev op 4 1).clean.reduceBad (redDk op 4 1)) = none) ∧
    refusal deviceRing (redDk 0 4 0) (argMask (redDk 0 4 0)) ((redDev 0 4 0).clean.reduceBad (redDk 0 4 0)) = some (St.BAD_ARGS, 0x22) ∧
    countedAcc.nextDocket deviceRing = some (redDk 3 0 1) ∧
    refusal deviceRing (redDk 3 0 1) (argMask (redDk 3 0 1)) (countedAcc.clean.reduceBad (redDk 3 0 1)) = none ∧
    (countedAcc.clean.members 1).1.toOption = some [countedAcc.myId] ∧ rdGroup (redDk 3 0 1) = 1 ∧ countedAcc.grp 1 F.CH_GRP_CFG.RANK = 0 ∧
    countedAcc.colls = [] ∧ countedAcc.vValid ≠ 0 ∧ countedAcc.amax = [] := by decide +kernel
theorem witness_Collectives_frames :
    (d0.takeFrame (fun x => x == creadyF)).quarantined creadyF.src = false ∧
    (d0.takeFrame (fun x => x == creadyF)).mayCollect creadyF.group creadyF.src = false ∧
    (collDev stuckColl).mayCollect creadyF.group creadyF.src = true ∧
    creadyF.tag = (collDev stuckColl).grp 1 F.CH_GRP_SEQ.SEQ % 2 ^ 16 ∧ (nearGrp.takeFrame (fun x => x == cabort0)).mayCollect 1 0 = true ∧
    nearGrp.collOf cabort0.group = none ∧
    (collDev stuckColl |>.wri P.countingHouse 1 F.CH_GRP_SEQ.SEQ 1).grp 1 F.CH_GRP_SEQ.SEQ % 2 ^ 16 ≠ creadyF.tag ∧
    (collDev stuckColl).collOf 1 = some stuckColl ∧ (collDev stuckColl).collBy stuckColl.owner = some stuckColl ∧
    stuckColl.members.findIdx? (fun m => m == creadyF.src) = some 1 ∧ stuckColl.seq % 2 ^ 16 = creadyF.tag ∧
    creadyF.strand < stuckColl.strands.length ∧
    (collDev amaxColl).collOf 1 = some amaxColl ∧ (collDev amaxColl).collBy amaxColl.owner = some amaxColl ∧ amaxColl.stuck = false ∧
    ((collDev amaxColl).docket 32 0).isSome = true ∧ amaxColl.members.findIdx? (fun m => m == creadyF.src) = some 1 ∧
    amaxColl.strands.any (fun x => (match x.recvs with | y :: _ => y.peer == 1 | [] => false) ||
      (match x.sends with | y :: _ => y.peer == 1 | [] => false)) = true ∧
    (collDev amaxColl).candidates (amaxColl.members.getD 1 0) ≠ [] ∧
    amaxColl.strands.any (fun x => x.late 1 (tenMs * 100000) ((collDev amaxColl).rd P.countingHouse F.CH_CTL.TIMEOUT_MS * 1000000)) = true ∧
    amaxColl.strands.any (fun x => x.late 1 0 ((collDev amaxColl).rd P.countingHouse F.CH_CTL.TIMEOUT_MS * 1000000)) = false := by decide +kernel
theorem witness_Collectives_amax : ∀ e, countedAcc.amaxWord e 1 < 2 ^ 64 := by
  intro e
  have h : countedAcc.amax = [] := by decide +kernel
  simp only [Dev.amaxWord, h, Tbl.get]
  split <;> simp [amaxReset]

def master : Dev := d0.wr P.kyino F.KY_TIME_CTL.MASTER 1
def slave : Dev := (upPort {}).wr P.kyino F.KY_TIME_CTL.UPSTREAM 2
def slaveX : Dev := { slave with exchange := some (10, 30, 40) }
def relay : Dev := ({ slave with tsyncAt := some 0 }).wr P.kyino F.KY_TIME_CTL.UPSTREAM 3 |>.setCredits 2 3 1
theorem witness_DeviceTime :
    master.passesTime tenMs = true ∧ master.tsyncSent + master.periodNs ≤ tenMs * 1000 ∧ d0.passesTime tenMs = false ∧
    slave.link 2 = Link.UP ∧ slave.isMaster = false ∧ 2 = slave.upstream ∧ slave.quarantined 5 = false ∧
    relay.link 2 = Link.UP ∧ 2 ≠ relay.upstream ∧ relay.quarantined 5 = false ∧ relay.passesTime 0 = true ∧ relay.routedPort 2 = false ∧
    (relay.port 2).sendq = [] ∧ (relay.port 2).replay = [] ∧ 1 ≤ relay.credits 2 3 ∧
    slaveX.exchange = some (10, 30, 40) ∧ slaveX.link 2 = Link.UP ∧ slaveX.isMaster = false ∧ 2 = slaveX.upstream ∧
    ((((30 : Int) - 10) - ((40 : Int) - 40)).tdiv 2 ≥ -10000) ∧ ((((30 : Int) - 10) - ((100000 : Int) - 40)).tdiv 2 < -10000) := by
  decide +kernel

/-- Engine 0 of span 0 in a state, and the units above it ON. -/
def parentsOn : Dev := onAll [P.root, P.span 0, P.bay 0 0] d0
def meIn (st : Nat) (d : Dev) : Dev := d.wr meP F.UNIT_STAT.STATE st
/-- The minimum service set is there: the base-die units of R46, span 0 with what it needs, and a host link. -/
def serviceUnits : List Nat := [P.boot, P.mgmt, P.hostIf, P.regFabric, P.tollhouse, P.root, P.span 0, P.bay 0 0, meP, sfP, spP, gcP, ioP,
  P.spanCache 0, P.ledger 0, P.carter 0, P.trestle 0]
def serviceDev : Dev := (onAll serviceUnits d0).wr P.hostIf F.HI_LINK_STAT.UP0 1
def spIn (st : Nat) : Dev := (onAll [P.root, P.span 0, P.bay 0 0] d0).wr spP F.UNIT_STAT.STATE st
def meWorks : Dev := (meRun 0x1F {}).wr meP F.UNIT_STAT.STATE U.DRAINING
theorem witness_Units :
    (kindOf meP).isSome = true ∧ meP ≠ P.group ∧ (∀ q ∈ meP :: descendants meP, kindOf q ≠ some .kyPort) ∧
    (meIn U.OFF parentsOn).ust meP = U.OFF ∧ (meIn U.OFF parentsOn).parentOn meP = true ∧ d0.ust meP = U.OFF ∧ d0.parentOn meP = false ∧
    (meIn U.DRAINING d0).ust meP = U.DRAINING ∧ canCommand meP = true ∧ (meIn U.STARTING d0).ust meP = U.STARTING ∧
    (meIn U.ON d0).workInFlight meP = false ∧ resetTree meP = [meP] ∧ isRing meP = false ∧ (meIn U.ON d0).ust meP ≠ U.NO_SERVICE ∧
    serviceDev.shut sfP = false ∧ serviceDev.workInFlight sfP = false ∧ (resetTree sfP).any isRing = false ∧
    serviceDev.noService = false ∧ (serviceDev.fenceStates 0 sfP).serviceMet = true ∧ (meIn U.FENCED d0).ust meP = U.FENCED ∧
    (meIn U.FENCED d0).shut meP = true ∧ canCommand P.tollhouse = false ∧ d0.ust meP ≠ U.FENCED ∧
    (spIn U.STARTING).ust spP = U.STARTING ∧ (spIn U.STARTING).parentOn spP = true ∧ kindOf spP = some .sp ∧
    (meIn U.DRAINING d0).progRuns meP = false ∧ childrenOf meP = [] ∧ meWorks.progRuns meP = true ∧
    (0 + 2 ^ 32 - (meIn U.DRAINING d0).rd meP F.UNIT_STAT.STATE_TIME) % 2 ^ 32 < 1000000 ∧
    1000000 ≤ (1000000 + 2 ^ 32 - (meIn U.DRAINING d0).rd meP F.UNIT_STAT.STATE_TIME) % 2 ^ 32 ∧
    (meIn U.DRAINING d0).workInFlight meP = false ∧ (meIn U.DRAINING d0).rd meP F.UNIT_STAT.PEND_EN = 0 ∧
    kindOf meP ≠ some .clocks := by decide +kernel

def sprP : Nat := P.spare 0
def servingDev : Dev := ((onAll [sprP] d0).wr sprP F.ME_REMAP.ACTIVE 1).wr sprP F.ME_REMAP.SERVED meP
def substDev : Dev := { onAll [sprP] d0 with substs := [⟨0, meP, 2⟩] }
def oldEpoch : Dev := waits { nearReqA with path := meP, epoch := 1 }
/-- A plan that is loaded while its store cannot be read. -/
def substNoStore : Dev := { substDev with plan := some (planOf [] []) }
theorem witness_SpareEngines :
    substDev.plan = none ∧ substNoStore.plan.isSome = true ∧ substNoStore.storeUp = false ∧
    substNoStore.substs.find? (fun y => y.span == 0) = some ⟨0, meP, 2⟩ ∧
    d0.spareFree 0 = false ∧ servingDev.flag (P.spare 0) F.ME_REMAP.ACTIVE = true ∧
    servingDev.ust (servingDev.rd (P.spare 0) F.ME_REMAP.SERVED) = U.OFF ∧ d0.flag (P.spare 0) F.ME_REMAP.ACTIVE = false ∧
    substDev.substs.find? (fun y => y.span == 0) = some ⟨0, meP, 2⟩ ∧ meP < 2 ^ 16 ∧ substDev.kill = none ∧
    substDev.on (P.spare 0) = true ∧ substDev.epochBusy [0] = false ∧ oldEpoch.epochBusy [0] = true := by decide +kernel

/-- A message of a class in the outbox, PHASE at a value. -/
def msgOf (kind cls : Nat) : Msg := ⟨P.farPath, kind, cls, 0, 0, 0, none⟩
def msgDev (ph kind cls : Nat) : Dev := { d0.wr P.tollhouse F.FC_PHASE.PHASE ph with outbox := [msgOf kind cls] }
def ladder0 (kind : Nat) : Ladder := { kind := kind, path := P.farPath, slot := 3, step := 1, acts := [1], begun := true }
def msgLadder (ph : Nat) : Dev := { msgDev ph 0x010 Cls.CONTAINED with ladders := [ladder0 0x010] }
def msgFull : Dev := { msgDev 1 0x010 Cls.DEFERRED with log := Tbl.set (fun _ => {}) [] 0 { state := 1 } }
def directDev : Dev := { (msgDev 0 0x010 Cls.CONTAINED).wri P.tollhouse 0x010 F.FC_REACT_DATA.ENTRY (4 * 2 ^ 33) with reactWritten := [0x010] }
theorem witness_MessagesAndLog :
    (∀ ph, ph < 4 → ∀ cls, cls < 5 → (msgDev ph 0x010 cls).outbox[0]? = some (msgOf 0x010 cls) ∧
      (msgDev ph 0x010 cls).outbox.find? (fun x => x.path == P.farPath) = some (msgOf 0x010 cls) ∧
      (msgDev ph 0x010 cls).rd P.tollhouse F.FC_LOG_STAT.WPTR = 0 ∧ ((msgDev ph 0x010 cls).slot 0).state ≠ 1 ∧
      (msgDev ph 0x010 cls).fcPhase = ph ∧ (msgDev ph 0x010 cls).ladderOf 0 0x010 P.farPath = none) ∧
    (msgOf 0x010 0).kind ≠ K.BI_REPAIR ∧ Cls.DEFERRED ≠ Cls.CONTAINED ∧ Cls.DEFERRED ≠ Cls.FATAL ∧ Cls.DEFERRED < 5 ∧ Cls.CONTAINED < 5 ∧
    entryActs ((msgDev 1 0x010 Cls.CONTAINED).entryFor 0x010 Cls.CONTAINED) ≠ [] ∧
    (msgLadder 1).ladderOf 0 0x010 P.farPath = some (ladder0 0x010) ∧ (msgLadder 3).fcPhase = 3 ∧ (ladder0 0x010).waiting = none ∧
    directDev.fcPhase = 0 ∧ entryDirect (directDev.entryFor 0x010 Cls.CONTAINED) directDev.fcPhase = 4 ∧ Cls.CONTAINED ≠ Cls.FATAL ∧
    (msgFull.slot 0).state = 1 ∧ msgFull.fcPhase = 1 := by decide +kernel

/-- A held slot 3 with a grace timer, and with a ladder that runs, has been acknowledged or waits for recurrence. -/
def heldSlot (d : Dev) : Dev := { d with log := Tbl.set (fun _ => {}) [] 3 { msg := msgOf 0x010 Cls.CONTAINED, state := 1 } }
def graceDev : Dev := heldSlot { d0 with graces := [⟨3, 1000, [1]⟩] }
def ladDev (l : Ladder) : Dev := heldSlot { onAll [P.farPath] d0 with ladders := [l] }
def sealedDev : Dev := { ladDev (ladder0 0x010) with regs := (d0.wr (P.trestle 0) F.TR_STAT.PHASE 3).regs }
theorem witness_LaddersAndGraces :
    (d0.slot 3).state ≠ 1 ∧ (graceDev.slot 3).state = 1 ∧ graceDev.graces.find? (fun x => x.slot == 3) = some ⟨3, 1000, [1]⟩ ∧
    graceDev.ladders.find? (fun l => l.slot == 3 && !l.direct) = none ∧ ((heldSlot d0).slot 3).state = 1 ∧
    (heldSlot d0).graces.find? (fun x => x.slot == 3) = none ∧
    (ladDev (ladder0 0x010)).ladders.find? (fun l => l.slot == 3 && !l.direct) = some (ladder0 0x010) ∧
    ((ladDev (ladder0 0x010)).slot 3).state = 1 ∧ (ladder0 0x010).waiting = none ∧
    (ladDev { ladder0 0x010 with waiting := some 50 }).ladders.find? (fun l => l.slot == 3 && !l.direct) =
      some { ladder0 0x010 with waiting := some 50 } ∧
    ({ ladDev (ladder0 0x010) with graces := [⟨3, 1000, [1]⟩] } : Dev).ladderOf 1000 0x010 P.farPath = some (ladder0 0x010) ∧
    Dev.stepLate 60000 (ladder0 0x010) = false ∧ Dev.stepLate 60001 { ladder0 0x010 with acts := [1, 2] } = true ∧
    (ladder0 0x010).runs = true ∧ (ladder0 0x010).direct = false ∧ (ladder0 0x010).acked = false ∧
    (ladDev (ladder0 0x010)).stepEnded (ladder0 0x010) = true ∧ sealedDev.stepEnded (ladder0 0x010) = false ∧
    (ladDev { ladder0 0x010 with acked := true }).stepEnded { ladder0 0x010 with acked := true } = true ∧
    (ladDev (ladder0 0x010)).ust ((ladDev (ladder0 0x010)).sourceUnit P.farPath) ≠ U.FAILED ∧
    0 < (ladder0 0x010).since + actLimit ((ladder0 0x010).acts.getD 0 0) := by decide +kernel

theorem witness_PinPhaseAndReactions :
    ({ d0 with pulseUntil := some 10 } : Dev).pulseUntil = some 10 ∧ 10 ≤ bitsOf (10 * 2 ^ 16 : Word).toNat 16 10 ∧
    bitsOf (1000 * 2 ^ 16 : Word).toNat 16 10 ≤ 1000 ∧ bitsOf (9 * 2 ^ 16 : Word).toNat 16 10 < 10 ∧
    1000 < bitsOf (1001 * 2 ^ 16 : Word).toNat 16 10 ∧ (msgDev 1 0 0).fcPhase = 1 ∧ (msgDev 2 0 0).fcPhase = 2 ∧ d0.bistWin = none ∧
    bitsOf (2 : Word).toNat 0 2 = 2 ∧ (msgDev 0 0 0).fcPhase = 0 ∧ d0.rd P.tollhouse F.FC_REACT_SEL.KIND < 1024 ∧
    kindRow (d0.rd P.tollhouse F.FC_REACT_SEL.KIND) = none ∧
    (kindRow ((d0.wr P.tollhouse F.FC_REACT_SEL.KIND 0x010).rd P.tollhouse F.FC_REACT_SEL.KIND)).isSome = true ∧
    10 ≤ bitsOf (10 * 2 ^ 8 : Word).toNat 8 16 ∧ bitAt (10 * 2 ^ 8 : Word).toNat 7 = false ∧ bitsOf (10000 * 2 ^ 8 : Word).toNat 8 16 ≤ 10000 ∧
    bitsOf (10 * 2 ^ 8 : Word).toNat 42 22 = 0 ∧ bitsOf (9 * 2 ^ 8 : Word).toNat 8 16 < 10 := by decide +kernel

def autoDev : Dev := (onAll [P.trestle 0] d0).wr P.bist F.BI_CTL.AUTO 1
def sliceDev (r : Nat) : Dev := { ((onAll [meP] d0).wr P.bist F.BI_CTL.AUTO_REPAIR 1) with slices := [{ path := meP, since := 0, run := r }] }
def bistDk : Docket := dkt 11 (bytesOfNat 4 100 ++ [1])
def bistBad : Docket := dkt 11 (bytesOfNat 4 99 ++ [1])
def bwin (st : Option Nat) : BistWin := { n := 0, start := st, micros := 100, spans := [0], base := false, near := false, phase := 1 }
def bwinDev (st : Option Nat) (d : Dev) : Dev := { d with bistWin := some (bwin st) }
theorem witness_SelfTest :
    (kindOf (P.trestle 0)).isSome = true ∧ autoDev.sliceMay tenMs (P.trestle 0) = true ∧ d0.sliceMay 0 (P.trestle 0) = false ∧
    (∀ r, r < 3 → (sliceDev r).slices.find? (fun y => y.path == meP) = some { path := meP, since := 0, run := r }) ∧
    0 < 0 + (sliceDev 0).sliceBudget ∧ (∀ r, r < 3 → (sliceDev r).on meP = true) ∧ d0.on meP = false ∧ (sliceDev 1).canRepair { path := meP, since := 0, run := 1 } true = true ∧
    kindOf meP ≠ some .nmChannel ∧ (sliceDev 2).held P.bist < 8 ∧ (sliceDev 2).repairs.length < 256 ∧ 0 < sliceTotal meP ∧
    d0.biTold.contains meP = false ∧ d0.passAt meP + d0.rd P.bist F.BI_COVER.HOURS * 3600000000000 ≤ 2 ^ 60 ∧
    0 < d0.passAt meP + d0.rd P.bist F.BI_COVER.HOURS * 3600000000000 ∧
    (onRing 32 bistDk d0).nextDocket deviceRing = some bistDk ∧ bistDk.opcode = 11 ∧ (onRing 32 bistDk d0).captureHeld = false ∧
    refusal deviceRing bistDk windowMask (windowBad bistDk) = none ∧
    (onRing 32 bistBad d0).nextDocket deviceRing = some bistBad ∧
    refusal deviceRing bistBad windowMask (windowBad bistBad) = some (St.BAD_ARGS, 0x10) ∧
    (bwinDev none d0).streamingIn = false ∧ (bwinDev none startDev).streamingIn = true ∧
    (bwinDev (some 0) (onRing 32 { bistDk with stage := .begun } d0)).bistWin = some (bwin (some 0)) ∧
    0 + (bwin (some 0)).micros * 1000 ≤ 100000 ∧
    ((bwinDev (some 0) (onRing 32 { bistDk with stage := .begun } d0)).docket deviceRing 0).isSome = true := by decide +kernel

theorem witness_RiskEstimate : 0 < d0.assayEnd + 4000 ∧ d0.assayEnd + 4000 ≤ 2 ^ 60 := by decide +kernel

/-- The host's link is up, and a leaf of 1 GiB maps device address 0 to host memory. -/
def farOne : Dev := (d0.wr P.hostIf F.HI_LINK_STAT.UP0 1).putHost 0 (bytesOfNat 8 (3 + 8 + 2 ^ 9))
def snapArgs (list flags : Nat) : List Byte := bytesOfNat 8 list ++ bytesOfNat 2 1 ++ [BitVec.ofNat 8 flags]
def snapDk (list flags : Nat) : Docket := dkt 8 (snapArgs list flags)
def snapRefusal (x : Docket) : Option (Nat × Nat) :=
  refusal deviceRing x snapMask ((if snList x % 64 != 0 then [0x10] else []) ++ (if snCount x == 0 ∨ snCount x > 256 then [0x18] else []))
def snapDev (list flags : Nat) : Dev :=
  (((onRing 32 (snapDk list flags) farOne).wr P.snapshot F.SN_STAT.PAIRED 1).wr P.snapshot F.SN_SLOT_BYTES.BYTES (2 ^ 30))
def listRead : Option (List Byte) × Dev := (snapDev 8192 1).clean.snRead 0 (.ring deviceRing 0) 8192 16 .ok true
def snap0 : Snap := { n := some 0, regions := [], stage := none, farAddr := 0, tag := 0, point := some 0 }
def snapWith (x : Snap) (d : Dev) : Dev := { d with snaps := [x] }
def capt (b f : SnDest) : Snap := { snap0 with captured := true, image := List.replicate 512 0, buddy := b, far := f }
def wackSnap (k : Nat) : Snap := { capt (.sent k) .unused with out := [(5, 0, 1, 0)] }
def snapDocket : Dev := onRing 32 { snapDk 8192 1 with stage := .begun } farOne
theorem witness_Snapshots :
    (snapDev 1 1).nextDocket deviceRing = some (snapDk 1 1) ∧ (snapDk 1 1).opcode = 8 ∧ (snapDev 1 1).kill = none ∧
    snapRefusal (snapDk 1 1) = some (St.BAD_ARGS, 0x10) ∧
    (snapDev 8192 1).nextDocket deviceRing = some (snapDk 8192 1) ∧ snapRefusal (snapDk 8192 1) = none ∧
    (snapDev 8192 1).rangeRetrains 8192 16 = false ∧ nearOne.rangeRetrains 0 512 = false ∧
    listRead.1 = some (List.replicate 16 0) ∧ (listRead.2.snapBad (snapDk 8192 1) (listRegions (List.replicate 16 0) 1)).1 = [] ∧
    snap0.reached (snapWith snap0 d0) = true ∧ (snapWith snap0 d0).captureWaits = false ∧
    ({ snap0 with point := some 1 } : Snap).reached d0 = false ∧ (snapWith snap0 startDev).captureWaits = true ∧
    (snapWith snap0 d0).snHeld = false ∧ ((snapWith snap0 nearOne).clean.regionsRead 0 (.ring deviceRing 0) [(0, 512)]).1.isSome = true ∧
    ({ snap0 with capturing := true, stage := some 0 } : Snap).stage.isSome = true ∧
    ((snapWith snap0 nearOne).clean.snWrite 0 (.ring deviceRing 0) 0 ((List.replicate 512 0).take (512 - 64)) .ok).1 = true ∧
    (snapDev 1 1).pr.autoDue = none ∧ ({ d0 with pr.autoDue := some 5 } : Dev).pr.autoDue = some 5 := by decide +kernel
theorem witness_Snapshots_stages :
    (snapWith (capt .unused (.stage 1)) farOne).snHeld = false ∧
    (capt (.stage 1) .unused).buddy = .stage 1 ∧ (capt .unused (.stage 3)).far = .stage 3 ∧
    farOne.rd P.snapshot F.SN_BUDDY.ID = farOne.myId ∧ (farOne.wr P.snapshot F.SN_BUDDY.ID 5).candidates 5 = [] ∧
    (∀ k ∈ [1, 2, 3], (wackSnap k).out = [(wackF.src, wackF.win, wackF.tag, wackF.offset)] ∧ (wackSnap k).buddy = .sent k ∧ (wackSnap k).far.good = true) ∧
    (farOne.takeFrame (fun y => y == wackF)).quarantined wackF.src = false ∧ farOne.pr.pairTag ≠ some wackF.tag ∧ farOne.colls = [] ∧
    (∀ k ∈ [1, 2, 3], (((snapWith (capt .unused (.stage k)) farOne).clean.wr P.snapshot F.SN_STAT.SENDING 1).snapImage 0 (capt .unused (.stage k)) k).1 =
      some (List.replicate 512 0)) ∧
    (∀ k ∈ [1, 2, 3], ((((snapWith (capt .unused (.stage k)) farOne).clean.wr P.snapshot F.SN_STAT.SENDING 1).snapImage 0
        (capt .unused (.stage k)) k).2.snWrite 0 (.ring deviceRing 0) (0 + farOne.rd P.snapshot F.SN_STAT.FAR_NEXT_SLOT * farOne.rd P.snapshot F.SN_SLOT_BYTES.BYTES +
        (stageBytes (List.replicate 512 0) k).1) (stageBytes (List.replicate 512 0) k).2 .ok).1 = true) ∧
    ((snapWith (capt .complete .unused) snapDocket).docket deviceRing 0).isSome = true ∧
    (capt (.failed St.REMOTE_ERROR 5) .unused).far.done = true ∧ St.REMOTE_ERROR ≠ St.OK := by decide +kernel

/-- An image without regions, its trailer, and one of zeros; both read from device address 4096. -/
def img0 : List Byte :=
  ([0x54, 0x5A, 0x53, 0x4E] : List Byte) ++ bytesOfNat 2 1 ++ bytesOfNat 2 256 ++ bytesOfNat 8 320 ++ List.replicate 48 0 ++
  ([0, 2, 3, 4, 5].flatMap (fun k => bytesOfNat 2 k ++ [0, 0, 0, 0, 0, 0] ++ bytesOfNat 8 256)) ++ List.replicate 176 0
def reDk (a : Nat) (fl : Byte := 0) : Docket := dkt 9 (bytesOfNat 8 a ++ bytesOfNat 8 320 ++ [fl])
def reDev (a : Nat) : Dev := onRing 32 (reDk a) farOne
def reBusy : Dev := onRing 3 { dkt 2 [] with stage := .begun } (reDev 4096)
/-- The bytes of the image that are not zero, as host memory holds them at 4096, with the leaf at 0. -/
def imgMem : Tbl Byte :=
  [(0, 0x0B), (1, 2), (4096, 0x54), (4097, 0x5A), (4098, 0x53), (4099, 0x4E), (4100, 1), (4103, 1), (4104, 0x40), (4105, 1), (4169, 1), (4176, 2), (4185, 1),
   (4192, 3), (4201, 1), (4208, 4), (4217, 1), (4224, 5), (4233, 1)]
def reRun (t : Tbl Byte) (fl : Byte := 0) : Dev := { onRing 32 { reDk 4096 fl with stage := .begun } farOne with restoring := some 0, hostMem := t }
/-- The header of the image, then what phase 2 reads, then the whole, as RESTORE reads them. -/
def reRead (t : Tbl Byte) (fl : Byte := 0) (res : ReqOutcome := .ok) : Option (List Byte) × Dev := (reRun t fl).clean.snRead 0 (.ring deviceRing 0) 4096 256 res
def reHead (t : Tbl Byte) (fl : Byte := 0) : Option (List Byte) × Dev :=
  (reRead t fl).2.snRead 0 (.ring deviceRing 0) 4096 (headBytes (img0.take 256) 320) .ok
def reBad (t : Tbl Byte) (fl : Byte := 0) : Option Nat × Dev := (reHead t fl).2.restoreBad ((reHead t fl).1.getD []) 320 fl.toNat
/-- The same image with a plan ID of 1 in its header, and a leaf that aborts. -/
def imgPlan : Tbl Byte := Tbl.set zeroByte imgMem (4096 + 0x14) 1
def imgAbort : Tbl Byte := Tbl.set zeroByte imgMem 1 3
theorem witness_RestoreRuns :
    (reDev 4096).restoring = none ∧ (reDev 4096).nextDocket deviceRing = some (reDk 4096) ∧ (reDk 4096).opcode = 9 ∧
    (killAt 1 (reDev 4096)).kill ≠ none ∧ (killAt 1 (reDev 4096)).nextDocket deviceRing = some (reDk 4096) ∧
    (reDev 1).nextDocket deviceRing = some (reDk 1) ∧ (reDev 1).kill = none ∧ (reDev 1).captureHeld = false ∧
    refusal deviceRing (reDk 1) reMask (if (reDk 1).field 0x10 8 % 4096 = 0 then [] else [0x10]) = some (St.BAD_ARGS, 0x10) ∧
    reBusy.streamingIn = true ∧ refusal deviceRing (reDk 4096) reMask (if (reDk 4096).field 0x10 8 % 4096 = 0 then [] else [0x10]) = none ∧
    (reRun imgMem).rangeRetrains 4096 320 = false ∧ (reRun imgAbort).rangeRetrains 4096 320 = false ∧
    (reRun imgMem).restoring = some 0 ∧ ((reRun imgMem).docket deviceRing 0) = some { reDk 4096 with stage := .begun } ∧
    (reRun imgMem).streamingIn = false ∧ (reRun imgMem).snHeld = false ∧ (reDk 4096).field 0x18 8 = 320 ∧ (reRead imgMem).1 = some (img0.take 256) ∧ headerOk (img0.take 256) 320 = true ∧
    (reHead imgMem).1.isSome = true ∧ (reBad imgMem).1 = none ∧ ((reBad imgMem).2.snRead 0 (.ring deviceRing 0) 4096 320 .ok).1 = some img0 ∧
    imageRegions img0 = [] ∧ sectionAt img0 2 = some (0, 256) ∧ sectionAt img0 4 = some (0, 256) ∧ bitAt ((reDk 4096 1).field 0x20 1) 0 = true ∧
    (reHead imgPlan 1).1.isSome = true ∧ (reBad imgPlan 1).1 = some 0x20 ∧ (reRead imgMem 1).1 = some (img0.take 256) ∧ (reBad imgMem 1).1 = none ∧
    (reRead [(0, 0x0B), (1, 2)]).1 = some (List.replicate 256 0) ∧ headerOk (List.replicate 256 0) 320 = false ∧
    (reRead imgAbort 0 (.failed C.FAR_TIMEOUT)).1 = none ∧ (reRead imgAbort 0 (.failed C.FAR_TIMEOUT)).2.snHeld = false := by decide +kernel

def spareOn : Dev := onAll [sprP] d0
def graceOut : Dev := (heldSlot { d0 with graces := [⟨0, 0, [1, 2]⟩] }).wr P.tollhouse F.FC_PHASE.PHASE 1
def graceSpan : Dev := { graceOut with log := Tbl.set (fun _ => {}) [] 0 { msg := ⟨P.carter 0, 0x010, Cls.CONTAINED, 0, 0, 0, none⟩, state := 1 } }
def ladFail : Dev := { (heldSlot d0).wr P.farPath F.UNIT_STAT.STATE U.FAILED with ladders := [ladder0 0x010] }
def failSlice : Dev := { onAll [P.bist] d0 with slices := [{ path := meP, since := 0, run := 1 }] }
theorem witness_LossOfUnits :
    spareOn.spareFree 0 = true ∧ graceSpan.graces.find? (fun x => x.slot == 0) = some ⟨0, 0, [1, 2]⟩ ∧ graceSpan.ladders = [] ∧
    graceSpan.fcPhase = 1 ∧ graceSpan.bistWin = none ∧ isSpanPath (graceSpan.slot 0).msg.path = true ∧
    ladFail.ladders = [ladder0 0x010] ∧ (ladder0 0x010).runs = true ∧ ladFail.ust (ladFail.sourceUnit P.farPath) = U.FAILED ∧
    P.farPath ≠ P.root ∧ (ladder0 0x010).acts.length ≤ (ladder0 0x010).step ∧ (ladder0 0x010).direct = false ∧
    failSlice.slices.find? (fun y => y.path == meP) = some { path := meP, since := 0, run := 1 } ∧ 0 < 0 + failSlice.sliceBudget ∧
    failSlice.canRepair { path := meP, since := 0, run := 1 } false = false ∧ kindOf meP ≠ some .kyPort ∧ meP ≠ P.bist ∧ meP ≠ P.root ∧
    failSlice.inService P.bist = true := by decide +kernel

def noImage : BootFacts := { sigA := false, sigB := false }
def noBase : BootFacts := { fails := [(1, 8)] }
theorem witness_Boots :
    booted.unbooted = false ∧ d0.unbooted = true ∧ ({} : BootFacts).sigA = true ∧ ({} : BootFacts).fails = [] ∧
    ({} : BootFacts).badUnits = [] ∧ d0.bt.clearPend = false ∧ d0.bt.journal = [] ∧ d0.bt.levels = [] ∧ d0.flash = [] ∧ d0.lastSlices = [] ∧
    d0.flag P.boot F.BT_CTL.NEXT_IMAGE = false ∧ 0 < d0.rd P.boot F.BT_MAX_ATTEMPTS.COUNT ∧
    bitAt (d0.rd P.boot F.BT_KEY_STAT.PROGRAMMED) 0 = true ∧ bitAt (d0.rd P.boot F.BT_KEY_STAT.REVOKED) 0 = false ∧
    d0.rd P.boot F.BT_SVN.FUSE_SVN = 0 ∧ noImage.sigA = false ∧ noImage.sigB = false ∧
    ((d0.stepRom noBase).stepImage noBase).2 = true ∧ 8 ≤ bootFails noBase 1 ∧ d0.inService P.boot = true := by decide +kernel

def oneRecord : Dev := { d0 with bt.journal := [⟨1, 2, 3, 4, 0, 0, 5⟩] }
def recovering : Dev := { d0 with bt.recoveryHold := true }
def bootedB : Dev := (booted.wr P.boot F.BT_STAT.IMAGE 1)
theorem witness_FirmwareAndBootRegisters :
    bitAt (d0.rd P.boot F.BT_KEY_STAT.PROGRAMMED) 0 = true ∧ bitAt (d0.rd P.boot F.BT_KEY_STAT.PROGRAMMED) 3 = false ∧
    oneRecord.bt.journal[oneRecord.rd P.boot F.BT_JRNL_SEL.RECORD]? = some ⟨1, 2, 3, 4, 0, 0, 5⟩ ∧
    recovering.bt.recoveryHold = true ∧ recovering.booted = false ∧ 2 ^ 24 - 1 + [0xA5].length ≤ 2 ^ 24 ∧
    booted.booted = true ∧ booted.flag P.boot F.BT_STAT.IMAGE ≠ !booted.flag P.boot F.BT_CTL.NEXT_IMAGE ∧
    bootedB.booted = true ∧ bootedB.flag P.boot F.BT_STAT.IMAGE = !bootedB.flag P.boot F.BT_CTL.NEXT_IMAGE ∧
    ({ d0 with updated := some 1 } : Dev).updated = some 1 ∧ d0.updated = none := by decide +kernel

def hdmDev : Dev := { (nearOne.wr P.hostIf F.HI_LINK_STAT.UP0 1) with hdmSize := 2 ^ 30 }
def hdmDb : Dev := hdmDev.wr P.hostIf F.HI_HDM_CTL.DB_EN 1
def hdmFull : Dev := { hdmDb with snoop := (List.range 16).map (fun i => { line := (i + 1) * 16384, excl := false }) }
def hdmBad : Dev := hdmDev.setPoison 0 true
def asked (inv : Bool) : Dev := { d0 with snoop := [{ line := 5, excl := true, asked := true, inv := inv }] }
theorem witness_HdmAccesses :
    d0.hdmLine 0 = none ∧ hdmDev.hdmLine (2 ^ 30) = none ∧ hdmDev.hdmLine (2 ^ 30 - 1) = some (2 ^ 24 - 1) ∧ hdmDev.hdmLine 0 = some 0 ∧
    hdmDev.stackBusy 0 = false ∧ (hdmDev.sfEnter 0 true).1 = true ∧
    (match ((hdmDev.sfEnter 0 true).2.nearRead 0 0 0 64 0).1 with | .bytes _ => true | .fail _ => false) = true ∧ (hdmDb.sfEnter 0 true).1 = true ∧
    hdmDb.flag P.hostIf F.HI_HDM_CTL.DB_EN = true ∧ (hdmBad.sfEnter 0 false).1 = true ∧
    (match ((hdmBad.sfEnter 0 false).2.nearRead 0 0 0 64 0).1 with | .bytes _ => false | .fail _ => true) = true ∧
    hdmFull.hdmLine 0 = some 0 ∧ hdmFull.snoop.find? (fun y => y.line == 0) = none ∧ 16 ≤ (hdmFull.sfSet 0).length ∧
    (hdmFull.sfSet 0).head? = some { line := 16384, excl := false } ∧
    hdmDev.cachedIn (63 / 512) = none ∧ hdmDev.nearPlace 63 = some (0, 63) ∧ hdmDev.poisoned 63 = false ∧ 63 % 64 + [0xA5].length ≤ 64 ∧
    (∀ inv, (asked inv).snoop.find? (fun y => y.line == 5 && y.asked) = some { line := 5, excl := true, asked := true, inv := inv }) := by decide +kernel

def linkOne : Dev := (d0.wr P.hostIf F.HI_LINK_STAT.UP1 1).wr P.hostIf F.HI_LINK_STAT.IDE_CM 1
theorem witness_LinksAndResets :
    d0.power = .up ∧ linkOne.cxlUp 1 = true ∧ linkOne.reqs = [] ∧ linkOne.flag P.hostIf F.HI_ERR_LAST.VALID = false ∧ d0.cxlUp 0 = false ∧
    booted.booted = true ∧ linkOne.flag P.hostIf F.HI_LINK_STAT.IDE_CM = true := by decide +kernel

def spdmDev (n : Nat) : Dev := { booted with mg.spdm := Tbl.set (fun _ => {}) [] 1 { agreed := n } }
theorem witness_AttestationAndTelemetry :
    d0.viaUp (.address d0.mgmtAddress) = false ∧ ((spdmDev 0).viaUp (.address (spdmDev 0).mgmtAddress) = true) ∧
    (MgmtVia.address 0x40).transport = 1 ∧ (spdmDev 0).viaUp (.address ((spdmDev 0).mgmtAddress + 1)) = false ∧
    ((spdmDev 1).spdmAt 1).agreed = 1 ∧ ((spdmDev 2).spdmAt 1).agreed = 2 ∧ spdmKnown 0xE6 = false ∧ spdmKnown 0x82 = true ∧
    ((spdmDev 2).spdmAt 1).agreed < 3 ∧ (0xE4 : Nat) ≠ 0x84 ∧ (0xE4 : Nat) ≠ 0xE1 ∧ (0xE4 : Nat) ≠ 0xE3 ∧
    3 ≤ ((spdmDev 3).spdmAt 1).agreed ∧ (6 : Nat) ≤ 7 ∧ (spdmDev 3).plan = none ∧ (spdmDev 3).viaUp (.address (spdmDev 3).mgmtAddress) = true ∧
    ({ spdmDev 0 with mg.mctp := [7] } : Dev).mg.mctp = [7] ∧ ({ spdmDev 0 with mg.mctp := [7] } : Dev).viaUp (.address (spdmDev 0).mgmtAddress) = true ∧
    d0.mg.mctp = [] ∧ booted.booted = true ∧ d0.booted = false := by decide +kernel

def off (st : PowerSt) : Dev := { d0 with power := st }
def droopDev : Dev := { d0 with droopAt := Tbl.set noNat [] 7 1 }
def gov (c fix : Nat) : Dev :=
  ((((d0.wr P.power F.PW_GOV_STAT.DIV c).wr P.power F.PW_GOV_CTL.DIV_MAX 3).wr P.power F.PW_GOV_CTL.DIV_MIN 0).wr P.power
    F.PW_CAP.WATTS 1000).wr P.power F.PW_GOV_CTL.FIX fix
def govQuiet : Dev := { gov 1 0 with gov := { quiet := 7 } }
def fallback : Dev := d0.wr P.clocks F.CK_STAT.FALLBACK 1
def hot : Dev := { d0 with gov := { above := some 0, warned := true } }
theorem witness_ClocksPowerAndHeat :
    d0.flag P.clocks F.CK_STAT.FALLBACK = false ∧ fallback.flag P.clocks F.CK_STAT.FALLBACK = true ∧ onCclk (.fadd 0 0 1) = true ∧
    d0.power = .up ∧ (off .off).power ≠ .up ∧ d0.reqs = [] ∧
    (kyPort 23 Link.UP {}).link 23 = Link.UP ∧ d0.link 23 ≠ Link.UP ∧ (off .off).power = .off ∧ (off .rising).power = .rising ∧
    d0.power ≠ .rising ∧ (off .tripped).power ≠ .off ∧ Tbl.get noNat d0.droopAt 7 = 0 ∧ d0.held (P.span 7) < 8 ∧
    Tbl.get noNat droopDev.droopAt 7 ≠ 0 ∧ 9000 + 1 < Tbl.get noNat droopDev.droopAt 7 + 10000 ∧
    (∀ c, c < 4 → (gov c 0).rd P.power F.PW_GOV_STAT.DIV = c ∧ (gov c 0).rd P.power F.PW_GOV_CTL.DIV_MAX = 3 ∧
      (gov c 0).rd P.power F.PW_GOV_CTL.DIV_MIN = 0 ∧ (gov c 0).rd P.power F.PW_CAP.WATTS = 1000 ∧ (gov c 0).power = .up ∧
      (gov c 0).gov.ramp = none ∧ (gov c 0).flag P.power F.PW_GOV_STAT.THERMAL = false ∧ (gov c 0).rd P.power F.PW_GOV_CTL.FIX = 0) ∧
    500 * govFactor 1 * 16 < 1000 * 15 * 100 ∧ (gov 1 0).gov.quiet < 7 ∧ 7 ≤ govQuiet.gov.quiet ∧ govQuiet.gov.ramp = none ∧
    (gov 1 3).rd P.power F.PW_GOV_CTL.FIX = 2 + 1 ∧ ({ d0 with gov := { ramp := some 2 } } : Dev).gov.ramp = some 2 ∧
    (∀ x ∈ d0.readings [104], x.2 < d0.tripOf x.1) ∧ d0.minMargin (d0.readings [104]) = some (1, 0) ∧ 1 < d0.gov.warn ∧
    d0.gov.warned = false ∧ d0.sensorThere 0 = true ∧ (∃ x ∈ d0.readings [105], d0.tripOf x.1 ≤ x.2) ∧
    d0.minMargin (d0.readings [95]) = some (10, 0) ∧ d0.gov.warn ≤ 10 ∧
    hot.gov.above = some 0 ∧ hot.gov.warned = true := by decide +kernel

/-- A viaduct group of devices 0, 5 and 6, with this device at a rank. -/
def vgDev (rank : Nat) : Dev :=
  (((upHost d0).wr P.kyino F.KY_VG_CTL.JOIN 1).wri P.countingHouse 0 F.CH_GRP_CFG.VALID 1).wri P.countingHouse 0 F.CH_GRP_CFG.MEMBERS 3
    |>.wri P.countingHouse 0 F.CH_GRP_CFG.RANK rank |>.putHost 4 [5, 0, 0, 0, 6]
def quarDev : Dev := d0.setRt 5 (2 ^ 28)
theorem witness_Viaduct :
    (vgDev 0).hostUp = true ∧ (vgDev 0).vgMember = true ∧ (vgDev 0).vgRank = 0 ∧ (vgDev 1).hostUp = true ∧ (vgDev 1).vgMember = true ∧
    0 < (vgDev 1).vgRank ∧ (upHost d0).hostUp = true ∧ (upHost d0).vgMember = false ∧ accessOk 0x38 8 = true ∧ d0.hostUp = false ∧
    ((vgDev 0).vgTake Op.VGW 5).vgRank = 0 ∧ ((vgDev 0).vgTake Op.VGW 5).vgMember = true ∧
    ((vgDev 0).vgTake Op.VGW 5).vgList.contains 5 = true ∧ ((vgDev 0).vgTake Op.VGW 5).quarantined 5 = false ∧
    0 < ((vgDev 1).vgTake Op.VGW 0).vgRank ∧ ((vgDev 1).vgTake Op.VGW 0).fromParent 0 = true ∧
    (quarDev.vgTake Op.VGW 5).vgMember = false ∧ (quarDev.vgTake Op.VGW 5).quarantined 5 = true ∧
    ((vgDev 0).vgTake Op.VGC 6).vgMember = true ∧ ((vgDev 0).vgTake Op.VGC 6).quarantined 6 = false ∧
    (vgChildren ((vgDev 0).vgTake Op.VGC 6).vgCount ((vgDev 0).vgTake Op.VGC 6).vgRank).find? (fun c =>
      ((vgDev 0).vgTake Op.VGC 6).vgList[c]? == some 6) = some 2 ∧
    ((vgDev 1).vgTake Op.VGA 0).fromParent 0 = true ∧
    (vgDev 0).vgAt + (vgDev 0).rd P.kyino F.KY_VG_CTL.PERIOD_US * 1000 ≤ tenMs * 1000 ∧ d0.vgMember = false := by decide +kernel

def mgmtDev : Dev := booted
def offInNoService : Dev := { upHost d0 with noService := true }
def failedTile : Dev := offInNoService.wr meP F.UNIT_STAT.STATE U.FAILED
theorem witness_RegisterPages :
    (upHost d0).srcUp .host meP false = true ∧ (upHost d0).srcUp .host meP true = true ∧ meP ≠ P.group ∧ kindOf meP = some .me ∧
    kindOf 0x0800 = none ∧ (upHost d0).srcUp .host 0x0800 false = true ∧ accessOk 0x40 8 = true ∧ widthFits .host 4 = true ∧
    d0.srcUp .host meP false = false ∧ d0.srcUp .host meP true = false ∧ (upHost d0).heldInReset meP = false ∧
    failedTile.heldInReset meP = true ∧ failedTile.srcUp .host meP true = true ∧ accessOk 0x41 8 = false ∧ accessOk 0 2 = false ∧
    booted.viaUp .dynamic = false ∧ booted.viaUp (.address booted.mgmtAddress) = true ∧ MgmtVia.address 0 ≠ .doe ∧ mgmtWrites meP = false ∧
    mgmtWrites P.boot = true ∧ (kindOf P.boot).isSome = true ∧ booted.heldInReset P.boot = false ∧ accessOk 0x38 8 = true := by decide +kernel

/-- A tile that was OFF for one cycle of a drain with PEND_EN, and a roll that has entries left. -/
def restarting : Dev := { (parentsOn.wr spP F.UNIT_CTL.ENABLE 1) with cyc.restartNext := [spP], roll := some (0, 100) }
theorem witness_StepRunsCommand :
    State.reset.pending = [] ∧ restarting.cyc.restartNext = [spP] ∧ restarting.ust spP = U.OFF ∧ restarting.flag spP F.UNIT_CTL.ENABLE = true ∧
    restarting.parentOn spP = true ∧ restarting.heldOff spP = false ∧ restarting.fills = [] ∧ restarting.clocked = true ∧
    restarting.roll = some (0, 100) ∧ fallback.clocked = false ∧ meP ∉ fallback.cyc.restartNext ∧ meP ≠ P.root := by decide +kernel
/-- A command that the statements about every command speak of, and its next state. -/
theorem witness_CommandsComplete : ∃ t, exec .clearLevels State.reset = .next t ∧ (∀ p src t4, Instr.clearLevels ≠ .tdrsp p src t4) :=
  ⟨_, rfl, by intro p src t4 h; cases h⟩
theorem witness_TimeNeverDecreases : ∃ t, step State.reset = .next t := ⟨_, rfl⟩
theorem witness_MemoriesStayCanonical : Memory.wf State.reset.d = true ∧ ∃ t, step State.reset = .next t := ⟨by decide +kernel, _, rfl⟩
theorem witness_Boots_levels : ∀ r, d0.level r = 0 := fun _ => rfl
theorem witness_Boots_units : ∀ p, d0.ust p = U.OFF := by
  intro p
  have hp : keyPath (fldKey p 0 F.UNIT_STAT.STATE) = p := by simp only [keyPath, fldKey, F.UNIT_STAT.STATE]; omega
  have ho : keyOff (fldKey p 0 F.UNIT_STAT.STATE) = F.UNIT_STAT.STATE.off := by simp only [keyOff, fldKey, F.UNIT_STAT.STATE]; omega
  have hl : keyLo (fldKey p 0 F.UNIT_STAT.STATE) = F.UNIT_STAT.STATE.lo := by simp only [keyLo, fldKey, F.UNIT_STAT.STATE]; omega
  show resetKey (fldKey p 0 F.UNIT_STAT.STATE) = 0
  unfold resetKey
  rw [hp, ho, hl, if_neg (by rintro ⟨_, h⟩; revert h; decide), if_neg (by rintro ⟨_, h, _⟩; revert h; decide),
    if_neg (by rintro ⟨_, h, _⟩; revert h; decide)]
  unfold rowsOf
  split
  · rfl
  · rfl

/-! ### Ill-formed commands, one for each check -/

def illFormed : List Instr :=
  [.registerWrite (.clerk meP) 0 0 8 0, .registerWrite .host 65536 0 8 0, .registerRead .host 0 0 0, .registerRead .host 0 4090 8,
   .unitEnable 0x0800, .sliceStart 0x0001, .groupPageWrite 4096 0, .vgw 0 12288 0, .vgc 0 [], .vga 0 [0], .doorbell 33 0,
   .docketFetch 0 (.failed 0) 0, .docketFetch 0 (.failed 16) 0, .amaxRoll 4096 0, .amaxRoll 0 4096, .meGo gcP, .mma sfP 0, .endp spP,
   .sfop meP, .hostSub 8 0 0, .hostSub 0 4 0, .hostSub 0 0 4, .scFlush 8, .grainStart meP 0, .descriptorWrite meP .ok,
   .descriptorWrite ioP (.failed 0), .loadPlan (.failed 0), .rowWrite meP, .apertureRead (2 ^ 31) 1 0, .apertureWrite (2 ^ 31 - 1) 2 0 0,
   .windowWriteCounted 1024 .ok, .windowWriteCounted 0 (.failed 0), .fillBegin 1024, .tzDone meP, .nmRetire 32, .nearRead meP 0 0 0 0 0,
   .nearRead meP 0 513 0 0 0, .nearRead 0x0800 0 1 0 0 0, .nearWrite meP 0 [] 0 0, .expanderProbe 16 true, .trainingDone 24,
   .frameReceive 24 0 0 {}, .frameReceive 0 0 0 { vc := 4 }, .put { payload := List.replicate 4097 0 }, .hdmWrite 0 [] false,
   .hdmWrite 63 [0, 0] false, .cxlLinkDown 2, .mctpRegisterAccess true 65536 0 0 .vdm 0, .mctpRegisterAccess true 0 4096 0 .vdm 0]
theorem test_ill_formed : illFormed.all (fun c => !wellFormed c) = true := by decide +kernel
theorem test_well_formed : [Instr.registerWrite (.clerk gcP) 65535 4088 8 0, .amaxRoll 0 4095, .mma sprP 0, .hostSub 7 3 3, .fillBegin 1023,
    .nearRead P.snapshot 0 512 0 0 0, .hdmWrite 63 [0] false, .put { payload := List.replicate 4096 0 }].all wellFormed = true := by
  decide +kernel

/-! ### Values worked by hand from the spec's own examples -/


/-- 02 and 04: tile 5 of bay 1 in span 3, ring 2 of span 5, engine 1 of bay 2 in span 5 and the spare of span 3; 05: ME 1 of bay 1. -/
theorem test_paths : P.sp 3 1 5 = 0x32A8 ∧ P.ring 22 = 0x8B26 ∧ P.ring 32 = 0x8B30 ∧ P.me 5 2 1 = 0x5408 ∧ P.spare 3 = 0x3E00 ∧
    posOf (P.me 0 1 1) = 0x018 := by decide +kernel

/-- 03, the worked MX cases: 0xF0 with 0xF0 and 32 products of 448 squared, and 0x01 with 0x01 and one product of 1. -/
theorem test_mx_edges :
    (toFp32 true (((e8m0 0xF0).mul (e8m0 0xF0)).mul (.ofInt 6422528))).code = 0x7F7FFFFF ∧
    (toFp32 false (((e8m0 0xF0).mul (e8m0 0xF0)).mul (.ofInt 6422528))).code = 0x7F800000 ∧
    (toFp32 true ((e8m0 1).mul (e8m0 1))).code = 0 := by decide +kernel

/-- 03: the scale of an E2M1 block whose largest magnitude is 7.9, and 7.9 and 0.3 in it. -/
theorem test_mx_pack : mxScaleCode 11 [.fin false 79 10, .fin false 3 10] = 0x7F ∧
    (fmtE2M1.conv true 0 0 (.fin false 79 10)).code = 7 ∧ (fmtE2M1.conv true 0 0 (.fin false 3 10)).code = 1 := by decide +kernel

/-- 03: 3.4 stored with SCALE 128 is 435.2, whose nearest E4M3 value is 448 (0x7E). -/
theorem test_e4m3 : (fmtE4M3.conv true 0 0 ((fp32 0x43000000).mul (.fin false 34 10))).code = 0x7E := by decide +kernel

/-- 04, the worked split: ((2^24 + 1) + 1) - 2^24 in FP32 additions is 0. -/
def add32 (x y : Machine.Num) : Machine.Num := fp32 (toFp32 true (x.add y)).code
theorem test_fp32_ties : (add32 (add32 (add32 (.ofInt (2 ^ 24)) (.ofInt 1)) (.ofInt 1)) (.ofInt (-(2 ^ 24)))).isZero = true := by
  decide +kernel

/-- 06, window 17: 65,000 and 1,536 writes meet a guard of 1,000, and one write less does not. -/
theorem test_guard : guardMet ((65000 + 1536) % 2 ^ 16) 1000 = true ∧ guardMet ((65000 + 1535) % 2 ^ 16) 1000 = false := by decide +kernel

/-- 06, the worked counter: LIMIT 10; FADD of 4 grants 0 to 3, then from 8 two, and then none. -/
theorem test_fadd : (after_ 0 (.fadd 0 3 4) (lg 0 10)).lgValue 0 3 = 4 ∧ (after_ 0 (.fadd 0 3 4) (lg 8 10)).lgValue 0 3 = 10 ∧
    (after_ 0 (.fadd 0 3 4) (lg 10 10)).lgValue 0 3 = 10 := by decide +kernel

/-- 08, the worked address: 32 stacks, G = 4 KiB: stack 7, byte 2,443,360,400 of it. -/
def allStacks : Dev := (List.range 32).foldl (fun d k => d.wr (P.nmChannel k) F.NM_CH_STAT.PRESENT 1) d0
theorem test_near_place : allStacks.nearPlace0 0x1234567890 = some (7, 2443360400) := by decide +kernel

/-- 08, the same address in its stack's DRAM: die 7, bank 0, row 4,971, column 1,040. -/
theorem test_dram_place : dramPlace 2443360400 = ⟨7, 0, 4971, 1040⟩ := by decide +kernel

/-- 08, R598: x^15 times x is x^12 + x^3 + x + 1, and every codeword has the four roots of g(x). -/
def codeword : List Nat :=
  let data : List Byte := (List.range 128).map (fun i => BitVec.ofNat 8 (7 * i + 1))
  (List.range 64).map (fun i => fieldAt data (2 * (63 - i)) 2) ++ (rsCheck data).reverse
theorem test_reed_solomon : gfMul 0x8000 2 = 0x100B ∧ gfMul 1 0x1234 = 0x1234 ∧
    ([1, 2, 4, 8].all (fun r => codeword.foldl (fun acc c => Nat.xor (gfMul acc r) c) 0 == 0)) = true := by decide +kernel

/-- 12, the worked windows: margins of 12 and 14 degrees, FEED_TERM, DECAY 3, the estimate 6,000 before the first. -/
def pairDev : Dev := d0.wr P.snapshot F.SN_STAT.SAME_FEED 1
theorem test_window_sums : pairDev.windowSum [40, 1, 3, 0, 0, 0] (some 12) = 8576 ∧ pairDev.windowSum [0, 0, 0, 0, 1, 0] (some 12) = 22528 ∧
    pairDev.windowSum [0, 0, 0, 0, 0, 0] (some 14) = 5120 := by decide +kernel
def winDev : Dev := { ((d0.wr P.assayer F.AS_RISK.RISK 22528).wr P.assayer F.AS_CTL.DECAY 3) with assay := { margin := some 20 } }
theorem test_risk_held : (after_ (2 ^ 50) .assayerEval winDev).rd P.assayer F.AS_RISK.RISK = 19712 := by decide +kernel

/-- 14, the worked cap of 1,400 W: dividers 4, 5 and 6 are codes 0, 1 and 2. -/
theorem test_governor : (govern ⟨2020, 0, 1400, 0, 3, 0, false, 0, 0⟩).want = 1 ∧ (govern ⟨1555, 1, 1400, 0, 3, 0, false, 0, 0⟩).want = 2 ∧
    (govern ⟨1314, 2, 1400, 0, 3, 0, false, 0, 0⟩).want = 2 := by decide +kernel

/-- ADDI x1, x0, 5 on a clerk leaves 5 in x1 and moves its pc on by 4 bytes. -/
theorem test_clerk_addi : ((after_ 0 (.clerkInstruction gcP) (gcRun 0x00500093 {})).clerk gcP).rx 1 = 5 ∧
    ((after_ 0 (.clerkInstruction gcP) (gcRun 0x00500093 {})).clerk gcP).pc = 4 := by decide +kernel

end Sys2Proof.Tests
end

/-! # 02: doorbells, docket fetches and RESTART -/

namespace Sys2Proof.Machine

/-! ### Commands -/

theorem yields_upd {c : Instr} {s : State} {f : Dev → Dev} {Q : State → Prop} (hc : exec c s = upd s f)
    (h : Q { s with d := f s.d }) : Yields c s Q := ⟨_, hc, h⟩

/-- A command of a unit that CCLK or BCLK drives has its effect while they run. -/
theorem yields_work {c : Instr} {s : State} {f : Dev → Dev} {Q : State → Prop} (hc : exec c s = work s f)
    (hclk : s.d.clocked = true) (h : Q { s with d := f s.d }) : Yields c s Q :=
  yields_upd hc (by simpa only [hclk, if_true] using h)

/-! ### Bits that hardware raises, and flags -/

@[simp] theorem Dev.raiseBit_rings (d : Dev) (p b : Nat) (f : Fld) : (d.raiseBit p f b).rings = d.rings := rfl
@[simp] theorem Dev.raiseBit_ring (d : Dev) (p b k : Nat) (f : Fld) : (d.raiseBit p f b).ring k = d.ring k := rfl
@[simp] theorem Dev.raiseBit_rdi (d : Dev) (p b q j : Nat) (f g : Fld) :
    (d.raiseBit p f b).rdi q j g = (d.wri p 0 f (Nat.lor (d.rdi p 0 f) (2 ^ b))).rdi q j g := rfl

theorem OtherPages.raiseBit {a d : Dev} {p : Nat} (h : OtherPages a d p) (b : Nat) (f : Fld)
    (hf : f.off * 64 + f.lo < 2 ^ 18) : OtherPages a (d.raiseBit p f b) p :=
  (h.wri 0 (Nat.lor (d.rd p f) (2 ^ b)) f (by decide) hf).of_regs rfl

/-- A field of one bit that hardware has raised reads 1. -/
theorem Dev.flag_raiseBit_same (d : Dev) (p : Nat) {f : Fld} (hw : f.w = 1) : (d.raiseBit p f 0).flag p f = true := by
  simp [Dev.flag, hw]

@[simp] theorem Dev.flag_wri_same (d : Dev) (p v : Nat) {f : Fld} (hw : f.w = 1) :
    (d.wri p 0 f v).flag p f = (v % 2 == 1) := by
  simp [Dev.flag, hw]

theorem Dev.flag_wri_field (d : Dev) (p v : Nat) (f g : Fld) (h : g.off * 64 + g.lo ≠ f.off * 64 + f.lo) :
    (d.wri p 0 f v).flag p g = d.flag p g := by
  simp only [Dev.flag, Dev.rd_eq_rdi, Dev.rdi_wri_field d p v f g h]

/-! ### Frames

What an update leaves unchanged of the whole device. They are stated for any place, field and value, so that a proof about a
register of the table takes them as they stand and no key of it is evaluated. -/

theorem Dev.wri_frame (d : Dev) (p i v : Nat) (f : Fld) : { d.wri p i f v with regs := d.regs } = d := rfl

theorem Dev.putRing_belled_frame (d : Dev) (k : Nat) (r : Ring) (belled : Tbl Nat) :
    { ({ d with cyc.belled := belled } : Dev).putRing k r with rings := d.rings, cyc := d.cyc } = d := rfl

theorem Dev.takeDocket_wri_frame (d : Dev) (k : Nat) (x : Docket) (p i v : Nat) (f : Fld) :
    { (d.takeDocket k x).wri p i f v with rings := d.rings, regs := d.regs } = d := rfl

theorem Dev.takeDocket_raiseBit_wri_frame (d : Dev) (k : Nat) (x : Docket) (p b q i v : Nat) (f g : Fld) :
    { ((d.takeDocket k x).raiseBit p f b).wri q i g v with rings := d.rings, regs := d.regs, cyc := d.cyc } = d := rfl

/-! ### STATE_CMD -/

@[simp] theorem Dev.stateCmd_rings (d : Dev) (t p : Nat) : (d.stateCmd t p).rings = d.rings := by
  unfold Dev.stateCmd Dev.setErr Dev.setErrBit
  split <;> simp

/-- The setting of STATE_CMD writes that bit and, when its message is dropped, the count of those: of fields at other
places it writes none. -/
theorem Dev.rdi_stateCmd (d : Dev) (t p q j : Nat) (g : Fld)
    (hdrop : (g.off * 64 + g.lo) % 2 ^ 18 ≠ (F.FC_DROP_CNT.COUNT.off * 64 + F.FC_DROP_CNT.COUNT.lo) % 2 ^ 18) :
    (d.stateCmd t p).rdi q j g = (d.raiseBit p F.UNIT_ERR.STATE_CMD 0).rdi q j g := by
  unfold Dev.stateCmd Dev.setErr
  split
  · exact Dev.rdi_send_offset _ _ _ _ _ _ _ _ _ _ hdrop
  · rfl

theorem Dev.flag_stateCmd_same (d : Dev) (t p : Nat) : (d.stateCmd t p).flag p F.UNIT_ERR.STATE_CMD = true := by
  rw [Dev.flag, Dev.rd_eq_rdi, Dev.rdi_stateCmd _ _ _ _ _ _ (by decide)]
  exact Dev.flag_raiseBit_same d p rfl

theorem Dev.flag_stateCmd_other (d : Dev) (t p : Nat) (g : Fld)
    (hdrop : (g.off * 64 + g.lo) % 2 ^ 18 ≠ (F.FC_DROP_CNT.COUNT.off * 64 + F.FC_DROP_CNT.COUNT.lo) % 2 ^ 18)
    (hcmd : g.off * 64 + g.lo ≠ F.UNIT_ERR.STATE_CMD.off * 64 + F.UNIT_ERR.STATE_CMD.lo) :
    (d.stateCmd t p).flag p g = d.flag p g := by
  simp only [Dev.flag, Dev.rd_eq_rdi, Dev.rdi_stateCmd _ _ _ _ _ _ hdrop, Dev.raiseBit_rdi, Dev.rdi_wri_field _ _ _ _ _ hcmd]

/-! ### Doorbells (R105 to R107) -/

theorem ringOk_of_lt {k : Nat} (hk : k < 33) : ringOk k = true := decide_eq_true (by omega)

/-- How far a doorbell value lies after the last accepted one, in arithmetic modulo 2^32 (R105). -/
def bellStep (tailN tail : Nat) : Nat := (tail + 2 ^ 32 - tailN % 2 ^ 32) % 2 ^ 32

/-- The new count of announced dockets shows as the value written. -/
theorem add_bellStep_mod (tailN : Nat) {tail : Nat} (h : tail < 2 ^ 32) : (tailN + bellStep tailN tail) % 2 ^ 32 = tail := by
  unfold bellStep; omega

section Doorbell

variable (d : Dev) (t : Nat) {k tail : Nat} (hk : k < 33) (hon : d.on (P.ring k) = true)
include hk hon

/-- The last accepted value again announces nothing. -/
theorem Dev.doorbell_repeated (h : bellStep (d.ring k).tailN tail = 0) : d.doorbell t k tail = d := by
  unfold bellStep at h
  simp only [Dev.doorbell, ringOk_of_lt hk, hon, h, if_pos (Nat.zero_le _)]
  rfl

theorem Dev.doorbell_announces (h0 : bellStep (d.ring k).tailN tail ≠ 0)
    (h : bellStep (d.ring k).tailN tail ≤ (d.ring k).headN + d.ringSize k - (d.ring k).tailN) :
    ∃ belled, d.doorbell t k tail = ({ d with cyc.belled := belled } : Dev).putRing k
      { d.ring k with
        tailN := (d.ring k).tailN + bellStep (d.ring k).tailN tail
        anns := (d.ring k).anns ++ [((d.ring k).tailN + bellStep (d.ring k).tailN tail, d.tails)] } := by
  refine ⟨if Tbl.get noNat d.cyc.belled k = 0 then Tbl.set noNat d.cyc.belled k ((d.ring k).tailN + 1) else d.cyc.belled, ?_⟩
  unfold bellStep at h0 h ⊢
  simp only [Dev.doorbell, ringOk_of_lt hk, hon, if_pos h, if_neg h0]
  rfl

theorem Dev.doorbell_refused
    (h : (d.ring k).headN + d.ringSize k - (d.ring k).tailN < bellStep (d.ring k).tailN tail) :
    d.doorbell t k tail = d.raiseBit (P.ring k) F.DK_RING_STAT.DB_ERR 0 := by
  unfold bellStep at h
  simp only [Dev.doorbell, ringOk_of_lt hk, hon, if_neg (Nat.not_le.mpr h)]
  rfl

end Doorbell

/-! ### Docket fetch (R109, R117, R118) -/

theorem natOfBytes_eq_foldr (bs : List Byte) : natOfBytes bs = bs.foldr (fun b acc => b.toNat + 256 * acc) 0 := by
  induction bs with
  | nil => rfl
  | cons b bs ih => rw [natOfBytes, ih, List.foldr_cons]

/-- The SEQ of a docket that was read is the number in its first four bytes. -/
theorem Docket.seq_of_read (x : Docket) (h : x.seqOf = none) : x.seq = natOfBytes (x.bytes.take 4) := by
  rw [natOfBytes_eq_foldr, Docket.seq, h]
  rfl

/-- A control read that answers bytes leaves the device as it was. -/
theorem Dev.controlRead_ok (d : Dev) {loc : Bool} {a n : Nat} {res : ReqOutcome} {bs : List Byte}
    (h : (d.controlRead loc a n res).1 = .ok bs) : (d.controlRead loc a n res).2 = d := by
  unfold Dev.controlRead at h ⊢
  dsimp only at h ⊢
  split at h
  · cases h
  · rename_i hup
    rw [if_neg hup]
    split at h
    · cases h
    · split at h
      · cases h
      · rename_i hc
        rw [if_neg hc]
    · rfl

/-- A fetch whose read comes back well, into an error-free word of the ring's memory, is that of the bytes read. -/
theorem Dev.docketFetch_ok (d : Dev) (t : Nat) {k : Nat} {bs : List Byte} (hmay : d.mayFetch k = true)
    (hfull : d.cplFull k = false) (hserv : d.noService = false)
    (hread : (d.controlRead (d.ringSlot k (d.ring k).headN).1 (d.ringSlot k (d.ring k).headN).2 64 .ok).1 = .ok bs) :
    d.docketFetch t k .ok 0 = d.fetched k bs := by
  simp [Dev.docketFetch, hmay, hfull, hserv, hread, Dev.controlRead_ok d hread, Dev.secded]

@[simp] theorem Dev.takeDocket_regs (d : Dev) (k : Nat) (x : Docket) : (d.takeDocket k x).regs = d.regs := rfl
theorem Dev.ring_takeDocket (d : Dev) (k : Nat) (x : Docket) : (d.takeDocket k x).ring k =
    { d.ring k with
      headN := (d.ring k).headN + 1, q := (d.ring k).q ++ [x]
      anns := (d.ring k).anns.filter (fun a => decide ((d.ring k).headN + 1 < a.1)) } :=
  Dev.ring_putRing _ _ _

/-- The docket of the bytes that a fetch of ring `k` has read. -/
def Dev.readDocket (d : Dev) (k : Nat) (bs : List Byte) : Docket :=
  { n := (d.ring k).headN, bytes := bs, snap := snapFor (d.ring k).anns (d.ring k).headN, stage := .fetched }

theorem Dev.fetched_expected (d : Dev) {k : Nat} {bs : List Byte}
    (h : natOfBytes (bs.take 4) = d.rd (P.ring k) F.DK_RING_CTL.EXPECT_SEQ) :
    d.fetched k bs = (d.takeDocket k (d.readDocket k bs)).wr (P.ring k) F.DK_RING_CTL.EXPECT_SEQ
      (d.rd (P.ring k) F.DK_RING_CTL.EXPECT_SEQ + 1) :=
  if_pos ((Docket.seq_of_read (d.readDocket k bs) rfl).trans h)

theorem Dev.fetched_unexpected (d : Dev) {k : Nat} {bs : List Byte}
    (h : natOfBytes (bs.take 4) ≠ d.rd (P.ring k) F.DK_RING_CTL.EXPECT_SEQ) :
    d.fetched k bs = ((d.takeDocket k { d.readDocket k bs with
        stage := .ended St.BAD_SEQ (d.rd (P.ring k) F.DK_RING_CTL.EXPECT_SEQ) }).raiseBit
      (P.ring k) F.DK_RING_STAT.SEQ_ERR 0).wr (P.ring k) F.DK_RING_STAT.STOPPED 1 :=
  if_neg (fun hx => h ((Docket.seq_of_read (d.readDocket k bs) rfl).symm.trans hx))

/-! ### RESTART (R119, R120) -/

theorem Dev.ringRestart_stopped (d : Dev) (t : Nat) {k : Nat} (hk : k < 33)
    (h : d.flag (P.ring k) F.DK_RING_STAT.STOPPED = true) :
    d.ringRestart t k = d.wr (P.ring k) F.DK_RING_STAT.STOPPED 0 := by
  simp [Dev.ringRestart, ringOk_of_lt hk, h]

theorem Dev.ringRestart_running (d : Dev) (t : Nat) {k : Nat} (hk : k < 33)
    (h : d.flag (P.ring k) F.DK_RING_STAT.STOPPED = false) : d.ringRestart t k = d.stateCmd t (P.ring k) := by
  simp [Dev.ringRestart, ringOk_of_lt hk, h]

/-! ### The clauses -/

section Clauses

variable (s : State) {k : Nat}

theorem doorbell_within_yields (hk : k < 33) (tail : W32) (hon : s.d.on (P.ring k) = true)
    (h : bellStep (s.d.ring k).tailN tail.toNat ≤ (s.d.ring k).headN + s.d.ringSize k - (s.d.ring k).tailN) :
    Yields (.doorbell k tail) s (fun t =>
      (t.d.ring k).tailN = (s.d.ring k).tailN + bellStep (s.d.ring k).tailN tail.toNat ∧
      (t.d.ring k).tailN % 2 ^ 32 = tail.toNat ∧ (t.d.ring k).q = (s.d.ring k).q ∧
      (∀ j, j ≠ k → t.d.ring j = s.d.ring j) ∧ { t.d with rings := s.d.rings, cyc := s.d.cyc } = s.d) := by
  have hmod := add_bellStep_mod (s.d.ring k).tailN tail.isLt
  apply yields_upd (f := fun d => d.doorbell s.now k tail.toNat) rfl
  by_cases h0 : bellStep (s.d.ring k).tailN tail.toNat = 0
  · simp only [Dev.doorbell_repeated s.d s.now hk hon h0]
    rw [h0] at hmod ⊢
    exact ⟨rfl, hmod, trivial, fun _ _ => trivial, trivial⟩
  · obtain ⟨belled, hd⟩ := Dev.doorbell_announces s.d s.now hk hon h0 h
    simp only [hd, Dev.ring_putRing]
    exact ⟨trivial, hmod, trivial, fun j hj => Dev.ring_putRing_other _ _ hj, Dev.putRing_belled_frame _ _ _ _⟩

theorem doorbell_beyond_yields (hk : k < 33) (tail : W32) (hon : s.d.on (P.ring k) = true)
    (h : (s.d.ring k).headN + s.d.ringSize k - (s.d.ring k).tailN < bellStep (s.d.ring k).tailN tail.toNat) :
    Yields (.doorbell k tail) s (fun t =>
      t.d.rings = s.d.rings ∧ t.d.flag (P.ring k) F.DK_RING_STAT.DB_ERR = true ∧ OtherPages s.d t.d (P.ring k)) := by
  apply yields_upd (f := fun d => d.doorbell s.now k tail.toNat) rfl
  simp only [Dev.doorbell_refused s.d s.now hk hon h]
  exact ⟨rfl, Dev.flag_raiseBit_same _ _ rfl, OtherPages.rfl'.raiseBit 0 _ (by decide)⟩

theorem docketFetch_yields {bs : List Byte} {Q : State → Prop} (hclk : s.d.clocked = true) (hmay : s.d.mayFetch k = true)
    (hfull : s.d.cplFull k = false) (hserv : s.d.noService = false)
    (hread : (s.d.controlRead (s.d.ringSlot k (s.d.ring k).headN).1 (s.d.ringSlot k (s.d.ring k).headN).2 64 .ok).1 = .ok bs)
    (h : Q { s with d := s.d.fetched k bs }) : Yields (.docketFetch k .ok 0) s Q :=
  yields_work (f := fun d => d.docketFetch s.now k .ok 0) rfl hclk
    (by simpa only [Dev.docketFetch_ok s.d s.now hmay hfull hserv hread] using h)

/-- R118: with the expected SEQ the docket joins the queue and EXPECT_SEQ advances. -/
theorem fetched_expected_effect (d : Dev) {bs : List Byte}
    (h : natOfBytes (bs.take 4) = d.rd (P.ring k) F.DK_RING_CTL.EXPECT_SEQ) :
    (∃ x, ((d.fetched k bs).ring k).q = (d.ring k).q ++ [x] ∧ x.bytes = bs ∧ x.n = (d.ring k).headN ∧ x.stage = .fetched) ∧
    ((d.fetched k bs).ring k).headN = (d.ring k).headN + 1 ∧ ((d.fetched k bs).ring k).tailN = (d.ring k).tailN ∧
    (d.fetched k bs).rd (P.ring k) F.DK_RING_CTL.EXPECT_SEQ =
      (d.rd (P.ring k) F.DK_RING_CTL.EXPECT_SEQ + 1) % 2 ^ F.DK_RING_CTL.EXPECT_SEQ.w ∧
    OtherPages d (d.fetched k bs) (P.ring k) ∧ { d.fetched k bs with rings := d.rings, regs := d.regs } = d := by
  rw [Dev.fetched_expected d h]
  have hring := Dev.ring_takeDocket d k (d.readDocket k bs)
  refine ⟨⟨d.readDocket k bs, ?_, rfl, rfl, rfl⟩, ?_, ?_, ?_, ?_, Dev.takeDocket_wri_frame _ _ _ _ _ _ _⟩
  · simp [hring]
  · simp [hring]
  · simp [hring]
  · exact Dev.rdi_wri_same _ _ _ _ _
  · exact (OtherPages.rfl'.of_regs (Dev.takeDocket_regs _ _ _)).wri _ _ _ (by decide) (by decide)

/-- R117: with another SEQ the docket has ended with BAD_SEQ and the ring is stopped. -/
theorem fetched_unexpected_effect (d : Dev) {bs : List Byte}
    (h : natOfBytes (bs.take 4) ≠ d.rd (P.ring k) F.DK_RING_CTL.EXPECT_SEQ) :
    (∃ x, ((d.fetched k bs).ring k).q = (d.ring k).q ++ [x] ∧
      x.stage = .ended St.BAD_SEQ (d.rd (P.ring k) F.DK_RING_CTL.EXPECT_SEQ)) ∧
    (d.fetched k bs).flag (P.ring k) F.DK_RING_STAT.SEQ_ERR = true ∧
    (d.fetched k bs).flag (P.ring k) F.DK_RING_STAT.STOPPED = true ∧
    OtherPages d (d.fetched k bs) (P.ring k) ∧
    { d.fetched k bs with rings := d.rings, regs := d.regs, cyc := d.cyc } = d := by
  rw [Dev.fetched_unexpected d h]
  refine ⟨⟨_, by rw [Dev.wr_eq_wri, Dev.ring_wri, Dev.raiseBit_ring, Dev.ring_takeDocket], rfl⟩, ?_, ?_, ?_,
    Dev.takeDocket_raiseBit_wri_frame _ _ _ _ _ _ _ _ _ _⟩
  · rw [Dev.wr_eq_wri, Dev.flag_wri_field _ _ _ _ _ (by decide)]
    exact Dev.flag_raiseBit_same _ _ rfl
  · exact Dev.flag_wri_same _ _ _ rfl
  · exact ((OtherPages.rfl'.of_regs (Dev.takeDocket_regs _ _ _)).raiseBit 0 _ (by decide)).wri _ _ _ (by decide) (by decide)

theorem restart_stopped_yields (hk : k < 33) (h : s.d.flag (P.ring k) F.DK_RING_STAT.STOPPED = true) :
    Yields (.restart k) s (fun t => t.d.flag (P.ring k) F.DK_RING_STAT.STOPPED = false ∧
      OtherPages s.d t.d (P.ring k) ∧ { t.d with regs := s.d.regs } = s.d) := by
  apply yields_upd (f := fun d => d.ringRestart s.now k) rfl
  simp only [Dev.ringRestart_stopped s.d s.now hk h]
  exact ⟨Dev.flag_wri_same _ _ _ rfl, otherPages_wri _ _ _ _ _ (by decide) (by decide), Dev.wri_frame _ _ _ _ _⟩

theorem restart_running_yields (hk : k < 33) (h : s.d.flag (P.ring k) F.DK_RING_STAT.STOPPED = false) :
    Yields (.restart k) s (fun t => t.d.flag (P.ring k) F.DK_RING_STAT.STOPPED = false ∧
      t.d.flag (P.ring k) F.UNIT_ERR.STATE_CMD = true ∧ t.d.rings = s.d.rings) := by
  apply yields_upd (f := fun d => d.ringRestart s.now k) rfl
  simp only [Dev.ringRestart_running s.d s.now hk h]
  exact ⟨(Dev.flag_stateCmd_other _ _ _ _ (by decide) (by decide)).trans h, Dev.flag_stateCmd_same _ _ _,
    Dev.stateCmd_rings _ _ _⟩

end Clauses

/-- Settles O28, clause by clause: each hypothesis picks one branch of the doorbell, of the fetch or of RESTART. -/
theorem doorbellsAndFetches : Obligations.DoorbellsAndFetches := by
  intro s k hk
  refine ⟨fun tail hon => ⟨doorbell_within_yields s hk tail hon, doorbell_beyond_yields s hk tail hon⟩, ?_,
    restart_stopped_yields s hk, restart_running_yields s hk⟩
  intro bs hclk hmay hfull hserv hread
  exact ⟨fun hseq => docketFetch_yields s hclk hmay hfull hserv hread (fetched_expected_effect s.d hseq),
    fun hseq => docketFetch_yields s hclk hmay hfull hserv hread (fetched_unexpected_effect s.d hseq)⟩

end Sys2Proof.Machine

/-! # 03: the amax/scale table, and a refused write of a program memory -/

namespace Sys2Proof.Machine

/-! ### ILLEGAL_WRITE -/

@[simp] theorem Dev.illegalWrite_amax (d : Dev) (t p : Nat) : (d.illegalWrite t p).amax = d.amax := by
  unfold Dev.illegalWrite Dev.setErr
  split
  · exact Dev.send_amax ..
  · rfl

/-- The setting of ILLEGAL_WRITE writes that bit and, when its message is dropped, the count of those. -/
theorem Dev.rdi_illegalWrite (d : Dev) (t p q j : Nat) (g : Fld)
    (hdrop : (g.off * 64 + g.lo) % 2 ^ 18 ≠ (F.FC_DROP_CNT.COUNT.off * 64 + F.FC_DROP_CNT.COUNT.lo) % 2 ^ 18) :
    (d.illegalWrite t p).rdi q j g = (d.raiseBit p F.UNIT_ERR.ILLEGAL_WRITE 0).rdi q j g := by
  unfold Dev.illegalWrite Dev.setErr
  split
  · exact Dev.rdi_send_offset _ _ _ _ _ _ _ _ _ _ hdrop
  · rfl

theorem Dev.flag_illegalWrite_same (d : Dev) (t p : Nat) :
    (d.illegalWrite t p).flag p F.UNIT_ERR.ILLEGAL_WRITE = true := by
  rw [Dev.flag, Dev.rd_eq_rdi, Dev.rdi_illegalWrite _ _ _ _ _ _ (by decide)]
  exact Dev.flag_raiseBit_same d p rfl

@[simp] theorem Dev.stateCmd_amax (d : Dev) (t p : Nat) : (d.stateCmd t p).amax = d.amax := by
  unfold Dev.stateCmd Dev.setErr
  split
  · exact Dev.send_amax ..
  · rfl

@[simp] theorem Dev.stateCmd_roll (d : Dev) (t p : Nat) : (d.stateCmd t p).roll = d.roll := by
  unfold Dev.stateCmd Dev.setErr
  split
  · exact Dev.send_roll ..
  · rfl

/-! ### Words of the table (R200, R203) -/

theorem Dev.amaxWord_congr {a b : Dev} (h : a.amax = b.amax) (e w : Nat) : a.amaxWord e w = b.amaxWord e w := by
  unfold Dev.amaxWord
  rw [h]

@[simp] theorem Dev.amaxWord_wri (d : Dev) (p i v e w : Nat) (f : Fld) : (d.wri p i f v).amaxWord e w = d.amaxWord e w := rfl

@[simp] theorem Dev.amaxWord_illegalWrite (d : Dev) (t p e w : Nat) : (d.illegalWrite t p).amaxWord e w = d.amaxWord e w :=
  Dev.amaxWord_congr (Dev.illegalWrite_amax d t p) e w

@[simp] theorem Dev.putAmaxWord_regs (d : Dev) (e w v : Nat) : (d.putAmaxWord e w v).regs = d.regs := by
  unfold Dev.putAmaxWord
  split <;> rfl

@[simp] theorem Dev.putAmaxWord_roll (d : Dev) (e w v : Nat) : (d.putAmaxWord e w v).roll = d.roll := by
  unfold Dev.putAmaxWord
  split <;> rfl

theorem Dev.rdi_congr {a b : Dev} (h : a.regs = b.regs) (p i : Nat) (f : Fld) : a.rdi p i f = b.rdi p i f := by
  unfold Dev.rdi
  rw [h]

theorem Dev.flag_congr {a b : Dev} (h : a.regs = b.regs) (p : Nat) (f : Fld) : a.flag p f = b.flag p f := by
  unfold Dev.flag Dev.rd
  rw [Dev.rdi_congr h]

/-- A word read after a word written: entry 0 never changes. -/
theorem Dev.amaxWord_putAmaxWord (d : Dev) {e w e' w' : Nat} (v : Nat) (hw : w < 4) (hw' : w' < 4) :
    (d.putAmaxWord e w v).amaxWord e' w' = if e' = e ∧ w' = w ∧ e ≠ 0 then v % 2 ^ 64 else d.amaxWord e' w' := by
  by_cases he : e = 0
  · simp [Dev.putAmaxWord, he]
  · by_cases he' : e' = 0
    · simp [Dev.amaxWord, he', Ne.symm he]
    · have hkey : (4 * e' + w' = 4 * e + w) ↔ (e' = e ∧ w' = w) := by omega
      simp [Dev.putAmaxWord, Dev.amaxWord, he, he', Tbl.get_set, hkey]

theorem amaxData_ne {w w' : Nat} (hw : w < 4) (hw' : w' < 4) (h : w' ≠ w) :
    ((amaxData w').off * 64 + (amaxData w').lo) % 2 ^ 18 ≠ ((amaxData w).off * 64 + (amaxData w).lo) % 2 ^ 18 := by
  simp only [amaxData]
  omega

theorem amaxData_in_page {w : Nat} (hw : w < 4) : (amaxData w).off * 64 + (amaxData w).lo < 2 ^ 18 := by
  simp only [amaxData]
  omega

/-! ### Reading an entry (R206) -/

/-- The device after the first `n` words of entry `e` entered the read buffer. -/
def Dev.bufferWords (d : Dev) (e n : Nat) : Dev :=
  (List.range n).foldl (fun d w => d.wri P.amax 1 (amaxData w) (d.amaxWord e w)) d

theorem Dev.amaxRead_regs (d : Dev) : d.amaxRead.regs = (d.bufferWords (d.rd P.amax F.CH_AMAX_INDEX.INDEX) 4).regs := rfl

theorem Dev.bufferWords_succ (d : Dev) (e n : Nat) :
    d.bufferWords e (n + 1) = (d.bufferWords e n).wri P.amax 1 (amaxData n) ((d.bufferWords e n).amaxWord e n) := by
  simp [Dev.bufferWords, List.range_succ]

@[simp] theorem Dev.bufferWords_amax (d : Dev) (e n : Nat) : (d.bufferWords e n).amax = d.amax := by
  induction n with
  | zero => rfl
  | succ n ih => rw [Dev.bufferWords_succ, Dev.wri_amax, ih]

theorem Dev.bufferWords_otherPages (d : Dev) (e : Nat) {n : Nat} (hn : n ≤ 4) : OtherPages d (d.bufferWords e n) P.amax := by
  induction n with
  | zero => exact OtherPages.rfl'
  | succ n ih =>
    rw [Dev.bufferWords_succ]
    exact (ih (by omega)).wri _ _ _ (by decide) (amaxData_in_page (by omega))

theorem Dev.bufferWords_read (d : Dev) (e : Nat) {n w : Nat} (hn : n ≤ 4) (hw : w < n) :
    (d.bufferWords e n).rdi P.amax 1 (amaxData w) = d.amaxWord e w % 2 ^ 64 := by
  induction n with
  | zero => omega
  | succ n ih =>
    rw [Dev.bufferWords_succ]
    by_cases h : w = n
    · subst h
      rw [Dev.rdi_wri_same, Dev.amaxWord_congr (Dev.bufferWords_amax d e w)]
      rfl
    · rw [Dev.rdi_wri_offset _ _ _ _ _ _ _ _ (amaxData_ne (by omega) (by omega) h)]
      exact ih (by omega) (by omega)

/-! ### Committing an entry (R204, R209) -/

/-- The device after the first `n` staged words became words of entry `e`. -/
def Dev.commitWords (d : Dev) (e n : Nat) : Dev :=
  (List.range n).foldl (fun d w => d.putAmaxWord e w (d.rdi P.amax 0 (amaxData w))) d

theorem Dev.commitWords_succ (d : Dev) (e n : Nat) : d.commitWords e (n + 1) =
    (d.commitWords e n).putAmaxWord e n ((d.commitWords e n).rdi P.amax 0 (amaxData n)) := by
  simp [Dev.commitWords, List.range_succ]

@[simp] theorem Dev.commitWords_regs (d : Dev) (e n : Nat) : (d.commitWords e n).regs = d.regs := by
  induction n with
  | zero => rfl
  | succ n ih => rw [Dev.commitWords_succ, Dev.putAmaxWord_regs, ih]

theorem Dev.amaxWord_commitWords (d : Dev) {e n e' w : Nat} (he : e ≠ 0) (hn : n ≤ 4) (hw : w < 4) :
    (d.commitWords e n).amaxWord e' w =
      if e' = e ∧ w < n then d.rdi P.amax 0 (amaxData w) % 2 ^ 64 else d.amaxWord e' w := by
  induction n with
  | zero => simp [Dev.commitWords]
  | succ n ih =>
    rw [Dev.commitWords_succ, Dev.amaxWord_putAmaxWord _ _ (by omega) hw, ih (by omega),
      Dev.rdi_congr (Dev.commitWords_regs d e n)]
    by_cases h : w = n
    · subst h
      simp [he]
    · have hlt : w < n + 1 ↔ w < n := by omega
      simp [h, hlt]

/-- Word 3 as it is staged by the commit itself; it has 37 bits. -/
theorem Dev.amaxWord_commitWords_three (d : Dev) {e : Nat} (he : e ≠ 0) (v : Nat) :
    ((d.wri P.amax 0 (amaxData 3) (v % 2 ^ 37)).commitWords e 4).amaxWord e 3 = v % 2 ^ 37 := by
  have hwidth : v % 2 ^ 37 % 2 ^ (amaxData 3).w % 2 ^ 64 = v % 2 ^ 37 := by
    simp only [amaxData]
    omega
  rw [Dev.amaxWord_commitWords _ he le_rfl (by decide), if_pos ⟨rfl, by decide⟩, Dev.rdi_wri_same, hwidth]

@[simp] theorem Dev.amaxInc_amax (d : Dev) : d.amaxInc.amax = d.amax := by
  unfold Dev.amaxInc
  split <;> rfl

@[simp] theorem Dev.amaxWord_amaxInc (d : Dev) (e w : Nat) : d.amaxInc.amaxWord e w = d.amaxWord e w :=
  Dev.amaxWord_congr (Dev.amaxInc_amax d) e w

theorem Dev.flag_amaxInc (d : Dev) (g : Fld)
    (h : g.off * 64 + g.lo ≠ F.CH_AMAX_INDEX.INDEX.off * 64 + F.CH_AMAX_INDEX.INDEX.lo) :
    d.amaxInc.flag P.amax g = d.flag P.amax g := by
  unfold Dev.amaxInc
  split
  · exact Dev.flag_wri_field _ _ _ _ _ h
  · rfl

theorem OtherPages.amaxInc {a d : Dev} (h : OtherPages a d P.amax) : OtherPages a d.amaxInc P.amax := by
  unfold Dev.amaxInc
  split
  · exact h.wri _ _ _ (by decide) (by decide)
  · exact h

section Commit

variable (d : Dev) (t w3 : Nat)

theorem Dev.amaxCommit_valid (he : d.rd P.amax F.CH_AMAX_INDEX.INDEX ≠ 0) (hf : fmtIsReserved (bitsOf w3 32 4) = false) :
    d.amaxCommit t w3 =
      ((d.wri P.amax 0 (amaxData 3) (w3 % 2 ^ 37)).commitWords (d.rd P.amax F.CH_AMAX_INDEX.INDEX) 4).amaxInc := by
  simp only [Dev.amaxCommit, hf, if_neg he]
  rfl

/-- R18, R141: a reserved format code leaves FMT as it is. -/
theorem Dev.amaxCommit_reserved (he : d.rd P.amax F.CH_AMAX_INDEX.INDEX ≠ 0) (hf : fmtIsReserved (bitsOf w3 32 4) = true) :
    d.amaxCommit t w3 =
      (((d.illegalWrite t P.amax).wri P.amax 0 (amaxData 3)
          (withFmt w3 (bitsOf (d.amaxWord (d.rd P.amax F.CH_AMAX_INDEX.INDEX) 3) 32 4) % 2 ^ 37)).commitWords
        (d.rd P.amax F.CH_AMAX_INDEX.INDEX) 4).amaxInc := by
  simp only [Dev.amaxCommit, hf, if_neg he, if_pos (And.intro trivial he), if_true]
  rfl

/-- R203: a commit to entry 0 only stages word 3 and sets ILLEGAL_WRITE. -/
theorem Dev.amaxCommit_entry_zero (he : d.rd P.amax F.CH_AMAX_INDEX.INDEX = 0) :
    ∃ v, d.amaxCommit t w3 = ((d.wri P.amax 0 (amaxData 3) v).illegalWrite t P.amax).amaxInc := by
  refine ⟨(if fmtIsReserved (bitsOf w3 32 4) then withFmt w3 (bitsOf (d.amaxWord 0 3) 32 4) else w3) % 2 ^ 37, ?_⟩
  simp only [Dev.amaxCommit, he, if_true, ne_eq, not_true_eq_false, and_false, if_false]

end Commit

/-! Word 3 with another FMT: the low half stays, and FMT reads as it was set. -/

theorem bitsOf_lt (v lo w : Nat) : bitsOf v lo w < 2 ^ w := Nat.mod_lt _ (Nat.two_pow_pos w)

theorem withFmt_low (w3 fmt : Nat) : withFmt w3 fmt % 2 ^ 37 % 2 ^ 32 = w3 % 2 ^ 32 := by
  simp only [withFmt, bitsOf, Nat.shiftRight_eq_div_pow]
  omega

theorem bitsOf_withFmt (w3 : Nat) {fmt : Nat} (h : fmt < 2 ^ 4) : bitsOf (withFmt w3 fmt % 2 ^ 37) 32 4 = fmt := by
  simp only [withFmt, bitsOf, Nat.shiftRight_eq_div_pow]
  omega

/-! ### Rolls (R218 to R221) -/

/-- What word `w` of entry `e` reads once the entry has rolled (R218): AMAX and the history move up by one place, SCALE and
the rest of word 3 stay. -/
def Dev.rolledWord (d : Dev) (e w : Nat) : Nat :=
  if w = 1 then d.amaxWord e 1 % 2 ^ 32 * 2 ^ 32
  else if w = 2 then (d.amaxWord e 1 / 2 ^ 32 + d.amaxWord e 2 % 2 ^ 32 * 2 ^ 32) % 2 ^ 64
  else if w = 3 then (d.amaxWord e 3 / 2 ^ 32 * 2 ^ 32 + d.amaxWord e 2 / 2 ^ 32) % 2 ^ 64
  else d.amaxWord e w

theorem Dev.rolledWord_zero (d : Dev) (e : Nat) : d.rolledWord e 0 = d.amaxWord e 0 := by
  simp only [Dev.rolledWord, OfNat.zero_ne_ofNat, zero_ne_one, if_false]

theorem Dev.rolledWord_one (d : Dev) (e : Nat) : d.rolledWord e 1 = d.amaxWord e 1 % 2 ^ 32 * 2 ^ 32 := if_pos rfl

theorem Dev.rolledWord_two (d : Dev) (e : Nat) : d.rolledWord e 2 =
    (d.amaxWord e 1 / 2 ^ 32 + d.amaxWord e 2 % 2 ^ 32 * 2 ^ 32) % 2 ^ 64 := by
  rw [Dev.rolledWord, if_neg (by decide), if_pos rfl]

theorem Dev.rolledWord_three (d : Dev) (e : Nat) : d.rolledWord e 3 =
    (d.amaxWord e 3 / 2 ^ 32 * 2 ^ 32 + d.amaxWord e 2 / 2 ^ 32) % 2 ^ 64 := by
  rw [Dev.rolledWord, if_neg (by decide), if_neg (by decide), if_pos rfl]

theorem Dev.rolledWord_congr {a b : Dev} {e : Nat} (h : ∀ w, w < 4 → a.amaxWord e w = b.amaxWord e w) {w : Nat} (hw : w < 4) :
    a.rolledWord e w = b.rolledWord e w := by
  simp only [Dev.rolledWord, h 1 (by decide), h 2 (by decide), h 3 (by decide), h w hw]

@[simp] theorem Dev.amaxRollEntry_regs (d : Dev) (e : Nat) : (d.amaxRollEntry e).regs = d.regs := by
  simp [Dev.amaxRollEntry]

@[simp] theorem Dev.amaxRollEntry_roll (d : Dev) (e : Nat) : (d.amaxRollEntry e).roll = d.roll := by
  simp [Dev.amaxRollEntry]

/-- A roll of one entry rolls that entry, unless it is entry 0, and no other. -/
theorem Dev.amaxWord_amaxRollEntry (d : Dev) (e e' : Nat) {w : Nat} (hw : w < 4) :
    (d.amaxRollEntry e).amaxWord e' w = if e' = e ∧ e ≠ 0 then d.rolledWord e w else d.amaxWord e' w := by
  have hshift : d.amaxWord e 1 % 2 ^ 32 * 2 ^ 32 % 2 ^ 64 = d.amaxWord e 1 % 2 ^ 32 * 2 ^ 32 := by omega
  simp only [Dev.amaxRollEntry, Dev.amaxWord_putAmaxWord, hw, Nat.reduceLT, hshift]
  by_cases h : e' = e ∧ e ≠ 0
  · obtain ⟨rfl, he⟩ := h
    match w, hw with
    | 0, _ => simp [Dev.rolledWord_zero]
    | 1, _ => simp [Dev.rolledWord_one, he]
    | 2, _ => simp [Dev.rolledWord_two, he]
    | 3, _ => simp [Dev.rolledWord_three, he]
  · have hno (v : Nat) : ¬(e' = e ∧ w = v ∧ e ≠ 0) := fun ⟨h1, _, h2⟩ => h ⟨h1, h2⟩
    simp only [hno, h, if_false]

theorem Dev.rollOn_none (d : Dev) (h : d.roll = none) (n : Nat) : d.rollOn n = d := by
  cases n with
  | zero => rfl
  | succ n => simp only [Dev.rollOn, h]

theorem Dev.rollOn_last (d : Dev) {e last : Nat} (h : d.roll = some (e, last)) (hl : last ≤ e) (n : Nat) :
    d.rollOn (n + 1) = ({ d with roll := none } : Dev).amaxRollEntry e := by
  simp only [Dev.rollOn, h, if_neg (Nat.not_lt.mpr hl)]
  exact Dev.rollOn_none _ (Dev.amaxRollEntry_roll _ _) n

theorem Dev.rollOn_next (d : Dev) {e last : Nat} (h : d.roll = some (e, last)) (hl : e < last) (n : Nat) :
    d.rollOn (n + 1) = (({ d with roll := some (e + 1, last) } : Dev).amaxRollEntry e).rollOn n := by
  simp only [Dev.rollOn, h, if_pos hl]

/-- What the whole of a roll from `first` to `last` does. -/
structure Dev.Rolled (d d' : Dev) (first last : Nat) : Prop where
  roll : d'.roll = none
  regs : d'.regs = d.regs
  word : ∀ e w, w < 4 → d'.amaxWord e w = if first ≤ e ∧ e ≤ last ∧ e ≠ 0 then d.rolledWord e w else d.amaxWord e w

theorem Dev.rollOn_last_rolled (d : Dev) {e : Nat} (h : d.roll = some (e, e)) (n : Nat) : d.Rolled (d.rollOn (n + 1)) e e := by
  rw [Dev.rollOn_last d h le_rfl]
  refine ⟨Dev.amaxRollEntry_roll _ _, Dev.amaxRollEntry_regs _ _, fun e' w hw => ?_⟩
  rw [Dev.amaxWord_amaxRollEntry _ _ _ hw]
  by_cases he : e' = e
  · subst he
    simp only [le_refl, true_and]
    rfl
  · rw [if_neg (by omega), if_neg (by omega)]
    rfl

/-- A roll whose first entry has rolled and that then does the rest of its entries has done all of them. -/
theorem Dev.Rolled.cons {d d' : Dev} {first last : Nat} {r : Option (Nat × Nat)} (hl : first < last)
    (h : Dev.Rolled (({ d with roll := r } : Dev).amaxRollEntry first) d' (first + 1) last) : d.Rolled d' first last := by
  have hhead (e w : Nat) (hw : w < 4) : (({ d with roll := r } : Dev).amaxRollEntry first).amaxWord e w =
      if e = first ∧ first ≠ 0 then d.rolledWord first w else d.amaxWord e w :=
    Dev.amaxWord_amaxRollEntry _ _ _ hw
  refine ⟨h.roll, h.regs.trans (Dev.amaxRollEntry_regs _ _), fun e w hw => ?_⟩
  rw [h.word e w hw]
  by_cases he : e = first
  · subst he
    rw [if_neg (by omega), hhead e w hw]
    simp [hl.le]
  · have hrest (v : Nat) (hv : v < 4) : (({ d with roll := r } : Dev).amaxRollEntry first).amaxWord e v = d.amaxWord e v := by
      rw [hhead e v hv, if_neg (fun hx => he hx.1)]
    have hrange : (first + 1 ≤ e ∧ e ≤ last ∧ e ≠ 0) ↔ (first ≤ e ∧ e ≤ last ∧ e ≠ 0) := by omega
    simp only [hrange, Dev.rolledWord_congr hrest hw, hrest w hw]

theorem Dev.rollOn_rolled (n : Nat) (d : Dev) (first last : Nat) (h : d.roll = some (first, last)) (hle : first ≤ last)
    (hn : last - first < n) : d.Rolled (d.rollOn n) first last := by
  induction n generalizing d first with
  | zero => omega
  | succ n ih =>
    by_cases hl : first < last
    · rw [Dev.rollOn_next d h hl]
      exact Dev.Rolled.cons hl (ih _ _ (Dev.amaxRollEntry_roll _ _) (by omega) (by omega))
    · obtain rfl : first = last := by omega
      exact Dev.rollOn_last_rolled d h n

/-- A GO leaves FIRST and LAST as written, whatever becomes of it. -/
def Dev.putRollRange (d : Dev) (first last : Nat) : Dev :=
  (d.wr P.amax F.CH_AMAX_ROLL.FIRST first).wr P.amax F.CH_AMAX_ROLL.LAST last

theorem Dev.putRollRange_busy (d : Dev) (first last : Nat) :
    (d.putRollRange first last).flag P.amax F.CH_AMAX_ROLL.BUSY = d.flag P.amax F.CH_AMAX_ROLL.BUSY := by
  unfold Dev.putRollRange
  rw [Dev.wr_eq_wri, Dev.flag_wri_field _ _ _ _ _ (by decide), Dev.wr_eq_wri, Dev.flag_wri_field _ _ _ _ _ (by decide)]

theorem Dev.putRollRange_otherPages (d : Dev) (first last : Nat) : OtherPages d (d.putRollRange first last) P.amax :=
  (otherPages_wri _ _ _ _ _ (by decide) (by decide)).wri _ _ _ (by decide) (by decide)

theorem Dev.amaxRoll_idle (d : Dev) (t : Nat) {first last : Nat} (hf : first < 4096) (hl : last < 4096)
    (h : d.flag P.amax F.CH_AMAX_ROLL.BUSY = false) : d.amaxRoll t first last =
      ({ d.putRollRange first last with roll := if first ≤ last then some (first, last) else none } : Dev).wr
        P.amax F.CH_AMAX_ROLL.BUSY 1 := by
  have hb := (Dev.putRollRange_busy d first last).trans h
  unfold Dev.putRollRange at hb ⊢
  simp only [Dev.amaxRoll, hb, Nat.mod_eq_of_lt hf, Nat.mod_eq_of_lt hl]
  rfl

theorem Dev.amaxRoll_busy (d : Dev) (t first last : Nat) (h : d.flag P.amax F.CH_AMAX_ROLL.BUSY = true) :
    d.amaxRoll t first last = (d.putRollRange first last).stateCmd t P.amax :=
  if_pos ((Dev.putRollRange_busy d first last).trans h)

/-! ### The clauses of the table -/

section Table

variable (s : State)

theorem amaxRead_yields : Yields .amaxRead s (fun t =>
    t.d.rdata = BitVec.ofNat 512 (s.d.amaxWord (s.d.rd P.amax F.CH_AMAX_INDEX.INDEX) 0) ∧
    (∀ w, w < 4 → t.d.rdi P.amax 1 (amaxData w) = s.d.amaxWord (s.d.rd P.amax F.CH_AMAX_INDEX.INDEX) w % 2 ^ 64) ∧
    t.d.amax = s.d.amax ∧ OtherPages s.d t.d P.amax) := by
  apply yields_upd (f := fun d => d.amaxRead) rfl
  refine ⟨rfl, fun w hw => ?_, Dev.bufferWords_amax _ _ _, (Dev.bufferWords_otherPages _ _ le_rfl).of_regs (Dev.amaxRead_regs _)⟩
  rw [Dev.rdi_congr (Dev.amaxRead_regs s.d)]
  exact Dev.bufferWords_read _ _ le_rfl hw

theorem amaxCommit_reserved_yields (w3 : Word) (he : s.d.rd P.amax F.CH_AMAX_INDEX.INDEX ≠ 0)
    (hf : fmtIsReserved (bitsOf w3.toNat 32 4) = true) : Yields (.amaxCommit w3) s (fun t =>
      t.d.amaxWord (s.d.rd P.amax F.CH_AMAX_INDEX.INDEX) 3 % 2 ^ 32 = w3.toNat % 2 ^ 32 ∧
      bitsOf (t.d.amaxWord (s.d.rd P.amax F.CH_AMAX_INDEX.INDEX) 3) 32 4 =
        bitsOf (s.d.amaxWord (s.d.rd P.amax F.CH_AMAX_INDEX.INDEX) 3) 32 4 ∧
      t.d.flag P.amax F.UNIT_ERR.ILLEGAL_WRITE = true ∧
      (∀ e w, w < 4 → e ≠ s.d.rd P.amax F.CH_AMAX_INDEX.INDEX → t.d.amaxWord e w = s.d.amaxWord e w)) := by
  apply yields_upd (f := fun d => d.amaxCommit s.now w3.toNat) rfl
  simp only [Dev.amaxCommit_reserved s.d s.now w3.toNat he hf]
  generalize s.d.rd P.amax F.CH_AMAX_INDEX.INDEX = e at he ⊢
  generalize hfmt : bitsOf (s.d.amaxWord e 3) 32 4 = fmt
  have hlt : fmt < 2 ^ 4 := hfmt ▸ bitsOf_lt _ _ _
  simp only [Dev.amaxWord_amaxInc]
  refine ⟨?_, ?_, ?_, fun e' w hw hne => ?_⟩
  · rw [Dev.amaxWord_commitWords_three _ he]
    exact withFmt_low _ _
  · rw [Dev.amaxWord_commitWords_three _ he]
    exact bitsOf_withFmt _ hlt
  · rw [Dev.flag_amaxInc _ _ (by decide), Dev.flag_congr (Dev.commitWords_regs _ _ _), Dev.flag_wri_field _ _ _ _ _ (by decide)]
    exact Dev.flag_illegalWrite_same _ _ _
  · rw [Dev.amaxWord_commitWords _ he le_rfl hw, if_neg (fun hx => hne hx.1), Dev.amaxWord_wri,
      Dev.amaxWord_illegalWrite]

theorem amaxCommit_valid_yields (w3 : Word) (he : s.d.rd P.amax F.CH_AMAX_INDEX.INDEX ≠ 0)
    (hf : fmtIsReserved (bitsOf w3.toNat 32 4) = false) : Yields (.amaxCommit w3) s (fun t =>
      (∀ w, w < 3 → t.d.amaxWord (s.d.rd P.amax F.CH_AMAX_INDEX.INDEX) w = s.d.rdi P.amax 0 (amaxData w) % 2 ^ 64) ∧
      t.d.amaxWord (s.d.rd P.amax F.CH_AMAX_INDEX.INDEX) 3 = w3.toNat % 2 ^ 37 ∧
      (∀ e w, w < 4 → e ≠ s.d.rd P.amax F.CH_AMAX_INDEX.INDEX → t.d.amaxWord e w = s.d.amaxWord e w) ∧
      OtherPages s.d t.d P.amax) := by
  apply yields_upd (f := fun d => d.amaxCommit s.now w3.toNat) rfl
  simp only [Dev.amaxCommit_valid s.d s.now w3.toNat he hf]
  generalize s.d.rd P.amax F.CH_AMAX_INDEX.INDEX = e at he ⊢
  refine ⟨fun w hw => ?_, ?_, fun e' w hw hne => ?_, ?_⟩
  · rw [Dev.amaxWord_amaxInc, Dev.amaxWord_commitWords _ he le_rfl (by omega), if_pos ⟨rfl, by omega⟩,
      Dev.rdi_wri_offset _ _ _ _ _ _ _ _ (amaxData_ne (by decide) (by omega) (by omega))]
  · rw [Dev.amaxWord_amaxInc, Dev.amaxWord_commitWords_three _ he]
  · rw [Dev.amaxWord_amaxInc, Dev.amaxWord_commitWords _ he le_rfl hw, if_neg (fun hx => hne hx.1),
      Dev.amaxWord_wri]
  · exact ((otherPages_wri _ _ _ _ _ (by decide) (amaxData_in_page (by decide))).of_regs (Dev.commitWords_regs _ _ _)).amaxInc

theorem amaxCommit_entry_zero_yields (w3 : Word) (he : s.d.rd P.amax F.CH_AMAX_INDEX.INDEX = 0) :
    Yields (.amaxCommit w3) s (fun t => t.d.amax = s.d.amax ∧ t.d.flag P.amax F.UNIT_ERR.ILLEGAL_WRITE = true) := by
  apply yields_upd (f := fun d => d.amaxCommit s.now w3.toNat) rfl
  obtain ⟨v, hv⟩ := Dev.amaxCommit_entry_zero s.d s.now w3.toNat he
  simp only [hv, Dev.amaxInc_amax, Dev.illegalWrite_amax, Dev.wri_amax, true_and]
  rw [Dev.flag_amaxInc _ _ (by decide)]
  exact Dev.flag_illegalWrite_same _ _ _

theorem amaxRoll_idle_yields (first last : Nat) (hf : first < 4096) (hl : last < 4096)
    (h : s.d.flag P.amax F.CH_AMAX_ROLL.BUSY = false) : Yields (.amaxRoll first last) s (fun t =>
      t.d.flag P.amax F.CH_AMAX_ROLL.BUSY = true ∧ t.d.roll = (if first ≤ last then some (first, last) else none) ∧
      t.d.amax = s.d.amax ∧ OtherPages s.d t.d P.amax) := by
  apply yields_upd (f := fun d => d.amaxRoll s.now first last) rfl
  simp only [Dev.amaxRoll_idle s.d s.now hf hl h]
  exact ⟨Dev.flag_wri_same _ _ _ rfl, rfl, rfl,
    ((Dev.putRollRange_otherPages s.d first last).of_regs rfl).wri _ _ _ (by decide) (by decide)⟩

theorem amaxRoll_busy_yields (first last : Nat) (h : s.d.flag P.amax F.CH_AMAX_ROLL.BUSY = true) :
    Yields (.amaxRoll first last) s (fun t =>
      t.d.amax = s.d.amax ∧ t.d.roll = s.d.roll ∧ t.d.flag P.amax F.UNIT_ERR.STATE_CMD = true) := by
  apply yields_upd (f := fun d => d.amaxRoll s.now first last) rfl
  simp only [Dev.amaxRoll_busy s.d s.now first last h]
  exact ⟨Dev.stateCmd_amax _ _ _, Dev.stateCmd_roll _ _ _, Dev.flag_stateCmd_same _ _ _⟩

/-- R219: the roll ends with all its entries rolled, and BUSY clears. -/
theorem amaxRollDone_yields (first last : Nat) (hle : first ≤ last) (hl : last < 4096) (h : s.d.roll = some (first, last)) :
    Yields .amaxRollDone s (fun t =>
      t.d.flag P.amax F.CH_AMAX_ROLL.BUSY = false ∧ t.d.roll = none ∧
      (∀ e, first ≤ e → e ≤ last → e ≠ 0 →
        t.d.amaxWord e 1 = s.d.amaxWord e 1 % 2 ^ 32 * 2 ^ 32 ∧
        t.d.amaxWord e 2 = (s.d.amaxWord e 1 / 2 ^ 32 + s.d.amaxWord e 2 % 2 ^ 32 * 2 ^ 32) % 2 ^ 64 ∧
        t.d.amaxWord e 3 = (s.d.amaxWord e 3 / 2 ^ 32 * 2 ^ 32 + s.d.amaxWord e 2 / 2 ^ 32) % 2 ^ 64 ∧
        t.d.amaxWord e 0 = s.d.amaxWord e 0) ∧
      (∀ e w, w < 4 → (e = 0 ∨ e < first ∨ last < e) → t.d.amaxWord e w = s.d.amaxWord e w) ∧ OtherPages s.d t.d P.amax) := by
  have hr := Dev.rollOn_rolled 4096 s.d first last h hle (by omega)
  apply yields_upd (f := fun d => d.rollDone) rfl
  simp only [Dev.rollDone, Dev.wr_eq_wri, Dev.amaxWord_wri, Dev.wri_roll]
  refine ⟨Dev.flag_wri_same _ _ _ rfl, hr.roll, fun e h1 h2 h0 => ?_, fun e w hw hout => ?_,
    (OtherPages.rfl'.of_regs hr.regs).wri _ _ _ (by decide) (by decide)⟩
  · have hin : first ≤ e ∧ e ≤ last ∧ e ≠ 0 := ⟨h1, h2, h0⟩
    simp only [hr.word e _, Nat.reduceLT, if_pos hin, Dev.rolledWord_zero, Dev.rolledWord_one, Dev.rolledWord_two,
      Dev.rolledWord_three, and_self]
  · exact (hr.word e w hw).trans (if_neg (by omega))

theorem amaxRollDone_empty_yields (h : s.d.roll = none) : Yields .amaxRollDone s (fun t =>
    t.d.flag P.amax F.CH_AMAX_ROLL.BUSY = false ∧ t.d.amax = s.d.amax ∧ OtherPages s.d t.d P.amax) := by
  apply yields_upd (f := fun d => d.rollDone) rfl
  simp only [Dev.rollDone, Dev.rollOn_none s.d h]
  exact ⟨Dev.flag_wri_same _ _ _ rfl, rfl, otherPages_wri _ _ _ _ _ (by decide) (by decide)⟩

end Table

/-- Settles O4, clause by clause; the end of a roll by induction on the entries still to come. -/
theorem amaxTable : Obligations.AmaxTable :=
  ⟨fun s => ⟨amaxRead_yields s, amaxCommit_reserved_yields s, amaxCommit_valid_yields s, amaxCommit_entry_zero_yields s⟩,
    fun s => ⟨amaxRoll_idle_yields s, amaxRoll_busy_yields s, amaxRollDone_yields s, amaxRollDone_empty_yields s⟩⟩

/-! ### A refused write of the program memory (R242) and a message that is dropped (R833) -/

theorem Dev.progWrite_running (d : Dev) (t : Nat) {p : Nat} (hi : Word) (ht : isTile p = true)
    (hr : d.flag p F.ME_STAT.RUNNING = true) : d.progWrite t p hi = d.stateCmd t p := by
  simp only [Dev.progWrite, ht, hr, Bool.not_true, Bool.false_eq_true, if_false, if_true]

/-- R833: a message of class INFO of a unit that holds 8 is dropped, and Tollhouse counts it. -/
theorem Dev.rdi_send_dropped (d : Dev) (t k a x : Nat) {p : Nat} (h : 8 ≤ d.held p) :
    (d.send t p k Cls.INFO a x).rdi P.tollhouse 0 F.FC_DROP_CNT.COUNT =
      (d.rdi P.tollhouse 0 F.FC_DROP_CNT.COUNT + 1) % 2 ^ 32 := by
  rw [Dev.send, if_pos ⟨h, Or.inr rfl⟩]
  exact Dev.rdi_wri_same _ _ _ _ _

/-- A STATE_CMD whose message is enabled counts on Tollhouse's page while its unit holds 8 messages. -/
theorem Dev.rdi_stateCmd_dropped (d : Dev) (t : Nat) {p : Nat} (hen : d.errEnabled p 1 = true) (h : 8 ≤ d.held p) :
    (d.stateCmd t p).rdi P.tollhouse 0 F.FC_DROP_CNT.COUNT = (d.rdi P.tollhouse 0 F.FC_DROP_CNT.COUNT + 1) % 2 ^ 32 := by
  have hbit : (d.setErrBit p 1).rdi P.tollhouse 0 F.FC_DROP_CNT.COUNT = d.rdi P.tollhouse 0 F.FC_DROP_CNT.COUNT :=
    Dev.rdi_wri_offset _ _ _ _ _ _ _ _ (by decide)
  have hheld : 8 ≤ (d.setErrBit p 1).held p := h
  rw [Dev.stateCmd, Dev.setErr, if_pos hen, Dev.rdi_send_dropped _ _ _ _ _ hheld, hbit]

theorem Dev.stateCmd_dropped_not_otherPages (d : Dev) (t : Nat) {p : Nat} (hp : P.tollhouse ≠ p)
    (hen : d.errEnabled p 1 = true) (h : 8 ≤ d.held p) : ¬OtherPages d (d.stateCmd t p) p := by
  intro hframe
  have hsame := hframe P.tollhouse 0 F.FC_DROP_CNT.COUNT hp (by decide) (by decide) (by decide)
  rw [Dev.rdi_stateCmd_dropped d t hen h] at hsame
  omega

/-- The block after reset, but for a matrix engine that runs and holds 8 STATE_CMD messages (of eight writes of GO, say) that
Tollhouse has not accepted. -/
def crowdedEngine : State :=
  { State.reset with d :=
    { State.reset.d.wr (P.me 0 0 0) F.ME_STAT.RUNNING 1 with
      outbox := List.replicate 8 ⟨P.me 0 0 0, K.UNIT_STATE_CMD, Cls.INFO, 0, 0, 0, none⟩ } }

theorem crowdedEngine_runs : isTile (P.me 0 0 0) = true ∧ crowdedEngine.d.flag (P.me 0 0 0) F.ME_STAT.RUNNING = true := by
  decide +kernel

theorem crowdedEngine_full :
    crowdedEngine.d.errEnabled (P.me 0 0 0) 1 = true ∧ 8 ≤ crowdedEngine.d.held (P.me 0 0 0) := by
  decide +kernel

/-- Refutes O5: a write of ME_PROG_HI while RUNNING sets STATE_CMD (R242), and when the tile already holds 8 messages its
UNIT_STATE_CMD message is dropped and FC_DROP_CNT rises (R833), which is a register of Tollhouse's page: the frame of the
refused write, that no other page changes, fails. -/
theorem not_tileControl : ¬Obligations.TileControl := by
  intro ⟨hprog, _⟩
  obtain ⟨_, _, _, _, _, _, hwrite⟩ := hprog crowdedEngine (P.me 0 0 0)
  obtain ⟨htile, hrun⟩ := crowdedEngine_runs
  obtain ⟨hen, hfull⟩ := crowdedEngine_full
  obtain ⟨t, ht, _, _, hframe, _⟩ := hwrite 0 htile hrun
  have hd : crowdedEngine.d.progWrite crowdedEngine.now (P.me 0 0 0) 0 = t.d :=
    congrArg State.d (Host.Outcome.next.inj ht)
  rw [← hd, Dev.progWrite_running _ _ _ htile hrun] at hframe
  exact Dev.stateCmd_dropped_not_otherPages _ _ (by decide) hen hfull hframe

end Sys2Proof.Machine

/-! # 04: HOST_SUB on an engine whose STATE reads NO_SERVICE -/

namespace Sys2Proof.Machine

/-- What a command yields holds of the state that its effect leaves. -/
theorem Yields.of_upd {c : Instr} {s : State} {f : Dev → Dev} {Q : State → Prop} (h : Yields c s Q) (hc : exec c s = upd s f) :
    Q { s with d := f s.d } := by
  obtain ⟨t, ht, hq⟩ := h
  obtain rfl : { s with d := f s.d } = t := Host.Outcome.next.inj (hc.symm.trans ht)
  exact hq

theorem Dev.shut_noService (d : Dev) {p : Nat} (h : d.ust p = U.NO_SERVICE) : d.shut p = false := by
  rw [Dev.shut, h]
  decide

/-- The fence of R1090 passes over a unit whose STATE reads NO_SERVICE, and with no descendants there is nothing else to fence. -/
theorem Dev.fenceStates_noService (d : Dev) (t : Nat) {p : Nat} (hp : descendants p = []) (h : d.ust p = U.NO_SERVICE) :
    d.fenceStates t p = d := by
  simp only [Dev.fenceStates, hp, List.foldl_nil, h, or_true, if_true]

/-- TGT_BAY and TGT_ENG of a span's spare as a HOST_SUB writes them (R311). -/
def Dev.putSpareTarget (d : Dev) (s bay eng : Nat) : Dev :=
  (d.wr (P.spare s) F.ME_REMAP.TGT_BAY bay).wr (P.spare s) F.ME_REMAP.TGT_ENG eng

theorem Dev.ust_putSpareTarget (d : Dev) (s bay eng p : Nat) : (d.putSpareTarget s bay eng).ust p = d.ust p :=
  (Dev.rdi_wri_offset _ _ _ _ _ _ _ _ (by decide)).trans (Dev.rdi_wri_offset _ _ _ _ _ _ _ _ (by decide))

/-- A HOST_SUB that names an engine whose STATE reads NO_SERVICE begins the substitution without a fence. -/
theorem Dev.hostSub_noService (d : Dev) (t : Nat) {s bay eng : Nat} (hs : s < 8) (hb : bay < 4) (he : eng < 3)
    (hfree : d.spareFree s = true) (hp : descendants (P.me s bay eng) = []) (h : d.ust (P.me s bay eng) = U.NO_SERVICE) :
    d.hostSub t s bay eng = ((d.putSpareTarget s bay eng).beginSubst t (P.me s bay eng) 3 noSlot).afterLoss t := by
  have hust := (d.ust_putSpareTarget s bay eng (P.me s bay eng)).trans h
  have hfence := Dev.fenceStates_noService _ t hp hust
  have hshut := Dev.shut_noService _ hust
  have hspan : ¬s > 7 := by omega
  have hnamed : ¬(eng ≥ 3 ∨ bay > 3) := by omega
  unfold Dev.putSpareTarget at hfence hshut ⊢
  simp only [Dev.hostSub, if_neg hspan, if_neg hnamed, hfree, hshut, hfence, Bool.not_true, Bool.false_eq_true, if_false]

/-- The block after reset, but for span 0's spare, which is ON, and an engine of that span whose STATE reads NO_SERVICE. The
model moves only the device root to that state (R46), so no command is meant to lead there; the obligation speaks of every state. -/
def noServiceEngine : State :=
  { State.reset with d :=
    (State.reset.d.wr (P.spare 0) F.UNIT_STAT.STATE U.ON).wr (P.me 0 0 0) F.UNIT_STAT.STATE U.NO_SERVICE }

theorem noServiceEngine_free :
    noServiceEngine.d.spareFree 0 = true ∧ noServiceEngine.d.ust (P.me 0 0 0) = U.NO_SERVICE ∧ descendants (P.me 0 0 0) = [] := by
  decide +kernel

/-- Neither the discard of the span's work nor the evaluation of the service set fences the engine later. -/
theorem noServiceEngine_keeps_state :
    (((noServiceEngine.d.putSpareTarget 0 0 0).beginSubst noServiceEngine.now (P.me 0 0 0) 3 noSlot).afterLoss
      noServiceEngine.now).ust (P.me 0 0 0) = U.NO_SERVICE := by
  decide +kernel

/-- Refutes O39: a HOST_SUB while the spare is free need not leave the named engine FENCED. An engine whose STATE reads
NO_SERVICE is passed over by the fence and still reads NO_SERVICE after the command. -/
theorem not_spareEngines : ¬Obligations.SpareEngines := by
  intro h
  obtain ⟨hfree, hust, hleaf⟩ := noServiceEngine_free
  obtain ⟨_, _, hsub, _⟩ := h noServiceEngine 0 (by decide)
  obtain ⟨_, _, _, hstate⟩ := (hsub 0 0 (by decide) (by decide) hfree).of_upd (f := fun d => d.hostSub noServiceEngine.now 0 0 0) rfl
  simp only [Dev.hostSub_noService _ _ (by decide) (by decide) (by decide) hfree hleaf hust, noServiceEngine_keeps_state, hust] at hstate
  exact absurd hstate (by decide)

end Sys2Proof.Machine

/-! # 06: the Ledger -/

namespace Sys2Proof.Machine

/-! ### Counters -/

/-- Two fields stand at different places of their pages. -/
abbrev Fld.Apart (g f : Fld) : Prop := (g.off * 64 + g.lo) % 2 ^ 18 ≠ (f.off * 64 + f.lo) % 2 ^ 18

theorem Dev.rdi_countTo_apart (d : Dev) (p i v q j : Nat) {f g : Fld} (h : g.Apart f) :
    (d.countTo p i f v).rdi q j g = d.rdi q j g :=
  Dev.rdi_wri_offset _ _ _ _ _ _ _ _ h

theorem Dev.rdi_countTo_same (d : Dev) (p i v : Nat) (f : Fld) : (d.countTo p i f v).rdi p i f = v % 2 ^ f.w :=
  Dev.rdi_wri_same _ _ _ _ _

theorem OtherPages.countTo {a d : Dev} {p : Nat} (h : OtherPages a d p) (i v : Nat) (f : Fld) (hi : i < 2 ^ 20)
    (hf : f.off * 64 + f.lo < 2 ^ 18) : OtherPages a (d.countTo p i f v) p :=
  (h.wri i v f hi hf).of_regs rfl

/-! ### The Ledger (R478, R479) -/

/-- The device after a Ledger operation has counted in LG_OP_CNT. -/
def Dev.countLedgerOp (d : Dev) (s : Nat) : Dev := d.count (P.ledger s) F.LG_OP_CNT.COUNT 1

theorem Dev.rdi_countLedgerOp (d : Dev) (s q j : Nat) {g : Fld} (h : g.Apart F.LG_OP_CNT.COUNT) :
    (d.countLedgerOp s).rdi q j g = d.rdi q j g := Dev.rdi_countTo_apart _ _ _ _ _ _ h

theorem Dev.countLedgerOp_otherPages (d : Dev) (s : Nat) : OtherPages d (d.countLedgerOp s) (P.ledger s) :=
  OtherPages.rfl'.countTo _ _ _ (by decide) (by decide)

/-- A grant: VALUE advances by what is left, at most by what was asked for. -/
theorem Dev.ledgerFadd_granted (d : Dev) (s c n : Nat) (h : d.lgValue s c < d.lgLimit s c) :
    d.ledgerFadd s c n =
      (min n (d.lgLimit s c - d.lgValue s c) * 2 ^ 32 + d.lgValue s c,
        (d.countLedgerOp s).wri (P.ledger s) c F.LG_COUNTER.VALUE
          (d.lgValue s c + min n (d.lgLimit s c - d.lgValue s c))) :=
  if_neg (Nat.not_le.mpr h)

theorem Dev.ledgerFadd_exhausted (d : Dev) (s c n : Nat) (h : d.lgLimit s c ≤ d.lgValue s c) :
    d.ledgerFadd s c n = (Machine.exhausted, (d.countLedgerOp s).countSat (P.ledger s) 0 F.LG_EXH_CNT.COUNT 1) :=
  if_pos h

/-! What an answered operation leaves unchanged of the whole device. -/

theorem Dev.answer_count_wri_frame (d : Dev) (x p i v q j w : Nat) (f g : Fld) :
    { Dev.answer (x, (d.countTo p i f v).wri q j g w) with regs := d.regs, rdata := d.rdata, cyc := d.cyc } = d := rfl

theorem Dev.answer_count_count_frame (d : Dev) (x p i v q j w : Nat) (f g : Fld) :
    { Dev.answer (x, (d.countTo p i f v).countTo q j g w) with regs := d.regs, rdata := d.rdata, cyc := d.cyc } = d := rfl

theorem Dev.answer_count_frame (d : Dev) (x p i v : Nat) (f : Fld) :
    { Dev.answer (x, d.countTo p i f v) with regs := d.regs, rdata := d.rdata, cyc := d.cyc } = d := rfl

theorem Dev.count_wri_wri_wri_frame (d : Dev) (p i v i₁ v₁ i₂ v₂ i₃ v₃ : Nat) (f f₁ f₂ f₃ : Fld) :
    { (((d.countTo p i f v).wri p i₁ f₁ v₁).wri p i₂ f₂ v₂).wri p i₃ f₃ v₃ with regs := d.regs, cyc := d.cyc } = d := rfl

theorem Dev.answer_rdata (x : Nat) (d : Dev) : (Dev.answer (x, d)).rdata = BitVec.ofNat 512 x := rfl
theorem Dev.answer_regs (x : Nat) (d : Dev) : (Dev.answer (x, d)).regs = d.regs := rfl
theorem Dev.answer_rdi (x : Nat) (d : Dev) (p i : Nat) (f : Fld) : (Dev.answer (x, d)).rdi p i f = d.rdi p i f :=
  Dev.rdi_congr (Dev.answer_regs x d) p i f

section Ledger

variable (s : State) (span c : Nat)

theorem fadd_yields {n x : Nat} {d' : Dev} {Q : State → Prop} (hclk : s.d.clocked = true)
    (hd : s.d.ledgerFadd span c n = (x, d')) (h : Q { s with d := Dev.answer (x, d') }) : Yields (.fadd span c n) s Q :=
  yields_work (f := fun d => Dev.answer (d.ledgerFadd span c n)) rfl hclk (by simpa only [hd] using h)

theorem fadd_granted_yields (hc : c < 256) (hclk : s.d.clocked = true) (n : Nat)
    (h : s.d.lgValue span c < s.d.lgLimit span c) : Yields (.fadd span c n) s (fun t =>
      t.d.rdata = BitVec.ofNat 512 (min n (s.d.lgLimit span c - s.d.lgValue span c) * 2 ^ 32 + s.d.lgValue span c) ∧
      t.d.lgValue span c = (s.d.lgValue span c + min n (s.d.lgLimit span c - s.d.lgValue span c)) % 2 ^ 32 ∧
      t.d.lgLimit span c = s.d.lgLimit span c ∧ t.d.lgStart span c = s.d.lgStart span c ∧
      OtherPages s.d t.d (P.ledger span) ∧ { t.d with regs := s.d.regs, rdata := s.d.rdata, cyc := s.d.cyc } = s.d) := by
  apply fadd_yields s span c hclk (Dev.ledgerFadd_granted s.d span c n h)
  generalize min n (s.d.lgLimit span c - s.d.lgValue span c) = g
  refine ⟨Dev.answer_rdata _ _, (Dev.answer_rdi _ _ _ _ _).trans (Dev.rdi_wri_same _ _ _ _ _), ?_, ?_, ?_,
    Dev.answer_count_wri_frame _ _ _ _ _ _ _ _ _ _⟩
  · exact (Dev.answer_rdi _ _ _ _ _).trans
      ((Dev.rdi_wri_offset _ _ _ _ _ _ _ _ (by decide)).trans (Dev.rdi_countLedgerOp _ _ _ _ (by decide)))
  · exact (Dev.answer_rdi _ _ _ _ _).trans
      ((Dev.rdi_wri_offset _ _ _ _ _ _ _ _ (by decide)).trans (Dev.rdi_countLedgerOp _ _ _ _ (by decide)))
  · exact ((s.d.countLedgerOp_otherPages span).wri _ _ _ (by omega) (by decide)).of_regs (Dev.answer_regs _ _)

/-- R479: an exhausted counter answers bit 63 and stays, and the refusal counts. -/
theorem fadd_exhausted_yields (hclk : s.d.clocked = true) (n : Nat) (h : s.d.lgLimit span c ≤ s.d.lgValue span c) :
    Yields (.fadd span c n) s (fun t =>
      t.d.rdata = BitVec.ofNat 512 0x8000000000000000 ∧ t.d.lgValue span c = s.d.lgValue span c ∧
      t.d.lgLimit span c = s.d.lgLimit span c ∧ t.d.lgStart span c = s.d.lgStart span c ∧
      t.d.rd (P.ledger span) F.LG_EXH_CNT.COUNT = min (s.d.rd (P.ledger span) F.LG_EXH_CNT.COUNT + 1) (2 ^ 32 - 1) ∧
      OtherPages s.d t.d (P.ledger span) ∧ { t.d with regs := s.d.regs, rdata := s.d.rdata, cyc := s.d.cyc } = s.d) := by
  apply fadd_yields s span c hclk (Dev.ledgerFadd_exhausted s.d span c n h)
  have hkeep {g : Fld} (hexh : g.Apart F.LG_EXH_CNT.COUNT) (hop : g.Apart F.LG_OP_CNT.COUNT) :
      (Dev.answer (Machine.exhausted, (s.d.countLedgerOp span).countSat (P.ledger span) 0 F.LG_EXH_CNT.COUNT 1)).rdi
        (P.ledger span) c g = s.d.rdi (P.ledger span) c g := by
    rw [Dev.answer_rdi]
    exact (Dev.rdi_countTo_apart _ _ _ _ _ _ hexh).trans (Dev.rdi_countLedgerOp _ _ _ _ hop)
  refine ⟨Dev.answer_rdata _ _, hkeep (by decide) (by decide), hkeep (by decide) (by decide),
    hkeep (by decide) (by decide), ?_, ?_, Dev.answer_count_count_frame _ _ _ _ _ _ _ _ _ _⟩
  · have hop := s.d.rdi_countLedgerOp span (P.ledger span) 0 (g := F.LG_EXH_CNT.COUNT) (by decide)
    have hsat (v : Nat) : min v (2 ^ 32 - 1) % 2 ^ 32 = min v (2 ^ 32 - 1) := by omega
    rw [Dev.rd_eq_rdi, Dev.answer_rdi, Dev.countSat, Dev.rdi_countTo_same, hop, Dev.rd_eq_rdi]
    exact hsat _
  · exact ((s.d.countLedgerOp_otherPages span).countTo _ _ _ (by decide) (by decide)).of_regs (Dev.answer_regs _ _)

theorem fread_yields (hclk : s.d.clocked = true) : Yields (.fread span c) s (fun t =>
    t.d.rdata = BitVec.ofNat 512 (s.d.lgValue span c + s.d.lgLimit span c * 2 ^ 32) ∧
    t.d.lgValue span c = s.d.lgValue span c ∧ t.d.lgLimit span c = s.d.lgLimit span c ∧
    OtherPages s.d t.d (P.ledger span) ∧ { t.d with regs := s.d.regs, rdata := s.d.rdata, cyc := s.d.cyc } = s.d) := by
  have hkeep {g : Fld} (hop : g.Apart F.LG_OP_CNT.COUNT) :
      (Dev.answer (s.d.lgValue span c + s.d.lgLimit span c * 2 ^ 32, s.d.countLedgerOp span)).rdi (P.ledger span) c g =
        s.d.rdi (P.ledger span) c g :=
    (Dev.answer_rdi _ _ _ _ _).trans (Dev.rdi_countLedgerOp _ _ _ _ hop)
  apply yields_work (f := fun d => Dev.answer (d.ledgerFread span c)) rfl hclk
  exact ⟨Dev.answer_rdata _ _, hkeep (by decide), hkeep (by decide),
    (s.d.countLedgerOp_otherPages span).of_regs (Dev.answer_regs _ _), Dev.answer_count_frame _ _ _ _ _ _⟩

theorem fset_yields (hc : c < 256) (hclk : s.d.clocked = true) (v l : W32) : Yields (.fset span c v l) s (fun t =>
    t.d.lgValue span c = v.toNat ∧ t.d.lgLimit span c = l.toNat ∧ t.d.lgStart span c = v.toNat ∧
    OtherPages s.d t.d (P.ledger span) ∧ { t.d with regs := s.d.regs, cyc := s.d.cyc } = s.d) := by
  have hv : v.toNat % 2 ^ 32 = v.toNat := Nat.mod_eq_of_lt v.isLt
  have hl : l.toNat % 2 ^ 32 = l.toNat := Nat.mod_eq_of_lt l.isLt
  apply yields_work (f := fun d => d.ledgerFset span c v.toNat l.toNat) rfl hclk
  refine ⟨?_, ?_, ?_, ?_, Dev.count_wri_wri_wri_frame _ _ _ _ _ _ _ _ _ _ _ _ _ _⟩
  · exact ((Dev.rdi_wri_offset _ _ _ _ _ _ _ _ (by decide)).trans (Dev.rdi_wri_offset _ _ _ _ _ _ _ _ (by decide))).trans
      ((Dev.rdi_wri_same _ _ _ _ _).trans hv)
  · exact (Dev.rdi_wri_offset _ _ _ _ _ _ _ _ (by decide)).trans ((Dev.rdi_wri_same _ _ _ _ _).trans hl)
  · exact (Dev.rdi_wri_same _ _ _ _ _).trans hv
  · exact (((s.d.countLedgerOp_otherPages span).wri _ _ _ (by omega) (by decide)).wri _ _ _ (by omega) (by decide)).wri
      _ _ _ (by omega) (by decide)

end Ledger

/-- Settles O1, operation by operation; FADD by whether VALUE has reached LIMIT. -/
theorem ledgerOperations : Obligations.LedgerOperations := fun s span c hc hclk =>
  ⟨fadd_granted_yields s span c hc hclk, fadd_exhausted_yields s span c hclk, fread_yields s span c hclk,
    fset_yields s span c hc hclk⟩

end Sys2Proof.Machine

/-! # 06: a waiting row request whose row is of another tile -/

namespace Sys2Proof.Machine

/-- The block after reset, but for a plan with a read circuit from scratchpad tile 0 of span 0 to the engine beside it, and a
request over it that waits at the tile and names row 2^14, which no row within a tile has (R410). A request word gives a row
of 14 bits (R417), so no command is meant to lead there; the obligation speaks of every state. -/
def outsideRequest : State :=
  { State.reset with d := { State.reset.d with
      plan := some { id := 0, mask := 1, mePrograms := [], sfPrograms := [], images := [], tollgates := [], descs := []
                     windows := []
                     circuits := [⟨1, 0, posOf (P.sp 0 0 0), 0, posOf (P.me 0 0 0), 0, false, 1, 8, 1, none⟩] }
      spReqs := Tbl.set noReqs [] (P.sp 0 0 0) [⟨1, 2 ^ 14⟩] } }

theorem outsideRequest_waits :
    outsideRequest.d.clocked = true ∧ kindOf (P.sp 0 0 0) = some .sp ∧ outsideRequest.d.apRead (P.sp 0 0 0) = none ∧
    outsideRequest.d.readyReads (P.sp 0 0 0) = [(0, true, ⟨1, 2 ^ 14⟩)] ∧
    outsideRequest.d.carterRow (P.sp 0 0 0) false = none ∧ (outsideRequest.d.circuit 1).isSome = true := by
  decide +kernel

/-- The address of the request's row is that of row 0 of tile 1, and there the read counts. -/
theorem outsideRequest_counts_elsewhere : outsideRequest.d.rd (P.sp 0 0 0) F.SP_RD_CNT.COUNT = 0 ∧
    (outsideRequest.d.rowRead outsideRequest.now (P.sp 0 0 0) 0).rd (P.sp 0 0 0) F.SP_RD_CNT.COUNT = 0 ∧
    (outsideRequest.d.rowRead outsideRequest.now (P.sp 0 0 0) 0).rd (P.sp 0 0 1) F.SP_RD_CNT.COUNT = 1 := by
  decide +kernel

/-- Refutes O2: a ROW_READ at a tile with one waiting request need not count in the tile's SP_RD_CNT. The model keeps the row
of a waiting request as a number without a bound, and the read of row 2^14 of tile 0 counts at tile 1. -/
theorem not_rowRequests : ¬Obligations.RowRequests := by
  intro ⟨_, hread, _⟩
  obtain ⟨hclk, hkind, hap, hready, hcarter, hcirc⟩ := outsideRequest_waits
  obtain ⟨hbefore, hafter, _⟩ := outsideRequest_counts_elsewhere
  obtain ⟨c, hc⟩ := Option.isSome_iff_exists.mp hcirc
  obtain ⟨hserve, _⟩ := hread outsideRequest (P.sp 0 0 0) hclk hkind hap
  obtain ⟨_, hcount, _⟩ := (hserve 0 true ⟨1, 2 ^ 14⟩ c hready (by decide) hcarter hc).of_upd
    (f := fun d => if d.clocked then d.rowRead outsideRequest.now (P.sp 0 0 0) 0 else d) rfl
  simp only [hclk, if_true, hafter, hbefore] at hcount
  exact absurd hcount (by decide)

end Sys2Proof.Machine

/-! # 06: span caches and the caches of translations -/

namespace Sys2Proof.Machine

/-! ### What STATE_CMD leaves as it was -/

/-- A part of the block that neither a raised bit nor a message touches outlasts a STATE_CMD. -/
theorem Dev.stateCmd_keeps {α : Type} (part : Dev → α) (hbit : ∀ (d : Dev) p f b, part (d.raiseBit p f b) = part d)
    (hsend : ∀ (d : Dev) t p k c a x, part (d.send t p k c a x) = part d) (d : Dev) (t p : Nat) :
    part (d.stateCmd t p) = part d := by
  unfold Dev.stateCmd Dev.setErr
  split
  · exact (hsend _ _ _ _ _ _ _).trans (hbit _ _ _ _)
  · exact hbit _ _ _ _

@[simp] theorem Dev.stateCmd_caches (d : Dev) (t p : Nat) : (d.stateCmd t p).caches = d.caches :=
  Dev.stateCmd_keeps Dev.caches (fun _ _ _ _ => rfl) Dev.send_caches d t p
@[simp] theorem Dev.stateCmd_near (d : Dev) (t p : Nat) : (d.stateCmd t p).near = d.near :=
  Dev.stateCmd_keeps Dev.near (fun _ _ _ _ => rfl) Dev.send_near d t p
@[simp] theorem Dev.stateCmd_tcache (d : Dev) (t p : Nat) : (d.stateCmd t p).tcache = d.tcache :=
  Dev.stateCmd_keeps Dev.tcache (fun _ _ _ _ => rfl) Dev.send_tcache d t p
@[simp] theorem Dev.stateCmd_invPage (d : Dev) (t p : Nat) : (d.stateCmd t p).invPage = d.invPage :=
  Dev.stateCmd_keeps Dev.invPage (fun _ _ _ _ => rfl) Dev.send_invPage d t p

/-! ### Write-backs (R468)

A write-back stores to the near tier. It may count on the near tier's pages, but no cache and no scratchpad changes. -/

/-- The span caches and the scratchpads. -/
def Dev.srams (d : Dev) : Tbl (List Sector) × Tbl Byte := (d.caches, d.spad)

theorem Dev.cache_of_srams {a b : Dev} (h : a.srams = b.srams) (s : Nat) : a.cache s = b.cache s :=
  congrArg (fun x : Tbl (List Sector) × Tbl Byte => Tbl.get noSectors x.1 s) h

theorem Dev.spad_of_srams {a b : Dev} (h : a.srams = b.srams) : a.spad = b.spad := congrArg Prod.snd h

theorem Dev.srams_readSector (d : Dev) (t addr stack off : Nat) : (d.readSector t addr stack off 0).2.srams = d.srams := by
  unfold Dev.readSector
  split <;> rfl

theorem Dev.srams_sectorRead (d : Dev) (t addr key : Nat) : (d.sectorRead t addr key 0).2.srams = d.srams := by
  unfold Dev.sectorRead
  split
  · rfl
  · exact Dev.srams_readSector _ _ _ _ _

theorem Dev.srams_putStack (d : Dev) (key : Nat) (bs : List Byte) : (d.putStack key bs).srams = d.srams := by
  refine List.foldlRecOn (motive := fun e : Dev => e.srams = d.srams) _ _ rfl (fun e he i _ => ?_)
  split
  · exact he
  · exact he

theorem Dev.srams_setPoison (d : Dev) (key : Nat) (b : Bool) : (d.setPoison key b).srams = d.srams := by
  unfold Dev.setPoison
  split <;> rfl

/-- What the reads of a write without symbol errors keep as they go: the caches and scratchpads, and that no error is to come. -/
def Dev.ReadsKeep {ε : Type} (d : Dev) (acc : ε × Dev × Nat) : Prop := acc.2.1.srams = d.srams ∧ acc.2.2 = 0

theorem Dev.srams_nearWrite (d : Dev) (t addr key : Nat) (data : List Byte) :
    (d.nearWrite t addr key data 0).2.srams = d.srams := by
  unfold Dev.nearWrite
  dsimp only
  generalize hr : List.foldl _ _ _ = r
  have hreads : r.2.1.srams = d.srams := by
    rw [← hr]
    refine (List.foldlRecOn (motive := d.ReadsKeep) _ _ ⟨rfl, rfl⟩ (fun acc hacc pc _ => ?_)).1
    obtain ⟨hkeep, herrs⟩ := hacc
    have hread := (Dev.srams_sectorRead acc.2.1 t addr pc.1).trans hkeep
    rw [← herrs] at hread
    split
    · exact ⟨hkeep, herrs⟩
    · split
      · exact ⟨hkeep, herrs⟩
      · split
        · exact ⟨hread, rfl⟩
        · exact ⟨hread, rfl⟩
  split
  · exact hreads
  · refine List.foldlRecOn (motive := fun e : Dev => e.srams = d.srams) _ _ hreads (fun e he w _ => ?_)
    exact ((Dev.srams_setPoison _ _ _).trans (Dev.srams_putStack _ _ _)).trans he

theorem Dev.srams_scWriteBack (d : Dev) (t s : Nat) (x : Sector) : (d.scWriteBack t s x).srams = d.srams := by
  unfold Dev.scWriteBack
  split
  · exact Dev.srams_nearWrite _ _ _ _ _
  · rfl

/-! ### What other caches give up for a write (R471) -/

/-- Cache `j` gives up a sector. -/
def Dev.scGiveUp (d : Dev) (t j sector : Nat) : Dev := match (d.cache j).find? (fun x => x.addr == sector) with
  | none => d
  | some x => (d.scWriteBack t j x).scDrop j sector

/-- Those of the first `n` caches that are not the writer's give up a sector. -/
def Dev.scGiveUps (d : Dev) (t s sector n : Nat) : Dev :=
  (List.range n).foldl (fun d j => if j = s then d else d.scGiveUp t j sector) d

theorem Dev.scInvalidateOthers_eq (d : Dev) (t s sector : Nat) : d.scInvalidateOthers t s sector = d.scGiveUps t s sector 8 := rfl

theorem Dev.scGiveUps_succ (d : Dev) (t s sector n : Nat) : d.scGiveUps t s sector (n + 1) =
    if n = s then d.scGiveUps t s sector n else (d.scGiveUps t s sector n).scGiveUp t n sector := by
  simp [Dev.scGiveUps, List.range_succ]

theorem Dev.spad_scDrop (d : Dev) (s sector : Nat) : (d.scDrop s sector).spad = d.spad := rfl

theorem Dev.spad_scGiveUp (d : Dev) (t j sector : Nat) : (d.scGiveUp t j sector).spad = d.spad := by
  unfold Dev.scGiveUp
  split
  · rfl
  · exact (Dev.spad_scDrop _ _ _).trans (Dev.spad_of_srams (Dev.srams_scWriteBack _ _ _ _))

theorem Dev.cache_scGiveUp_other (d : Dev) (t sector : Nat) {j k : Nat} (h : k ≠ j) :
    (d.scGiveUp t j sector).cache k = d.cache k := by
  unfold Dev.scGiveUp
  split
  · rfl
  · exact (Dev.cache_putCache_other _ _ h).trans (Dev.cache_of_srams (Dev.srams_scWriteBack _ _ _ _) k)

theorem Dev.find_scGiveUp_same (d : Dev) (t j sector : Nat) :
    ((d.scGiveUp t j sector).cache j).find? (fun x => x.addr == sector) = none := by
  unfold Dev.scGiveUp
  split
  · assumption
  · simp [Dev.scDrop]

theorem Dev.spad_scGiveUps (d : Dev) (t s sector n : Nat) : (d.scGiveUps t s sector n).spad = d.spad := by
  induction n with
  | zero => rfl
  | succ n ih =>
    rw [Dev.scGiveUps_succ]
    split
    · exact ih
    · exact (Dev.spad_scGiveUp _ _ _ _).trans ih

/-- The writer's own cache gives nothing up. -/
theorem Dev.cache_scGiveUps_writer (d : Dev) (t s sector n : Nat) : (d.scGiveUps t s sector n).cache s = d.cache s := by
  induction n with
  | zero => rfl
  | succ n ih =>
    rw [Dev.scGiveUps_succ]
    split
    · exact ih
    · rename_i hn
      exact (Dev.cache_scGiveUp_other _ _ _ (Ne.symm hn)).trans ih

theorem Dev.find_scGiveUps_other (d : Dev) (t s sector : Nat) {n j : Nat} (hj : j < n) (hs : j ≠ s) :
    ((d.scGiveUps t s sector n).cache j).find? (fun x => x.addr == sector) = none := by
  induction n with
  | zero => omega
  | succ n ih =>
    rw [Dev.scGiveUps_succ]
    by_cases hn : j = n
    · subst hn
      rw [if_neg hs]
      exact Dev.find_scGiveUp_same _ _ _ _
    · have hprev := ih (by omega)
      split
      · exact hprev
      · rw [Dev.cache_scGiveUp_other _ _ _ hn]
        exact hprev

/-! ### Accesses that hit (R466 to R471) -/

/-- No access takes a line back from the host while device bias is off. -/
theorem Dev.snoopNow_unbiased (d : Dev) (write : Bool) (key n : Nat) (h : d.flag P.hostIf F.HI_HDM_CTL.DB_EN = false) :
    d.snoopNow write key n = d := by
  have hheld : d.heldLines write key n = [] := if_pos (Or.inr (by rw [h]; rfl))
  simp only [Dev.snoopNow, hheld, if_true]

theorem Dev.scRead_hit (d : Dev) (t s addr key n symErrs fillErrs : Nat) (noCache : Bool) {x : Sector}
    (h : (d.cache s).find? (fun x => x.addr == key / 512) = some x) :
    d.scRead t s addr key n 0 symErrs noCache fillErrs =
      (.bytes ((x.data.drop (key % 512)).take n),
        ((d.count (P.spanCache s) F.SC_RD_CNT.COUNT 1).count (P.spanCache s) F.SC_HIT_CNT.COUNT 1).scTouch s x) := by
  have hcount : ((d.count (P.spanCache s) F.SC_RD_CNT.COUNT 1).cache s).find? (fun x => x.addr == key / 512) = some x := h
  simp only [Dev.scRead, hcount, Dev.secded, if_true]
  rfl

/-- The entry of a sector in a list of sectors, replaced, is the one that is found. -/
theorem find_replaceSector {l : List Sector} {a : Nat} {x y : Sector} (h : l.find? (fun z => z.addr == a) = some x)
    (hy : y.addr = a) : (l.map (fun z => if z.addr = a then y else z)).find? (fun z => z.addr == a) = some y := by
  have hx : x.addr = a := by simpa using List.find?_some h
  have hsame : (fun z : Sector => z.addr == a) ∘ (fun z => if z.addr = a then y else z) = fun z => z.addr == a := by
    funext z
    by_cases hz : z.addr = a <;> simp [hz, hy]
  rw [List.find?_map, hsame, h, Option.map_some, if_pos hx]

/-- A sector into which a write has put bytes from offset `o` on. -/
def Sector.merged (x : Sector) (o : Nat) (data : List Byte) : Sector :=
  { x with dirty := true, data := x.data.take o ++ data ++ x.data.drop (o + data.length) }

/-- A write that hits puts its bytes into the writer's sector, and every other cache gives the sector up. -/
theorem Dev.scWrite_hit (d : Dev) (t s addr key symErrs : Nat) (data : List Byte) (noCache : Bool) {x : Sector}
    (h : (d.cache s).find? (fun x => x.addr == key / 512) = some x) :
    (d.scWrite t s addr key data symErrs noCache).2 =
      ((d.scGiveUps t s (key / 512) 8).putCache s ((d.cache s).map (fun z =>
        if z.addr = key / 512 then x.merged (key % 512) data else z))).scTouch s (x.merged (key % 512) data) := by
  simp only [Dev.scWrite, Dev.scInvalidateOthers_eq, Dev.cache_scGiveUps_writer, h]
  rfl

/-! ### FLUSH and INVALIDATE (R475, R476) -/

/-- Every dirty sector of a cache is written back. -/
def Dev.scWriteBacks (d : Dev) (t s : Nat) : Dev := (d.cache s).foldl (fun d x => d.scWriteBack t s x) d

theorem Dev.srams_scWriteBacks (d : Dev) (t s : Nat) : (d.scWriteBacks t s).srams = d.srams :=
  List.foldlRecOn (motive := fun e : Dev => e.srams = d.srams) _ _ rfl (fun _ he _ _ => (Dev.srams_scWriteBack _ _ _ _).trans he)

theorem Dev.scFlushAll_eq (d : Dev) (t s : Nat) : d.scFlushAll t s =
    (d.scWriteBacks t s).putCache s ((d.cache s).map (fun x => { x with dirty := false })) := by
  rw [← Dev.cache_of_srams (d.srams_scWriteBacks t s) s]
  rfl

theorem Dev.cache_scFlushAll_same (d : Dev) (t s : Nat) :
    (d.scFlushAll t s).cache s = (d.cache s).map (fun x => { x with dirty := false }) := by
  rw [Dev.scFlushAll_eq, Dev.cache_putCache]

theorem Dev.cache_scFlushAll_other (d : Dev) (t : Nat) {s j : Nat} (h : j ≠ s) : (d.scFlushAll t s).cache j = d.cache j := by
  rw [Dev.scFlushAll_eq, Dev.cache_putCache_other _ _ h]
  exact Dev.cache_of_srams (d.srams_scWriteBacks t s) j

theorem Dev.spad_putCache (d : Dev) (s : Nat) (xs : List Sector) : (d.putCache s xs).spad = d.spad := rfl

theorem Dev.spad_scFlushAll (d : Dev) (t s : Nat) : (d.scFlushAll t s).spad = d.spad := by
  rw [Dev.scFlushAll_eq, Dev.spad_putCache]
  exact Dev.spad_of_srams (d.srams_scWriteBacks t s)

theorem Dev.scOp_flush (d : Dev) (t : Nat) {s : Nat} (hs : s < 8) (h : d.flag (P.spanCache s) F.SC_CTL.BUSY = false) :
    d.scOp t s false = (d.scFlushAll t s).wri (P.spanCache s) 0 F.SC_CTL.BUSY 1 := by
  simp only [Dev.scOp, if_neg (Nat.not_le.mpr hs), h, Bool.false_eq_true, if_false, Dev.wr_eq_wri]

theorem Dev.scOp_invalidate (d : Dev) (t : Nat) {s : Nat} (hs : s < 8) (h : d.flag (P.spanCache s) F.SC_CTL.BUSY = false) :
    d.scOp t s true = ((d.scFlushAll t s).putCache s []).wri (P.spanCache s) 0 F.SC_CTL.BUSY 1 := by
  simp only [Dev.scOp, if_neg (Nat.not_le.mpr hs), h, Bool.false_eq_true, if_false, if_true, Dev.wr_eq_wri]

theorem Dev.scOp_busy (d : Dev) (t : Nat) {s : Nat} (inv : Bool) (hs : s < 8) (h : d.flag (P.spanCache s) F.SC_CTL.BUSY = true) :
    d.scOp t s inv = d.stateCmd t (P.spanCache s) := by
  simp only [Dev.scOp, if_neg (Nat.not_le.mpr hs), h, if_true]

/-! ### The clauses of the span caches -/

theorem Dev.cache_scTouch (d : Dev) (s j : Nat) (x : Sector) : (d.scTouch s x).cache j = d.cache j := rfl
theorem Dev.answer_caches (x : Nat) (d : Dev) : (Dev.answer (x, d)).caches = d.caches := rfl
theorem Dev.answer_near (x : Nat) (d : Dev) : (Dev.answer (x, d)).near = d.near := rfl

theorem Dev.scReadCmd_hit (d : Dev) (t : Nat) {span addr : Nat} {x : Sector} (hs : span < 8)
    (hbias : d.flag P.hostIf F.HI_HDM_CTL.DB_EN = false) (haddr : addr < d.stripedSize) (hlink : d.keyRetrains addr = false)
    (hx : (d.cache span).find? (fun x => x.addr == addr / 512) = some x) :
    d.scReadCmd t span addr 0 = Dev.answer (natOfBytes (x.data.take 64),
      ((d.count (P.spanCache span) F.SC_RD_CNT.COUNT 1).count (P.spanCache span) F.SC_HIT_CNT.COUNT 1).scTouch span x) := by
  have hsector : addr / 512 * 512 / 512 = addr / 512 := by omega
  rw [← hsector] at hx
  simp only [Dev.scReadCmd, hlink, Bool.false_eq_true, if_false, if_pos (And.intro hs haddr), Dev.snoopNow_unbiased d _ _ _ hbias,
    Dev.scRead_hit d _ _ _ _ _ _ _ _ hx, Dev.answerNear, Dev.answer, Nat.mul_mod_left, List.drop_zero, List.take_take]
  rfl

section Caches

variable (s : State) (span : Nat)

theorem scRead_hit_yields (hs : span < 8) (addr : Nat) (x : Sector) (hclk : s.d.clocked = true)
    (hbias : s.d.flag P.hostIf F.HI_HDM_CTL.DB_EN = false) (haddr : addr < s.d.stripedSize)
    (hlink : s.d.keyRetrains addr = false) (hx : (s.d.cache span).find? (fun x => x.addr == addr / 512) = some x) :
    Yields (.scRead span addr 0) s (fun t =>
      t.d.rdata = BitVec.ofNat 512 (natOfBytes (x.data.take 64)) ∧ t.d.caches = s.d.caches ∧ t.d.near = s.d.near ∧
      t.d.rd (P.spanCache span) F.SC_RD_CNT.COUNT =
        (s.d.rd (P.spanCache span) F.SC_RD_CNT.COUNT + 1) % 2 ^ F.SC_RD_CNT.COUNT.w ∧
      t.d.rd (P.spanCache span) F.SC_HIT_CNT.COUNT =
        (s.d.rd (P.spanCache span) F.SC_HIT_CNT.COUNT + 1) % 2 ^ F.SC_HIT_CNT.COUNT.w ∧
      OtherPages s.d t.d (P.spanCache span)) := by
  apply yields_work (f := fun d => d.scReadCmd s.now span addr 0) rfl hclk
  simp only [Dev.scReadCmd_hit s.d s.now hs hbias haddr hlink hx]
  generalize natOfBytes (x.data.take 64) = v
  have hregs : (Dev.answer (v, ((s.d.count (P.spanCache span) F.SC_RD_CNT.COUNT 1).count (P.spanCache span)
      F.SC_HIT_CNT.COUNT 1).scTouch span x)).regs =
      ((s.d.count (P.spanCache span) F.SC_RD_CNT.COUNT 1).count (P.spanCache span) F.SC_HIT_CNT.COUNT 1).regs :=
    Dev.answer_regs _ _
  refine ⟨Dev.answer_rdata _ _, Dev.answer_caches _ _, Dev.answer_near _ _, ?_, ?_, ?_⟩
  · exact (Dev.rdi_congr hregs _ _ _).trans
      ((Dev.rdi_countTo_apart _ _ _ _ _ _ (by decide)).trans (Dev.rdi_countTo_same _ _ _ _ _))
  · rw [Dev.rd_eq_rdi, Dev.rdi_congr hregs, Dev.count, Dev.rdi_countTo_same, Dev.rd_eq_rdi, Dev.count,
      Dev.rdi_countTo_apart _ _ _ _ _ _ (by decide)]
    rfl
  · exact ((OtherPages.rfl'.countTo _ _ _ (by decide) (by decide)).countTo _ _ _ (by decide) (by decide)).of_regs hregs

theorem scWrite_hit_yields (hs : span < 8) (addr : Nat) (data : List Byte) (x : Sector) (hclk : s.d.clocked = true)
    (hbias : s.d.flag P.hostIf F.HI_HDM_CTL.DB_EN = false) (haddr : addr + data.length ≤ s.d.stripedSize)
    (hlink : s.d.keyRetrains addr = false) (hpiece : addr % 512 + data.length ≤ 512)
    (hx : (s.d.cache span).find? (fun x => x.addr == addr / 512) = some x) :
    Yields (.scWrite span addr data) s (fun t =>
      (t.d.cache span).find? (fun x => x.addr == addr / 512) =
        some { x with dirty := true, data := x.data.take (addr % 512) ++ data ++ x.data.drop (addr % 512 + data.length) } ∧
      (∀ j, j < 8 → j ≠ span → (t.d.cache j).find? (fun x => x.addr == addr / 512) = none) ∧ t.d.spad = s.d.spad) := by
  have hcmd : s.d.scWriteCmd s.now span addr data = (s.d.scWrite s.now span addr addr data 0 false).2 := by
    simp only [Dev.scWriteCmd, hs, haddr, hpiece, hlink, Bool.not_false, and_self, if_true, Dev.snoopNow_unbiased s.d _ _ _ hbias]
  have hxaddr : x.addr = addr / 512 := by simpa using List.find?_some hx
  apply yields_work (f := fun d => d.scWriteCmd s.now span addr data) rfl hclk
  simp only [hcmd, Dev.scWrite_hit s.d _ _ _ _ _ _ _ hx]
  refine ⟨?_, fun j hj hne => ?_, Dev.spad_scGiveUps _ _ _ _ _⟩
  · rw [Dev.cache_scTouch, Dev.cache_putCache]
    exact find_replaceSector hx hxaddr
  · rw [Dev.cache_scTouch, Dev.cache_putCache_other _ _ hne]
    exact Dev.find_scGiveUps_other _ _ _ _ hj hne

theorem scFlush_yields (hs : span < 8) (h : s.d.flag (P.spanCache span) F.SC_CTL.BUSY = false) :
    Yields (.scFlush span) s (fun t =>
      t.d.cache span = (s.d.cache span).map (fun x => { x with dirty := false }) ∧
      (∀ j, j ≠ span → t.d.cache j = s.d.cache j) ∧ t.d.flag (P.spanCache span) F.SC_CTL.BUSY = true ∧
      t.d.spad = s.d.spad) := by
  apply yields_upd (f := fun d => d.scOp s.now span false) rfl
  simp only [Dev.scOp_flush s.d s.now hs h]
  exact ⟨(Dev.cache_wri _ _ _ _ _ _).trans (Dev.cache_scFlushAll_same _ _ _),
    fun j hj => (Dev.cache_wri _ _ _ _ _ _).trans (Dev.cache_scFlushAll_other _ _ hj), Dev.flag_wri_same _ _ _ rfl,
    (Dev.wri_spad _ _ _ _ _).trans (Dev.spad_scFlushAll _ _ _)⟩

theorem scInvalidate_yields (hs : span < 8) (h : s.d.flag (P.spanCache span) F.SC_CTL.BUSY = false) :
    Yields (.scInvalidate span) s (fun t =>
      t.d.cache span = [] ∧ (∀ j, j ≠ span → t.d.cache j = s.d.cache j) ∧
      t.d.flag (P.spanCache span) F.SC_CTL.BUSY = true ∧ t.d.spad = s.d.spad) := by
  apply yields_upd (f := fun d => d.scOp s.now span true) rfl
  simp only [Dev.scOp_invalidate s.d s.now hs h]
  exact ⟨(Dev.cache_wri _ _ _ _ _ _).trans (Dev.cache_putCache _ _ _),
    fun j hj => (Dev.cache_wri _ _ _ _ _ _).trans ((Dev.cache_putCache_other _ _ hj).trans (Dev.cache_scFlushAll_other _ _ hj)),
    Dev.flag_wri_same _ _ _ rfl,
    (Dev.wri_spad _ _ _ _ _).trans ((Dev.spad_putCache _ _ _).trans (Dev.spad_scFlushAll _ _ _))⟩

/-- R476: FLUSH and INVALIDATE are ignored with STATE_CMD while an operation runs. -/
theorem scOp_busy_yields {c : Instr} (inv : Bool) (hc : exec c s = upd s (fun d => d.scOp s.now span inv)) (hs : span < 8)
    (h : s.d.flag (P.spanCache span) F.SC_CTL.BUSY = true) :
    Yields c s (fun t => t.d.caches = s.d.caches ∧ t.d.near = s.d.near ∧
      t.d.flag (P.spanCache span) F.UNIT_ERR.STATE_CMD = true) := by
  apply yields_upd hc
  simp only [Dev.scOp_busy s.d s.now inv hs h]
  exact ⟨Dev.stateCmd_caches _ _ _, Dev.stateCmd_near _ _ _, Dev.flag_stateCmd_same _ _ _⟩

theorem scOpDone_yields (hclk : s.d.clocked = true) : Yields (.scOpDone span) s (fun t =>
    t.d.flag (P.spanCache span) F.SC_CTL.BUSY = false ∧ OtherPages s.d t.d (P.spanCache span) ∧
    { t.d with regs := s.d.regs } = s.d) := by
  apply yields_work (f := fun d => d.wr (P.spanCache span) F.SC_CTL.BUSY 0) rfl hclk
  exact ⟨Dev.flag_wri_same _ _ _ rfl, otherPages_wri _ _ _ _ _ (by decide) (by decide), Dev.wri_frame _ _ _ _ _⟩

end Caches

/-! ### Invalidations of cached translations (R580, R581) -/

/-- The cached translations that an invalidation of a page leaves. -/
def uncovered (tc : List TcEnt) (page : Nat) : List TcEnt := tc.filter (fun x => !tcCovers x page)

theorem Dev.dropCached_all (d : Dev) (h : d.invPage = none) : d.dropCached = { d with tcache := [] } := by
  simp only [Dev.dropCached, h]

theorem Dev.dropCached_page (d : Dev) {page : Nat} (h : d.invPage = some page) :
    d.dropCached = { d with tcache := uncovered d.tcache page } := by
  simp only [Dev.dropCached, h]
  rfl

theorem Dev.dropCached_eq (d : Dev) : ∃ tc, d.dropCached = { d with tcache := tc } := by
  unfold Dev.dropCached
  split
  · exact ⟨_, rfl⟩
  · exact ⟨_, rfl⟩

theorem Dev.ptInv_all (d : Dev) (t : Nat) (h : d.flag P.placement F.FT_PT_INV.BUSY = false) : d.ptInv t none =
    ({ d with invPage := none, tcache := [] } : Dev).wri P.placement 0 F.FT_PT_INV.BUSY 1 := by
  simp only [Dev.ptInv, h, Bool.false_eq_true, if_false]
  rfl

theorem Dev.ptInv_page (d : Dev) (t : Nat) {page : Nat} (hp : page < 2 ^ 27) (h : d.flag P.placement F.FT_PT_INV.BUSY = false) :
    d.ptInv t (some page) =
      ({ d.wri P.placement 0 F.FT_PT_INV.ADDR page with invPage := some page, tcache := uncovered d.tcache page } : Dev).wri
        P.placement 0 F.FT_PT_INV.BUSY 1 := by
  simp only [Dev.ptInv, h, Bool.false_eq_true, if_false, Option.map_some, Nat.mod_eq_of_lt hp]
  rfl

theorem Dev.ptInv_busy (d : Dev) (t : Nat) (page : Option Nat) (h : d.flag P.placement F.FT_PT_INV.BUSY = true) :
    d.ptInv t page = d.stateCmd t P.placement := if_pos h

theorem Dev.invDone_busy (d : Dev) (h : d.flag P.placement F.FT_PT_INV.BUSY = true) :
    d.invDone = d.dropCached.wri P.placement 0 F.FT_PT_INV.BUSY 0 := if_pos h

/-! What an invalidation leaves unchanged of the whole device. -/

theorem Dev.invalidate_wri_frame (d : Dev) (tc : List TcEnt) (page : Option Nat) (p i v : Nat) (f : Fld) :
    { ({ d with invPage := page, tcache := tc } : Dev).wri p i f v with
      regs := d.regs, tcache := d.tcache, invPage := d.invPage } = d := rfl

theorem Dev.wri_invalidate_wri_frame (d : Dev) (tc : List TcEnt) (page : Option Nat) (p i v q j w : Nat) (f g : Fld) :
    { ({ d.wri p i f v with invPage := page, tcache := tc } : Dev).wri q j g w with
      regs := d.regs, tcache := d.tcache, invPage := d.invPage } = d := rfl

theorem Dev.tcache_wri_frame (d : Dev) (tc : List TcEnt) (p i v : Nat) (f : Fld) :
    { ({ d with tcache := tc } : Dev).wri p i f v with regs := d.regs, tcache := d.tcache } = d := rfl

section Translations

variable (s : State)

theorem ftPtInvAll_yields (h : s.d.flag P.placement F.FT_PT_INV.BUSY = false) : Yields .ftPtInvAll s (fun t =>
    t.d.tcache = [] ∧ t.d.invPage = none ∧ t.d.flag P.placement F.FT_PT_INV.BUSY = true ∧
    OtherPages s.d t.d P.placement ∧ { t.d with regs := s.d.regs, tcache := s.d.tcache, invPage := s.d.invPage } = s.d) := by
  apply yields_upd (f := fun d => d.ptInv s.now none) rfl
  simp only [Dev.ptInv_all s.d s.now h]
  exact ⟨rfl, rfl, Dev.flag_wri_same _ _ _ rfl, (OtherPages.rfl'.of_regs rfl).wri _ _ _ (by decide) (by decide),
    Dev.invalidate_wri_frame _ _ _ _ _ _ _⟩

theorem ftPtInvPage_yields (h : s.d.flag P.placement F.FT_PT_INV.BUSY = false) (page : Nat) (hp : page < 2 ^ 27) :
    Yields (.ftPtInvPage page) s (fun t =>
      t.d.tcache = s.d.tcache.filter (fun x => !tcCovers x page) ∧ t.d.invPage = some page ∧
      t.d.flag P.placement F.FT_PT_INV.BUSY = true ∧
      t.d.rd P.placement F.FT_PT_INV.ADDR = page ∧ OtherPages s.d t.d P.placement ∧
      { t.d with regs := s.d.regs, tcache := s.d.tcache, invPage := s.d.invPage } = s.d) := by
  apply yields_upd (f := fun d => d.ptInv s.now (some page)) rfl
  simp only [Dev.ptInv_page s.d s.now hp h]
  refine ⟨rfl, rfl, Dev.flag_wri_same _ _ _ rfl, ?_, ?_, Dev.wri_invalidate_wri_frame _ _ _ _ _ _ _ _ _ _ _⟩
  · rw [Dev.rd_eq_rdi, Dev.rdi_wri_field _ _ _ _ _ (by decide)]
    exact (Dev.rdi_congr (b := s.d.wri P.placement 0 F.FT_PT_INV.ADDR page) rfl _ _ _).trans
      ((Dev.rdi_wri_same _ _ _ _ _).trans (Nat.mod_eq_of_lt hp))
  · exact ((otherPages_wri s.d _ _ page F.FT_PT_INV.ADDR (by decide) (by decide)).of_regs rfl).wri _ _ _ (by decide) (by decide)

/-- R580: an invalidation is ignored with STATE_CMD while another runs. -/
theorem ptInv_busy_yields {c : Instr} (page : Option Nat) (hc : exec c s = upd s (fun d => d.ptInv s.now page))
    (h : s.d.flag P.placement F.FT_PT_INV.BUSY = true) : Yields c s (fun t =>
      t.d.tcache = s.d.tcache ∧ t.d.invPage = s.d.invPage ∧ t.d.flag P.placement F.UNIT_ERR.STATE_CMD = true) := by
  apply yields_upd hc
  simp only [Dev.ptInv_busy s.d s.now page h]
  exact ⟨Dev.stateCmd_tcache _ _ _, Dev.stateCmd_invPage _ _ _, Dev.flag_stateCmd_same _ _ _⟩

theorem invalidationDone_yields (h : s.d.flag P.placement F.FT_PT_INV.BUSY = true) : Yields .invalidationDone s (fun t =>
    t.d.flag P.placement F.FT_PT_INV.BUSY = false ∧
    (s.d.invPage = none → t.d.tcache = []) ∧
    (∀ page, s.d.invPage = some page → t.d.tcache = s.d.tcache.filter (fun x => !tcCovers x page)) ∧
    OtherPages s.d t.d P.placement ∧ { t.d with regs := s.d.regs, tcache := s.d.tcache } = s.d) := by
  apply yields_upd (f := fun d => d.invDone) rfl
  simp only [Dev.invDone_busy s.d h, Dev.wri_tcache]
  refine ⟨Dev.flag_wri_same _ _ _ rfl, fun hall => ?_, fun page hpage => ?_, ?_⟩
  · rw [Dev.dropCached_all _ hall]
  · rw [Dev.dropCached_page _ hpage]
    rfl
  · obtain ⟨tc, htc⟩ := s.d.dropCached_eq
    rw [htc]
    exact ⟨(OtherPages.rfl'.of_regs rfl).wri _ _ _ (by decide) (by decide), Dev.tcache_wri_frame _ _ _ _ _ _⟩

end Translations

/-- Settles O15, clause by clause: the accesses that hit, the operations by BUSY, and the invalidations by BUSY. -/
theorem cachesAndTranslations : Obligations.CachesAndTranslations :=
  ⟨fun s span hs => ⟨scRead_hit_yields s span hs, scWrite_hit_yields s span hs,
      fun h => ⟨scFlush_yields s span hs h, scInvalidate_yields s span hs h⟩,
      fun h => ⟨scOp_busy_yields s span false rfl hs h, scOp_busy_yields s span true rfl hs h⟩, scOpDone_yields s span⟩,
    fun s => ⟨fun h => ⟨ftPtInvAll_yields s h, ftPtInvPage_yields s h⟩,
      fun h => ⟨ptInv_busy_yields s none rfl h, fun page => ptInv_busy_yields s (some page) rfl h, invalidationDone_yields s h⟩⟩⟩

end Sys2Proof.Machine

/-! # 07: sub-dockets -/

namespace Sys2Proof.Machine

/-! ### A clerk's registers and retirement -/

@[simp] theorem ClerkSt.wx_csr (c : ClerkSt) (r : Nat) (v : Word) : (c.wx r v).csr = c.csr := by unfold ClerkSt.wx; split <;> rfl
@[simp] theorem ClerkSt.wx_pc (c : ClerkSt) (r : Nat) (v : Word) : (c.wx r v).pc = c.pc := by unfold ClerkSt.wx; split <;> rfl
@[simp] theorem ClerkSt.wx_itcm (c : ClerkSt) (r : Nat) (v : Word) : (c.wx r v).itcm = c.itcm := by unfold ClerkSt.wx; split <;> rfl
@[simp] theorem ClerkSt.wx_dtcm (c : ClerkSt) (r : Nat) (v : Word) : (c.wx r v).dtcm = c.dtcm := by unfold ClerkSt.wx; split <;> rfl
@[simp] theorem ClerkSt.wx_stage (c : ClerkSt) (r : Nat) (v : Word) : (c.wx r v).stage = c.stage := by unfold ClerkSt.wx; split <;> rfl

/-- A register read after a register write; x0 stays zero. -/
theorem ClerkSt.rx_wx (c : ClerkSt) (r i : Nat) (v : Word) : (c.wx r v).rx i = if i = r ∧ i ≠ 0 then v else c.rx i := by
  by_cases hi : i = 0
  · simp [ClerkSt.rx, hi]
  by_cases hr : r = 0
  · simp [ClerkSt.wx, hr, hi]
  · simp [ClerkSt.rx, ClerkSt.wx, hr, hi, Tbl.get_set]

theorem ClerkSt.rcsr_wcsr_same (c : ClerkSt) (n v : Nat) : (c.wcsr n v).rcsr n = v % 2 ^ 64 := by
  simp [ClerkSt.rcsr, ClerkSt.wcsr]

/-- An instruction of 4 bytes that writes `v` to `rd`, executes and waits no longer has retired. -/
theorem ClerkSt.retires_wx_retire (c : ClerkSt) (rd : Nat) (v : Word) :
    Retires c { (c.wx rd v).retire 4 with cwait := none } rd v := by
  refine ⟨fun i _ => c.rx_wx rd i v, ?_, ?_, c.wx_itcm rd v, c.wx_dtcm rd v, c.wx_stage rd v⟩
  · exact congrArg (· + BitVec.ofNat 64 4) (c.wx_pc rd v)
  · have hcsr : (c.wx rd v).rcsr 0xB02 = c.rcsr 0xB02 := by simp only [ClerkSt.rcsr, ClerkSt.wx_csr]
    exact (ClerkSt.rcsr_wcsr_same _ _ _).trans (by rw [hcsr])

@[simp] theorem Dev.putClerk_subs (d : Dev) (p : Nat) (x : ClerkSt) : (d.putClerk p x).subs = d.subs := rfl
@[simp] theorem Dev.putClerk_spad (d : Dev) (p : Nat) (x : ClerkSt) : (d.putClerk p x).spad = d.spad := rfl

@[simp] theorem Dev.tzDoneWith_subs (d : Dev) (p rd v : Nat) : (d.tzDoneWith p rd v).subs = d.subs :=
  (Dev.wri_subs ..).trans (Dev.putClerk_subs ..)
@[simp] theorem Dev.tzDoneWith_spad (d : Dev) (p rd v : Nat) : (d.tzDoneWith p rd v).spad = d.spad :=
  (Dev.wri_spad ..).trans (Dev.putClerk_spad ..)

theorem Dev.tzDoneWith_retires (d : Dev) (p rd v : Nat) :
    Retires (d.clerk p) ((d.tzDoneWith p rd v).clerk p) rd (BitVec.ofNat 64 v) := by
  rw [Dev.tzDoneWith, Dev.wr_eq_wri, Dev.clerk_wri, Dev.clerk_putClerk]
  exact ClerkSt.retires_wx_retire _ _ _

theorem OtherPages.tzDoneWith {a d : Dev} {p : Nat} (h : OtherPages a d p) (rd v : Nat) :
    OtherPages a (d.tzDoneWith p rd v) p :=
  (h.of_regs (Dev.putClerk_regs _ _ _)).wri _ _ _ (by decide) (by decide)

/-! ### Exceptions that halt (R527, R528) -/

@[simp] theorem Dev.setErr_subs (d : Dev) (t p b kind cls addr aux : Nat) :
    (d.setErr t p b kind cls addr aux).subs = d.subs := by
  unfold Dev.setErr
  split
  · exact Dev.send_subs ..
  · rfl

/-- A setting of a bit of UNIT_ERR writes its field and, when its message is dropped, the count of those. -/
theorem Dev.rdi_setErr (d : Dev) (t p b kind cls addr aux q j : Nat) (g : Fld)
    (hdrop : (g.off * 64 + g.lo) % 2 ^ 18 ≠ (F.FC_DROP_CNT.COUNT.off * 64 + F.FC_DROP_CNT.COUNT.lo) % 2 ^ 18) :
    (d.setErr t p b kind cls addr aux).rdi q j g = (d.setErrBit p b).rdi q j g := by
  unfold Dev.setErr
  split
  · exact Dev.rdi_send_offset _ _ _ _ _ _ _ _ _ _ hdrop
  · rfl

theorem errFld_sixteen : errFld 16 = (F.UNIT_ERR.BLOCK_ERR, 0) := rfl

/-- The clerk's page as an exception under TRAP_HALT leaves it, but for UNIT_ERR (R528). -/
def Dev.recordFault (d : Dev) (p cause xcode : Nat) : Dev :=
  let pc := (d.clerk p).pc.toNat
  let d := ((d.raiseBit p F.GC_FAULT.VALID 0).wr p F.GC_FAULT.CAUSE cause).wr p F.GC_FAULT.XCODE xcode
  (((d.wr p F.GC_FAULT.PC pc).wr p F.GC_STAT.HALTED 1).wr p F.GC_STAT.RUNNING 0).wr p F.GC_STAT.WAITING 0

/-- An Xtlz exception under TRAP_HALT is recorded with its code and reported. -/
theorem Dev.xtlz_halts (d : Dev) (t p code : Nat) (h : d.flag p F.GC_CTL.TRAP_HALT = true) :
    d.xtlz t p code = (d.recordFault p 24 code).setErr t p 16 K.GC_EXCEPTION Cls.CONTAINED 0 0 := by
  simp only [Dev.xtlz, Dev.clerkExc, h, if_true, Dev.recordFault]

@[simp] theorem Dev.raiseBit_subs (d : Dev) (p b : Nat) (f : Fld) : (d.raiseBit p f b).subs = d.subs := rfl

@[simp] theorem Dev.recordFault_subs (d : Dev) (p cause xcode : Nat) : (d.recordFault p cause xcode).subs = d.subs := by
  simp only [Dev.recordFault, Dev.wr_eq_wri]
  repeat rw [Dev.wri_subs]
  exact Dev.raiseBit_subs _ _ _ _

theorem Dev.recordFault_reads (d : Dev) (p cause xcode : Nat) :
    (d.recordFault p cause xcode).rdi p 0 F.GC_FAULT.CAUSE = cause % 2 ^ 8 ∧
    (d.recordFault p cause xcode).rdi p 0 F.GC_FAULT.XCODE = xcode % 2 ^ 8 ∧
    (d.recordFault p cause xcode).rdi p 0 F.GC_STAT.HALTED = 1 := by
  simp only [Dev.recordFault, Dev.wr_eq_wri]
  refine ⟨?_, ?_, ?_⟩
  all_goals
    repeat rw [Dev.rdi_wri_field _ _ _ _ _ (by decide)]
    exact Dev.rdi_wri_same _ _ _ _ _

/-- A register of the clerk's page after an Xtlz exception that halts, if it is neither UNIT_ERR nor the drop counter's place. -/
theorem Dev.rdi_xtlz_halts (d : Dev) (t p code : Nat) (g : Fld) (h : d.flag p F.GC_CTL.TRAP_HALT = true)
    (hdrop : (g.off * 64 + g.lo) % 2 ^ 18 ≠ (F.FC_DROP_CNT.COUNT.off * 64 + F.FC_DROP_CNT.COUNT.lo) % 2 ^ 18)
    (herr : g.off * 64 + g.lo ≠ F.UNIT_ERR.BLOCK_ERR.off * 64 + F.UNIT_ERR.BLOCK_ERR.lo) :
    (d.xtlz t p code).rdi p 0 g = (d.recordFault p 24 code).rdi p 0 g := by
  rw [Dev.xtlz_halts d t p code h, Dev.rdi_setErr _ _ _ _ _ _ _ _ _ _ _ hdrop]
  rw [Dev.setErrBit, errFld_sixteen, Dev.raiseBit_rdi, Dev.rdi_wri_field _ _ _ _ _ herr]

theorem Dev.xtlz_halts_subs (d : Dev) (t p code : Nat) (h : d.flag p F.GC_CTL.TRAP_HALT = true) :
    (d.xtlz t p code).subs = d.subs := by
  rw [Dev.xtlz_halts d t p code h, Dev.setErr_subs, Dev.recordFault_subs]

/-! ### TZ.DPOST (R520, R521, R525) -/

/-- A posted sub-docket joins its span's queue, not begun. -/
def Dev.postSub (d : Dev) (p e : Nat) (q : Part) (bytes : List Byte) : Dev :=
  { d with subs := d.subs ++ [{ span := spanOf p, entry := e, clerk := p, parent := q, bytes := bytes, stage := .fetched }] }

section Post

variable (d : Dev) (t : Nat) {p w a : Nat} {q : Part} {bytes : List Byte}
  (ha : a = ((d.clerk p).rx (rs1Of w)).toNat) (hw : d.tzAt p 7 = some w) (hq : (d.clerk p).part = some q)
  (halign : a % 64 = 0) (hlo : 0x100000 ≤ a) (hhi : a + 64 ≤ 0x110000)
  (hbytes : bytes = Tbl.getN zeroByte (d.clerk p).dtcm (a - 0x100000) 64)
  (hgood : subBad { n := 0, bytes := bytes, snap := [], stage := .fetched } = false)
include ha hw hq halign hlo hhi hbytes hgood

theorem Dev.tzDpost_free {e : Nat} (he : d.freeSub (spanOf p) = some e) :
    d.tzDpost t p = (d.postSub p e q bytes).tzDoneWith p (rdOf w) e := by
  have hin : ¬(a < 0x100000 ∨ a + 64 > 0x110000) := by omega
  simp only [Dev.tzDpost, hw, hq, ← ha, halign, hin, ← hbytes, hgood, he, ne_eq, not_true, if_false, Bool.false_eq_true]
  rfl

theorem Dev.tzDpost_full (he : d.freeSub (spanOf p) = none) :
    d.tzDpost t p = d.tzDoneWith p (rdOf w) (2 ^ 64 - 1) := by
  have hin : ¬(a < 0x100000 ∨ a + 64 > 0x110000) := by omega
  simp only [Dev.tzDpost, hw, hq, ← ha, halign, hin, ← hbytes, hgood, he, ne_eq, not_true, if_false, Bool.false_eq_true]

end Post

/-- A clerk that serves no RUN_STEP has none to post for (R527). -/
theorem Dev.tzDpost_outside (d : Dev) (t : Nat) {p w : Nat} (hw : d.tzAt p 7 = some w) (hq : (d.clerk p).part = none) :
    d.tzDpost t p = d.xtlz t p 4 := by
  simp only [Dev.tzDpost, hw, hq]

/-! ### A posted NOP (R520, R524) -/

/-- A sub-docket of the queue once the one in entry `e` of span `s` has ended. -/
def endSub (s e st det : Nat) (b : Sub) : Sub := if b.span = s ∧ b.entry = e then { b with stage := .ended st det } else b

@[simp] theorem endSub_span (s e st det : Nat) (b : Sub) : (endSub s e st det b).span = b.span := by unfold endSub; split <;> rfl
@[simp] theorem endSub_entry (s e st det : Nat) (b : Sub) : (endSub s e st det b).entry = b.entry := by unfold endSub; split <;> rfl

theorem endSub_stage {s e : Nat} (st det : Nat) {b : Sub} (hs : b.span = s) (he : b.entry = e) :
    (endSub s e st det b).stage = .ended st det := by
  rw [endSub, if_pos ⟨hs, he⟩]

/-- The end of a RUN_STEP changes the runs and its docket's ring only. -/
theorem Dev.finishRun_frame (d : Dev) (k n : Nat) :
    (d.finishRun k n).subs = d.subs ∧ (d.finishRun k n).regs = d.regs ∧ (d.finishRun k n).spad = d.spad := by
  unfold Dev.finishRun
  split
  · exact ⟨rfl, rfl, rfl⟩
  · split
    · dsimp only
      split <;> exact ⟨rfl, rfl, rfl⟩
    · exact ⟨rfl, rfl, rfl⟩

/-- The end of a sub-docket, with or without that of its RUN_STEP. -/
theorem Dev.endOwner_sub (d : Dev) (s e st det : Nat) :
    (d.endOwner (.sub s e) st det).subs = d.subs.map (endSub s e st det) ∧
    (d.endOwner (.sub s e) st det).regs = d.regs ∧ (d.endOwner (.sub s e) st det).spad = d.spad := by
  simp only [Dev.endOwner]
  split
  · exact Dev.finishRun_frame _ _ _
  · exact ⟨rfl, rfl, rfl⟩

/-- A NOP that nothing holds ends as it begins. -/
theorem Dev.subBegin_nop (d : Dev) (t : Nat) {s e : Nat} {b : Sub}
    (hb : d.subs.find? (fun b => b.span == s && b.entry == e && b.stage == .fetched) = some b)
    (hheld : d.subHeld b = false) (hop : b.docket.opcode = 0) : d.subBegin t s e = d.endOwner (.sub s e) St.OK 0 := by
  simp only [Dev.subBegin, hb, hheld, hop, Bool.false_eq_true, if_false, if_true]

/-! ### TZ.DPOLL (R523) -/

section Poll

variable (d : Dev) (t : Nat) {p w : Nat} {b : Sub} (hw : d.tzAt p 8 = some w)
  (hb : d.subs.find? (fun b => b.span == spanOf p && b.entry == ((d.clerk p).rx (rs1Of w)).toNat % 16 && b.clerk == p) = some b)
include hw hb

/-- The poll of an ended sub-docket frees its entry. -/
theorem Dev.tzDpoll_ended {st det : Nat} (hst : b.stage = .ended st det) :
    d.tzDpoll t p =
      ({ d with subs := d.subs.filter (fun x => !(x.span == spanOf p && x.entry == ((d.clerk p).rx (rs1Of w)).toNat % 16)) } :
        Dev).tzDoneWith p (rdOf w) (2 ^ 63 + st) := by
  simp only [Dev.tzDpoll, hw, hb, hst]

theorem Dev.tzDpoll_running (hst : ∀ st det, b.stage ≠ .ended st det) : d.tzDpoll t p = d.tzDoneWith p (rdOf w) 0 := by
  cases hs : b.stage with
  | ended st det => exact absurd hs (hst st det)
  | fetched => simp only [Dev.tzDpoll, hw, hb, hs]
  | begun => simp only [Dev.tzDpoll, hw, hb, hs]

end Poll

/-! ### The clauses -/

section SubDockets

variable (s : State) {p w : Nat} (hclk : s.d.clocked = true)
include hclk

theorem tzDpost_free_yields {q : Part} {e : Nat} {bytes : List Byte}
    (h : s.d.tzDpost s.now p = (s.d.postSub p e q bytes).tzDoneWith p (rdOf w) e) : Yields (.tzDpost p) s (fun t =>
      Retires (s.d.clerk p) (t.d.clerk p) (rdOf w) (BitVec.ofNat 64 e) ∧
      t.d.subs = s.d.subs ++ [{ span := spanOf p, entry := e, clerk := p, parent := q, bytes := bytes, stage := .fetched }] ∧
      OtherPages s.d t.d p ∧ t.d.spad = s.d.spad) := by
  apply yields_work (f := fun d => d.tzDpost s.now p) rfl hclk
  simp only [h]
  exact ⟨Dev.tzDoneWith_retires _ _ _ _, Dev.tzDoneWith_subs .., (OtherPages.rfl'.of_regs rfl).tzDoneWith _ _, Dev.tzDoneWith_spad ..⟩

theorem tzDpost_full_yields (h : s.d.tzDpost s.now p = s.d.tzDoneWith p (rdOf w) (2 ^ 64 - 1)) :
    Yields (.tzDpost p) s (fun t =>
      Retires (s.d.clerk p) (t.d.clerk p) (rdOf w) (BitVec.allOnes 64) ∧ t.d.subs = s.d.subs ∧ OtherPages s.d t.d p) := by
  apply yields_work (f := fun d => d.tzDpost s.now p) rfl hclk
  simp only [h]
  exact ⟨Dev.tzDoneWith_retires _ _ _ _, Dev.tzDoneWith_subs .., OtherPages.rfl'.tzDoneWith _ _⟩

theorem tzDpost_outside_yields (hw : s.d.tzAt p 7 = some w) (hq : (s.d.clerk p).part = none)
    (hhalt : s.d.flag p F.GC_CTL.TRAP_HALT = true) : Yields (.tzDpost p) s (fun t =>
      t.d.rd p F.GC_FAULT.CAUSE = 24 ∧ t.d.rd p F.GC_FAULT.XCODE = 4 ∧ t.d.flag p F.GC_STAT.HALTED = true ∧
      t.d.subs = s.d.subs) := by
  apply yields_work (f := fun d => d.tzDpost s.now p) rfl hclk
  simp only [Dev.tzDpost_outside s.d s.now hw hq, Dev.flag, Dev.rd_eq_rdi]
  obtain ⟨hcause, hxcode, hhalted⟩ := Dev.recordFault_reads s.d p 24 4
  refine ⟨?_, ?_, ?_, Dev.xtlz_halts_subs _ _ _ _ hhalt⟩
  · exact (Dev.rdi_xtlz_halts _ _ _ _ _ hhalt (by decide) (by decide)).trans hcause
  · exact (Dev.rdi_xtlz_halts _ _ _ _ _ hhalt (by decide) (by decide)).trans hxcode
  · rw [Dev.rdi_xtlz_halts _ _ _ _ _ hhalt (by decide) (by decide), hhalted, beq_self_eq_true]

theorem subDocketBegin_nop_yields {span e : Nat} {b : Sub}
    (hb : s.d.subs.find? (fun b => b.span == span && b.entry == e && b.stage == .fetched) = some b)
    (hheld : s.d.subHeld b = false) (hop : b.docket.opcode = 0) (ctl : List ReqOutcome) :
    Yields (.subDocketBegin span e ctl) s (fun t =>
      (∀ y ∈ t.d.subs, y.span = span → y.entry = e → y.stage = .ended St.OK 0) ∧ t.d.subs.length = s.d.subs.length ∧
      t.d.regs = s.d.regs ∧ t.d.spad = s.d.spad) := by
  have hnop := Dev.subBegin_nop { s.d with env := { ctl := ctl, acc := [] } } s.now hb hheld hop
  obtain ⟨hsubs, hregs, hspad⟩ := Dev.endOwner_sub { s.d with env := { ctl := ctl, acc := [] } } span e St.OK 0
  apply yields_work (f := fun d => d.withEnv ctl [] (fun d => d.subBegin s.now span e)) rfl hclk
  simp only [Dev.withEnv, hnop, hsubs, List.length_map, true_and]
  refine ⟨fun y hy hspan hentry => ?_, hregs, hspad⟩
  obtain ⟨x, _, rfl⟩ := List.mem_map.mp hy
  exact endSub_stage _ _ ((endSub_span ..).symm.trans hspan) ((endSub_entry ..).symm.trans hentry)

variable {b : Sub} (hw : s.d.tzAt p 8 = some w)
  (hb : s.d.subs.find? (fun b =>
    b.span == spanOf p && b.entry == ((s.d.clerk p).rx (rs1Of w)).toNat % 16 && b.clerk == p) = some b)
include hw hb

theorem tzDpoll_ended_yields (st det : Nat) (hst : b.stage = .ended st det) : Yields (.tzDpoll p) s (fun t =>
    Retires (s.d.clerk p) (t.d.clerk p) (rdOf w) (BitVec.ofNat 64 (2 ^ 63 + st)) ∧
    t.d.subs = s.d.subs.filter (fun x => !(x.span == spanOf p && x.entry == ((s.d.clerk p).rx (rs1Of w)).toNat % 16)) ∧
    t.d.spad = s.d.spad) := by
  apply yields_work (f := fun d => d.tzDpoll s.now p) rfl hclk
  simp only [Dev.tzDpoll_ended s.d s.now hw hb hst]
  exact ⟨Dev.tzDoneWith_retires _ _ _ _, Dev.tzDoneWith_subs .., Dev.tzDoneWith_spad ..⟩

theorem tzDpoll_running_yields (hst : ∀ st det, b.stage ≠ .ended st det) : Yields (.tzDpoll p) s (fun t =>
    Retires (s.d.clerk p) (t.d.clerk p) (rdOf w) 0 ∧ t.d.subs = s.d.subs ∧ t.d.spad = s.d.spad) := by
  apply yields_work (f := fun d => d.tzDpoll s.now p) rfl hclk
  simp only [Dev.tzDpoll_running s.d s.now hw hb hst]
  exact ⟨Dev.tzDoneWith_retires _ _ _ _, Dev.tzDoneWith_subs .., Dev.tzDoneWith_spad ..⟩

end SubDockets

/-- Settles O27, clause by clause: the post that finds an entry, that finds none and that is outside a RUN_STEP, the NOP that
begins, and the poll by the stage of the sub-docket. -/
theorem subDockets : Obligations.SubDockets := by
  intro s p w a hclk ha
  refine ⟨fun q bytes hw hq halign hlo hhi hbytes hgood => ⟨fun e he => ?_, fun he => ?_⟩, tzDpost_outside_yields s hclk,
    fun span e b => subDocketBegin_nop_yields s hclk, fun b hw hb => ?_⟩
  · exact tzDpost_free_yields s hclk (Dev.tzDpost_free s.d s.now ha hw hq halign hlo hhi hbytes hgood he)
  · exact tzDpost_full_yields s hclk (Dev.tzDpost_full s.d s.now ha hw hq halign hlo hhi hbytes hgood he)
  · subst ha
    exact ⟨tzDpoll_ended_yields s hclk hw hb, tzDpoll_running_yields s hclk hw hb⟩

end Sys2Proof.Machine

/-! # 09: writes of DK_STEP and CLEAR while a RUN_STEP is in execution -/

namespace Sys2Proof.Machine

/-- R720: while a RUN_STEP or a counted REDUCE is in execution, a write of CLEAR only sets STATE_CMD. -/
theorem Dev.stepClear_ignored (d : Dev) (t : Nat) (h : d.runExecuting = true ∨ d.countedExecuting = true) :
    d.stepClear t = d.stateCmd t P.dkCtl :=
  if_pos (Bool.or_eq_true_iff.mpr h)

/-- A RUN_STEP of step 0 and micro-batch 0 on the units of span 0, in execution. -/
def begunRunStep : Docket :=
  { n := 0, bytes := ((List.replicate 64 0).set 4 2).set 0x17 1, snap := [], stage := .begun, began := true }

/-- The device after reset, but with that RUN_STEP in execution on the device ring. -/
def devInRunStep : Dev :=
  State.reset.d.putRing deviceRing { tailN := 1, headN := 1, anns := [], q := [begunRunStep] }

/-- Eight writes of CLEAR later, Tollhouse has accepted none of their messages. -/
def crowdedDkCtl : State :=
  { State.reset with d := Nat.iterate (fun d => d.stepClear State.reset.now) 8 devInRunStep }

theorem crowdedDkCtl_runs : crowdedDkCtl.d.runExecuting = true := by decide +kernel

theorem crowdedDkCtl_full : crowdedDkCtl.d.errEnabled P.dkCtl 1 = true ∧ 8 ≤ crowdedDkCtl.d.held P.dkCtl := by
  decide +kernel

/-- Refutes O32: a write of CLEAR while a RUN_STEP is in execution is ignored with STATE_CMD (R720), as the model has it, but
after eight such writes the UNIT_STATE_CMD message of the ninth is dropped and FC_DROP_CNT rises (R833), which is a register of
Tollhouse's page: the frame of the ignored write, that no page but DK_CTL's changes, fails. -/
theorem not_stepBoundaries : ¬Obligations.StepBoundaries := by
  intro h
  obtain ⟨_, _, hignored⟩ := h crowdedDkCtl
  obtain ⟨_, hclear⟩ := hignored (Or.inl crowdedDkCtl_runs)
  obtain ⟨t, ht, _, _, _, _, hframe, _⟩ := hclear
  obtain ⟨hen, hfull⟩ := crowdedDkCtl_full
  have hd : crowdedDkCtl.d.stepClear crowdedDkCtl.now = t.d := congrArg State.d (Host.Outcome.next.inj ht)
  rw [← hd, Dev.stepClear_ignored _ _ (Or.inl crowdedDkCtl_runs)] at hframe
  exact Dev.stateCmd_dropped_not_otherPages _ _ (by decide) hen hfull hframe

end Sys2Proof.Machine
